-- ==== Sys2Proof/Word.lean ====
section
/-! DEFINITION. The words of the BV3260: bytes, two-byte fields, picture samples and the 24-bit event mask. -/

namespace Sys2Proof

/-- A byte, as every interface of the part carries it (Chapter 12). -/
abbrev Byte := BitVec 8

/-- A field of two bytes, sent most significant byte first (Chapter 12). -/
abbrev Word16 := BitVec 16

/-- A picture sample of 12 bits (Table 1-1). -/
abbrev Sample := BitVec 12

/-- A mask with one bit for each event kind code (Table 12-9, EVENT_MASK). -/
abbrev EventBits := BitVec 24

end Sys2Proof
end

