-- ==== Sys2Proof/Config.lean ====
section
/-! DEFINITION. The free values of the model: constants without a body, one for each value that the spec leaves
unstated although the command that produces it goes on (assumption log 20 and 21). Nothing can be proved of their values. -/

namespace Sys2Proof

/-- DESIGN CHOICE (log 20): the byte that LANE_GET sends for a derived figure above 255, which only the stored fields of
an unconfigured lane can give (R3, Table 12-13). -/
opaque Config.oversizeByte : Nat → Byte

/-- DESIGN CHOICE (log 20): the two bytes that LANE_GET sends for a derived figure above 65535 (R3, Table 12-13). -/
opaque Config.oversizeWord : Nat → Word16

/-- DESIGN CHOICE (log 21): the opcode echo of the BAD_COMMAND response to a COMMAND cell of length 0, which carries no
opcode (R152). -/
opaque Config.absentOpcodeEcho : Byte

end Sys2Proof
end

