-- ==== Sys2Proof/Types.lean ====
section
/-! DEFINITION. The sets of names and the records that the data book uses on its interfaces and in its state. Only data
and the plain access to the fixed families (four lanes, three side lines, two groups) stand here. -/

namespace Sys2Proof

/-- Where a command comes from (Table 0-2, "origin"). -/
inductive Origin where
  | head | base
  deriving DecidableEq, Repr

/-- The four intake lanes, 0 to 3 (Chapter 1). -/
inductive LaneId where
  | l0 | l1 | l2 | l3
  deriving DecidableEq, Repr

/-- The three side lines: 0 lens, 1 operator panel, 2 prompter (section 9.4). -/
inductive SideId where
  | s0 | s1 | s2
  deriving DecidableEq, Repr

/-- The two stitch groups (Chapter 3). -/
inductive GroupId where
  | a | b
  deriving DecidableEq, Repr

/-- The two plan banks (R56). -/
inductive BankId where
  | b0 | b1
  deriving DecidableEq, Repr

/-- The five rate classes, 1 the best (Table 8-1). -/
inductive RateClass where
  | c1 | c2 | c3 | c4 | c5
  deriving DecidableEq, Repr

/-- One value for each intake lane. -/
structure PerLane (α : Type) where
  l0 : α
  l1 : α
  l2 : α
  l3 : α
  deriving DecidableEq, Repr

def PerLane.get {α : Type} (p : PerLane α) : LaneId → α
  | .l0 => p.l0
  | .l1 => p.l1
  | .l2 => p.l2
  | .l3 => p.l3

def PerLane.set {α : Type} (p : PerLane α) (l : LaneId) (v : α) : PerLane α :=
  match l with
  | .l0 => { p with l0 := v }
  | .l1 => { p with l1 := v }
  | .l2 => { p with l2 := v }
  | .l3 => { p with l3 := v }

def PerLane.all {α : Type} (v : α) : PerLane α := ⟨v, v, v, v⟩

/-- One value for each side line. -/
structure PerSide (α : Type) where
  s0 : α
  s1 : α
  s2 : α
  deriving DecidableEq, Repr

def PerSide.get {α : Type} (p : PerSide α) : SideId → α
  | .s0 => p.s0
  | .s1 => p.s1
  | .s2 => p.s2

def PerSide.set {α : Type} (p : PerSide α) (i : SideId) (v : α) : PerSide α :=
  match i with
  | .s0 => { p with s0 := v }
  | .s1 => { p with s1 := v }
  | .s2 => { p with s2 := v }

def PerSide.all {α : Type} (v : α) : PerSide α := ⟨v, v, v⟩

/-- One value for each stitch group. -/
structure PerGroup (α : Type) where
  a : α
  b : α
  deriving DecidableEq, Repr

def PerGroup.get {α : Type} (p : PerGroup α) : GroupId → α
  | .a => p.a
  | .b => p.b

def PerGroup.set {α : Type} (p : PerGroup α) (g : GroupId) (v : α) : PerGroup α :=
  match g with
  | .a => { p with a := v }
  | .b => { p with b := v }

/-- The result codes of Table 10-4. -/
inductive ResultCode where
  | done | accepted | badCommand | notPermitted | range | state | held | noHold | busy | full | empty | duplicate
  | unknownLane | shortShare | over | mismatch
  deriving DecidableEq, Repr

/-- The event kinds of Table 10-6. -/
inductive EventKind where
  | resetDone | laneFault | laneRecover | groupLag | groupRejoin | holdExpired | holdDropped | planActive
  | switchCancelled | carryChanged | overcommit | linkUp | linkDown | classChanged | marginLow | baseOutOfStep
  | baseInStep | relayArrived | relayOverrun | relayDiscarded | counterHalf | referenceLost | testWrap
  deriving DecidableEq, Repr

/-- The ten counters of a lane group, in the order of Table 1-5. -/
inductive LaneCounter where
  | damagedTiles | fillTiles | lineDrops | lineGaps | excessTiles | preStartBursts | uncarriedLines | shedLines
  | thinnedLines | cutLines
  deriving DecidableEq, Repr

/-- The six counters of the link group (Table 10-7). -/
inductive LinkCounter where
  | frameCheckFailures | framesMissing | cellCheckFailures | baseCommandsLost | noticesLost | returnTilesLost
  deriving DecidableEq, Repr

/-- The five counters of a side group (Table 10-7). -/
inductive SideCounter where
  | parityMarks | framingMarks | inOverruns | outOverruns | marksNotCarried
  deriving DecidableEq, Repr

/-- One counter of one group (Table 10-7). -/
inductive CounterId where
  | lane (l : LaneId) (c : LaneCounter)
  | link (c : LinkCounter)
  | relayOverruns
  | side (i : SideId) (c : SideCounter)
  deriving DecidableEq, Repr

/-- The nine counter groups, named by their group codes 0 to 8 (Table 10-7). -/
inductive CounterGroup where
  | lane (l : LaneId)
  | link
  | relay
  | side (i : SideId)
  deriving DecidableEq, Repr

/-- The rates of a side line (R156). -/
inductive SideRate where
  | r9600 | r19200 | r38400 | r57600 | r115200
  deriving DecidableEq, Repr

/-- The parity settings of a side line (R156). -/
inductive Parity where
  | none | even | odd
  deriving DecidableEq, Repr

/-- The mark of a side-line byte record (R157). -/
inductive ByteMark where
  | clean | parity | framing
  deriving DecidableEq, Repr

/-- A byte record of the side lines: 8 data bits and a mark (R157). -/
structure ByteRecord where
  data : Byte
  mark : ByteMark
  deriving DecidableEq, Repr

/-- A command of Table 10-3 with the argument fields of Table 12-9, each as wide as the frame carries it. -/
inductive Cmd where
  | identify
  | partReset
  | laneSet (lane configured : Byte) (w h : Word16) (m : Byte) (allotment : Word16) (group : Byte)
  | laneStart (lane : Byte)
  | laneStop (lane : Byte)
  | laneGet (lane : Byte)
  | groupSet (group skew : Byte)
  | planOpen
  | planPut (index lane : Byte) (q : Word16) (priority thinning drain : Byte)
  | planInsert (index lane : Byte) (q : Word16) (priority thinning drain : Byte)
  | planRemove (index : Byte)
  | planRead (bank start : Byte)
  | planCommit
  | planAbandon
  | carryRead (start : Byte)
  | linkStatus
  | linkEnable (on : Byte)
  | linkCriteria (set : Byte)
  | linkRetrain
  | classRequest (direction : Byte)
  | linkRestart
  | relaySend (message : List Byte)
  | relayRead
  | relayAck
  | eventRead
  | eventMask (mask : EventBits)
  | countersRead (group : Byte)
  | countersClear (group : Byte)
  | sidelineSet (line rate parity : Byte)
  | sidelineStatus (line : Byte)
  | tallyRead
  | testStart (mode countMode cls : Byte)
  | testStop
  | testRead (clear : Byte)
  deriving DecidableEq, Repr

end Sys2Proof
end

