-- ==== Sys2Proof/Syntax.lean ====
section
/-! DEFINITION. The commands of the block: one constructor for each row of spec/opcode_table.json, in the table's order.
A row of Table 10-3 carries its origin, its tag and its argument fields as Table 12-9 gives them; a row that is an event
on a pin, a link or a port carries what the outside world gives with it. -/

namespace Sys2Proof

inductive Instr where
  /-- The reset input falls (R182). -/
  | pinReset
  /-- The reset input rises (R182). -/
  | resetRelease
  /-- A reference tick, one frame event (R80). -/
  | referenceTick
  /-- A burst of 392 bytes on a board link, with the level that the board-ready input shows (R2, Table 12-1). -/
  | tileBurst (lane : LaneId) (boardReady : Bool) (bytes : List Byte)
  /-- A fall of board-ready (R8). -/
  | boardReadyFall (lane : LaneId)
  /-- The eighth reference tick without a burst (R8). -/
  | laneSilenceExpiry (lane : LaneId)
  /-- The hand-over of the frame that carries plan countdown 1 (R116). -/
  | switchCountdownEnd
  /-- The hand-over of the frame that carries class countdown 1 (R144). -/
  | classCountdownEnd
  /-- The hand-over of the sixteenth training switch frame (R133). -/
  | trainSwitchEnd
  /-- The frame event that brings the echo watch to 64 (R124). -/
  | echoWatchExpiry
  /-- A verdict that meets an enabled criterion (R136). -/
  | lossCriterionMet
  /-- 1 ms without a reference tick (R161). -/
  | referenceLost
  | holdTimerExpiry
  | retryTimerExpiry
  | measureTimerExpiry
  | offerTimerExpiry
  | answerTimerExpiry
  | marginTimerExpiry
  | stepUpTimerExpiry
  /-- The reference tick that brings the tally hold count to 0 (R159). -/
  | tallyHoldExpiry
  | carrierRise
  | carrierFall
  | marginWarningRise
  | marginWarningFall
  /-- The modem's result, a class from 1 to 5 (R131). -/
  | measurementResult (k : RateClass)
  /-- The bytes of one upstream frame as the modem delivers them (R149). -/
  | upstreamFrame (bytes : List Byte)
  /-- The rise of select that ends a COMMAND transaction: the whole bytes after the kind byte, and whether select rose
  in the middle of a further byte (R163, R164). -/
  | headCommandFrame (bytes : List Byte) (cutShort : Bool)
  /-- The rise of select that ends a FETCH transaction: how many whole bytes were clocked after the status byte (R165). -/
  | fetch (clocked : Nat)
  /-- The rise of select that ends a transaction with an unknown kind byte, or with none (R163). -/
  | invalidTransaction (kind : Option Byte) (clocked : Nat)
  /-- A byte from a head side-line device: data, received parity bit, received stop bit (R157). -/
  | sidelineByteReceived (line : SideId) (data : Byte) (parityBit stopBit : Bool)
  | sidelineByteSent (line : SideId)
  | returnTileTake
  | identify (o : Origin) (tag : Byte)
  | partReset (o : Origin) (tag : Byte)
  | laneSet (o : Origin) (tag lane configured : Byte) (w h : Word16) (m : Byte) (allotment : Word16) (group : Byte)
  | laneStart (o : Origin) (tag lane : Byte)
  | laneStop (o : Origin) (tag lane : Byte)
  | laneGet (o : Origin) (tag lane : Byte)
  | groupSet (o : Origin) (tag group skew : Byte)
  | planOpen (o : Origin) (tag : Byte)
  | planPut (o : Origin) (tag index lane : Byte) (q : Word16) (priority thinning drain : Byte)
  | planInsert (o : Origin) (tag index lane : Byte) (q : Word16) (priority thinning drain : Byte)
  | planRemove (o : Origin) (tag index : Byte)
  | planRead (o : Origin) (tag bank start : Byte)
  | planCommit (o : Origin) (tag : Byte)
  | planAbandon (o : Origin) (tag : Byte)
  | carryRead (o : Origin) (tag start : Byte)
  | linkStatus (o : Origin) (tag : Byte)
  | linkEnable (o : Origin) (tag on : Byte)
  | linkCriteria (o : Origin) (tag set : Byte)
  | linkRetrain (o : Origin) (tag : Byte)
  | classRequest (o : Origin) (tag direction : Byte)
  | linkRestart (o : Origin) (tag : Byte)
  | relaySend (o : Origin) (tag : Byte) (message : List Byte)
  | relayRead (o : Origin) (tag : Byte)
  | relayAck (o : Origin) (tag : Byte)
  | eventRead (o : Origin) (tag : Byte)
  | eventMask (o : Origin) (tag : Byte) (mask : EventBits)
  | countersRead (o : Origin) (tag group : Byte)
  | countersClear (o : Origin) (tag group : Byte)
  | sidelineSet (o : Origin) (tag line rate parity : Byte)
  | sidelineStatus (o : Origin) (tag line : Byte)
  | tallyRead (o : Origin) (tag : Byte)
  | testStart (o : Origin) (tag mode countMode cls : Byte)
  | testStop (o : Origin) (tag : Byte)
  | testRead (o : Origin) (tag clear : Byte)
  /-- A fall of select (R163). -/
  | selectFall
  deriving DecidableEq, Repr

end Sys2Proof
end

