-- ==== Sys2Proof/WellFormed.lean ====
section
/-! DEFINITION. Which commands the interfaces of the part can deliver: the checks that the operand types do not already
make. -/

namespace Sys2Proof

/-- The bytes of a tile burst (Table 12-1). -/
def burstBytes : Nat := 392

/-- The kind byte of a COMMAND transaction (section 12.6). -/
def kindCommand : Byte := 161

/-- The kind byte of a FETCH transaction (section 12.6). -/
def kindFetch : Byte := 178

/-- A burst is 392 bytes; an invalid transaction names neither kind; a RELAY_SEND carries 1 to 44 bytes, the lengths
that Table 12-9 allows. Every other row is delivered with any operands. -/
def Instr.wellFormed : Instr → Bool
  | .tileBurst _ _ bytes => bytes.length == burstBytes
  | .invalidTransaction (some k) _ => k != kindCommand && k != kindFetch
  | .relaySend _ _ message => 1 ≤ message.length && message.length ≤ 44
  | _ => true

end Sys2Proof
end

