-- ==== Sys2Proof/Decode.lean ====
section
/-! DEFINITION. The decoder of the command set (Table 12-9): an opcode and its argument bytes to a command, and the
encoder beside it. The rows of spec/opcode_table.json give no bits, so decodeTableWord reads none of them. -/

namespace Sys2Proof

/-- Two bytes, most significant first (Chapter 12). -/
def joinBytes (hi lo : Byte) : Word16 := hi ++ lo

def highByte (w : Word16) : Byte := w.extractLsb' 8 8

def lowByte (w : Word16) : Byte := w.extractLsb' 0 8

/-- The 24-bit field of EVENT_MASK: byte 0 holds bits 23 to 16 (Table 12-9). -/
def joinMask (b0 b1 b2 : Byte) : EventBits := b0 ++ b1 ++ b2

def args0 (c : Cmd) : List Byte → Option Cmd
  | [] => some c
  | _ => none

def args1 (f : Byte → Cmd) : List Byte → Option Cmd
  | [a] => some (f a)
  | _ => none

def args2 (f : Byte → Byte → Cmd) : List Byte → Option Cmd
  | [a, b] => some (f a b)
  | _ => none

def args3 (f : Byte → Byte → Byte → Cmd) : List Byte → Option Cmd
  | [a, b, c] => some (f a b c)
  | _ => none

/-- Index, lane, q in two bytes, priority, thinning, drain. -/
def argsEntry (f : Byte → Byte → Word16 → Byte → Byte → Byte → Cmd) : List Byte → Option Cmd
  | [i, l, q1, q0, p, t, d] => some (f i l (joinBytes q1 q0) p t d)
  | _ => none

def argsDescriptor : List Byte → Option Cmd
  | [l, c, w1, w0, h1, h0, m, a1, a0, g] => some (.laneSet l c (joinBytes w1 w0) (joinBytes h1 h0) m (joinBytes a1 a0) g)
  | _ => none

/-- A message of 1 to 44 bytes. -/
def argsMessage (bytes : List Byte) : Option Cmd :=
  if 1 ≤ bytes.length ∧ bytes.length ≤ 44 then some (.relaySend bytes) else none

/-- The command that an opcode and its argument bytes name (Table 12-9); none is the first general check of R168, an
unknown opcode or an argument length that the command does not accept. -/
def Cmd.decode (opcode : Byte) (args : List Byte) : Option Cmd :=
  match opcode.toNat with
  | 1 => args0 .identify args
  | 2 => args0 .partReset args
  | 3 => argsDescriptor args
  | 4 => args1 .laneStart args
  | 5 => args1 .laneStop args
  | 6 => args1 .laneGet args
  | 7 => args2 .groupSet args
  | 8 => args0 .planOpen args
  | 9 => argsEntry .planPut args
  | 10 => argsEntry .planInsert args
  | 11 => args1 .planRemove args
  | 12 => args2 .planRead args
  | 13 => args0 .planCommit args
  | 14 => args0 .planAbandon args
  | 15 => args1 .carryRead args
  | 16 => args0 .linkStatus args
  | 17 => args1 .linkEnable args
  | 18 => args1 .linkCriteria args
  | 19 => args0 .linkRetrain args
  | 20 => args1 .classRequest args
  | 21 => args0 .linkRestart args
  | 22 => argsMessage args
  | 23 => args0 .relayRead args
  | 24 => args0 .relayAck args
  | 25 => args0 .eventRead args
  | 26 => args3 (fun a b c => .eventMask (joinMask a b c)) args
  | 27 => args1 .countersRead args
  | 28 => args1 .countersClear args
  | 29 => args3 .sidelineSet args
  | 30 => args1 .sidelineStatus args
  | 31 => args0 .tallyRead args
  | 32 => args3 .testStart args
  | 33 => args0 .testStop args
  | 34 => args1 .testRead args
  | _ => none

/-- The opcode of a command (Table 12-9). -/
def Cmd.opcode : Cmd → Byte
  | .identify => 1
  | .partReset => 2
  | .laneSet .. => 3
  | .laneStart _ => 4
  | .laneStop _ => 5
  | .laneGet _ => 6
  | .groupSet _ _ => 7
  | .planOpen => 8
  | .planPut .. => 9
  | .planInsert .. => 10
  | .planRemove _ => 11
  | .planRead _ _ => 12
  | .planCommit => 13
  | .planAbandon => 14
  | .carryRead _ => 15
  | .linkStatus => 16
  | .linkEnable _ => 17
  | .linkCriteria _ => 18
  | .linkRetrain => 19
  | .classRequest _ => 20
  | .linkRestart => 21
  | .relaySend _ => 22
  | .relayRead => 23
  | .relayAck => 24
  | .eventRead => 25
  | .eventMask _ => 26
  | .countersRead _ => 27
  | .countersClear _ => 28
  | .sidelineSet _ _ _ => 29
  | .sidelineStatus _ => 30
  | .tallyRead => 31
  | .testStart _ _ _ => 32
  | .testStop => 33
  | .testRead _ => 34

/-- The argument bytes of a command, in the order of Table 12-9. -/
def Cmd.args : Cmd → List Byte
  | .laneSet l c w h m a g =>
    [l, c, highByte w, lowByte w, highByte h, lowByte h, m, highByte a, lowByte a, g]
  | .laneStart l => [l]
  | .laneStop l => [l]
  | .laneGet l => [l]
  | .groupSet g k => [g, k]
  | .planPut i l q p t d => [i, l, highByte q, lowByte q, p, t, d]
  | .planInsert i l q p t d => [i, l, highByte q, lowByte q, p, t, d]
  | .planRemove i => [i]
  | .planRead b i => [b, i]
  | .carryRead i => [i]
  | .linkEnable on => [on]
  | .linkCriteria c => [c]
  | .classRequest d => [d]
  | .relaySend m => m
  | .eventMask m => [m.extractLsb' 16 8, m.extractLsb' 8 8, m.extractLsb' 0 8]
  | .countersRead g => [g]
  | .countersClear g => [g]
  | .sidelineSet i r p => [i, r, p]
  | .sidelineStatus i => [i]
  | .testStart m n k => [m, n, k]
  | .testRead c => [c]
  | .identify | .partReset | .planOpen | .planCommit | .planAbandon | .linkStatus | .linkRetrain | .linkRestart
  | .relayRead | .relayAck | .eventRead | .tallyRead | .testStop => []

/-- The arguments that Table 12-9 lets a command carry: only RELAY_SEND has a length of its own to keep. -/
def Cmd.wellFormed : Cmd → Bool
  | .relaySend m => 1 ≤ m.length && m.length ≤ 44
  | _ => true

/-- No row of spec/opcode_table.json gives bits ("fields" is empty and none is "fixed"), so no word spells a row. -/
def decodeTableWord (_nbits _w : Nat) : Option Instr := none

end Sys2Proof
end

