-- ==== Sys2Proof/Machine/State.lean ====
section
/-! DEFINITION. The state of the BV3260 as plain data, block by block as Table 0-1 lists the blocks, and its value after
reset. What each field is and where the spec gives it stands in INVENTORY.md, "State". -/

namespace Sys2Proof.Machine

/-! ### Intake lanes (Chapter 1) and tile pool (Chapter 2) -/

/-- The four lane states (section 1.3). -/
inductive LaneState where
  | stopped | armed | running | faulted
  deriving DecidableEq, Repr

/-- A position: board frame number, modulo 16, and line number (Table 1-1). -/
structure Position where
  frame : BitVec 4
  line : Nat
  deriving DecidableEq, Repr

/-- The lane descriptor (Table 1-2). `group` is none, A or B. -/
structure Descriptor where
  configured : Bool
  w : Nat
  h : Nat
  m : Nat
  allotment : Nat
  group : Option GroupId
  deriving DecidableEq, Repr

/-- What one tile buffer holds (section 2.1). -/
structure Tile where
  index : Nat
  samples : List Sample
  damaged : Bool
  filled : Bool
  deriving DecidableEq, Repr

/-- The states of a line record (section 1.4). -/
inductive LineState where
  | assembling | complete | released
  deriving DecidableEq, Repr

/-- The group marks of a line; a line carries at most one of them (R55). -/
inductive GroupMark where
  | outOfStep | partialGroup
  deriving DecidableEq, Repr

/-- A line record of a line queue (section 1.4). `carried` is the carried-so-far count. -/
structure LineRecord where
  pos : Position
  tiles : List Tile
  truncated : Bool
  mark : Option GroupMark
  state : LineState
  carried : Nat
  deriving DecidableEq, Repr

/-- The assembly state (section 1.4): no line is open, or one is, with its next expected tile index. -/
inductive Assembly where
  | betweenLines
  | assembling (pos : Position) (next : Nat)
  deriving DecidableEq, Repr

/-- An intake lane. `queue` is the line queue, oldest line first. -/
structure Lane where
  desc : Descriptor
  state : LaneState
  silence : Nat
  recovery : Bool
  assembly : Assembly
  lastLine : Option Position
  dropMark : Option Position
  queue : List LineRecord
  deriving DecidableEq, Repr

/-! ### Release unit (Chapter 3) -/

inductive Standing where
  | lagging | inStep
  deriving DecidableEq, Repr

/-- A stitch group: cursor (none is unset) and skew limit. -/
structure Group where
  cursor : Option Position
  skew : Nat
  deriving DecidableEq, Repr

/-- The release unit. A lane that is a member of no group has no standing (R38). -/
structure ReleaseUnit where
  groups : PerGroup Group
  standing : PerLane (Option Standing)
  deriving DecidableEq, Repr

/-! ### Plan store (Chapters 4 and 7) -/

inductive BankRole where
  | free | pending | active
  deriving DecidableEq, Repr

/-- A plan entry (Table 4-2). -/
structure Entry where
  lane : LaneId
  share : Nat
  priority : Fin 4
  thinning : Bool
  drain : Bool
  deriving DecidableEq, Repr

/-- A plan bank (Table 4-1); the entry count is the length of the list. -/
structure Bank where
  role : BankRole
  epoch : Byte
  entries : List Entry
  deriving DecidableEq, Repr

/-- The edit hold (Table 4-3): the hold timer, in milliseconds, runs in HELD alone. -/
inductive Hold where
  | free
  | held (holder : Origin) (ms : Nat)
  | counting (holder : Origin)
  deriving DecidableEq, Repr

/-- What set the switch-due flag (R116, R126): the frame that carried countdown 1, or a commit taken while the link was
not UP. -/
inductive Due where
  | counted | uncounted
  deriving DecidableEq, Repr

/-- The echo watch (section 7.4). -/
inductive EchoWatch where
  | idle
  | running (frames repeats : Nat) (last : Option Byte)
  deriving DecidableEq, Repr

/-- The plan store. `due` is the switch-due flag, none when clear. `lossTaken` is the model's own field: a loss of the link
has been taken in this frame period, so that a base edit that falls together with it still comes to be refused (R63, R79;
log 10). -/
structure PlanStore where
  bank0 : Bank
  bank1 : Bank
  hold : Hold
  countdown : Nat
  due : Option Due
  echo : EchoWatch
  baseStanding : Standing
  lossTaken : Bool
  deriving DecidableEq, Repr

/-! ### Carriage builder (Chapters 5 and 6) -/

inductive CarryState where
  | carried | thinned | shed
  deriving DecidableEq, Repr

/-- An entry runtime (section 5.2): credit in sixteenths of a slot, and carry state. -/
structure Runtime where
  credit : Nat
  carry : CarryState
  deriving DecidableEq, Repr

/-- The carriage builder. `runtimes` follows the entries of the active bank; `firstInUp` says that no frame event has
been taken in UP since the link entered UP (R83, step 3). -/
structure Builder where
  runtimes : List Runtime
  classApplied : RateClass
  overcommit : Bool
  assessedTotal : Nat
  frameCount : Word16
  firstInUp : Bool
  deriving DecidableEq, Repr

/-! ### Control-slot queues (Chapters 7, 9 and 10) -/

inductive AnnounceKind where
  | switch | inForce
  deriving DecidableEq, Repr

/-- The part of an announcement that a cell carries (Table 7-1); `entries k` is the k-th entry cell. -/
inductive AnnouncePart where
  | head
  | entries (k : Nat)
  | lanes
  deriving DecidableEq, Repr

/-- A queued announcement cell; its payload is built when it is chosen for a frame (R119). -/
structure AnnounceCell where
  kind : AnnounceKind
  tag : Nat
  part : AnnouncePart
  deriving DecidableEq, Repr

/-- A response: opcode echo, tag, result code and result data (Table 10-1). -/
structure Response where
  opcode : Byte
  tag : Byte
  result : ResultCode
  data : List Byte
  deriving DecidableEq, Repr

/-- A relay message with its origin tag (section 9.3). -/
structure RelayMessage where
  tag : Byte
  bytes : List Byte
  deriving DecidableEq, Repr

/-- An event record (Table 10-5). -/
structure EventRecord where
  kind : EventKind
  stamp : Word16
  subject : Byte
  detail : Word16
  deriving DecidableEq, Repr

/-- The four queues that feed the control slot (Table 7-3), oldest first. -/
structure ControlQueues where
  announce : List AnnounceCell
  responses : List Response
  relayOut : List RelayMessage
  notices : List EventRecord
  deriving DecidableEq, Repr

/-! ### Link controller (Chapter 8) -/

inductive LinkState where
  | disabled | down | measure | offer | trainSwitch | up | test
  deriving DecidableEq, Repr

/-- The last cause (Table 8-4). -/
inductive Cause where
  | none | carrier | sync | beacon | burst | classTimeout | restart | trainingFailed | test
  deriving DecidableEq, Repr

/-- The four loss criteria that can be disabled (R139). -/
structure Criteria where
  sync : Bool
  beacon : Bool
  burst : Bool
  classTimeout : Bool
  deriving DecidableEq, Repr

/-- The class proposal (section 8.4). `counting 0 k` is a change that is due (R144); `byBase` says who proposed it. -/
inductive Proposal where
  | idle
  | proposing (k : RateClass)
  | counting (n : Nat) (k : RateClass) (byBase : Bool)
  deriving DecidableEq, Repr

inductive Verdict where
  | valid | failed | missing
  deriving DecidableEq, Repr

/-- The supervision counts (R136); `window` is newest first. -/
structure Supervision where
  syncRun : Nat
  beaconStall : Nat
  lastBeacon : Option Byte
  window : List Verdict
  deriving DecidableEq, Repr

inductive RetryTimer where
  | stopped
  | running (ms : Nat)
  | expired
  deriving DecidableEq, Repr

/-- The timers of the link controller, in milliseconds remaining; none is stopped. -/
structure Timers where
  retry : RetryTimer
  measure : Option Nat
  offer : Option Nat
  answer : Option Nat
  margin : Option Nat
  stepUp : Option Nat
  deriving DecidableEq, Repr

/-- The link controller (Table 8-2). `trainFrames` counts the training switch frames handed over (R133), and
`measureRequests` the measurements asked of the modem since reset (R131). -/
structure LinkCtl where
  enable : Bool
  state : LinkState
  classInForce : RateClass
  ceiling : Option RateClass
  selected : Option RateClass
  trainFrames : Nat
  attempts : Nat
  lastCause : Cause
  dropCount : Nat
  criteria : Criteria
  proposal : Proposal
  pendingRefusal : Bool
  lastClassEcho : Byte
  supervision : Supervision
  timers : Timers
  measureRequests : Nat
  deriving DecidableEq, Repr

/-! ### Upstream receiver (Chapter 9) -/

/-- What the receiver has taken in the present frame period (R149): nothing, a failed frame, or a valid one with its
beacon. -/
inductive Period where
  | empty
  | failed
  | valid (beacon : Byte)
  deriving DecidableEq, Repr

/-- The upstream receiver. `expected` is the class named in the header of the downstream frame most recently handed to
the line interface; `upValid` says that a valid frame was taken in UP in the present period (R159). -/
structure UpReceiver where
  lastBaseFrameCount : Word16
  expected : RateClass
  period : Period
  upValid : Bool
  deriving DecidableEq, Repr

/-! ### Head port and event unit (Chapter 10) -/

/-- The head port. `transaction` holds the status byte snapshot while a transaction is open; `dataOut` is what the part
has shifted out in the present or the last transaction. -/
structure HeadPort where
  rxFrame : List Byte
  rxDiscarded : Bool
  transaction : Option Byte
  holding : Option Response
  ignored : Bool
  frameError : Bool
  dataOut : List Byte
  deriving DecidableEq, Repr

/-- The event unit: head event queue, lost count and the two masks (section 10.3). -/
structure EventUnit where
  queue : List EventRecord
  lost : Nat
  headMask : EventBits
  baseMask : EventBits
  deriving DecidableEq, Repr

/-- A counter of the counter groups: its count and whether its half flag is armed (R172). -/
structure Counter where
  count : Nat
  armed : Bool
  deriving DecidableEq, Repr

structure LaneCounters where
  damagedTiles : Counter
  fillTiles : Counter
  lineDrops : Counter
  lineGaps : Counter
  excessTiles : Counter
  preStartBursts : Counter
  uncarriedLines : Counter
  shedLines : Counter
  thinnedLines : Counter
  cutLines : Counter
  deriving DecidableEq, Repr

structure LinkCounters where
  frameCheckFailures : Counter
  framesMissing : Counter
  cellCheckFailures : Counter
  baseCommandsLost : Counter
  noticesLost : Counter
  returnTilesLost : Counter
  deriving DecidableEq, Repr

structure SideCounters where
  parityMarks : Counter
  framingMarks : Counter
  inOverruns : Counter
  outOverruns : Counter
  marksNotCarried : Counter
  deriving DecidableEq, Repr

/-- The counter groups of Table 10-7. -/
structure Counters where
  lane : PerLane LaneCounters
  link : LinkCounters
  relayOverruns : Counter
  side : PerSide SideCounters
  deriving DecidableEq, Repr

/-! ### Relay mailbox, side lines, tally, return port (Chapter 9) -/

inductive Mailbox where
  | empty
  | unacked (message : RelayMessage)
  | acked (message : RelayMessage)
  deriving DecidableEq, Repr

/-- A byte being shifted out on a head line, with the setting it was started with (R156, R158). -/
structure SentByte where
  data : Byte
  parityBit : Option Bool
  rate : SideRate
  deriving DecidableEq, Repr

structure SideLine where
  rate : SideRate
  parity : Parity
  inQueue : List ByteRecord
  outQueue : List ByteRecord
  shifting : Option SentByte
  deriving DecidableEq, Repr

structure Tally where
  program : Bool
  preview : Bool
  call : Bool
  hold : Nat
  deriving DecidableEq, Repr

/-- A return tile with the fields of its return label (R160). -/
structure ReturnTile where
  frame : Byte
  line : Word16
  index : Byte
  lastOfLine : Bool
  samples : List Sample
  deriving DecidableEq, Repr

/-- The return port: the return buffer, oldest first, and the tile that the viewfinder board took last. -/
structure ReturnPort where
  buffer : List ReturnTile
  taken : Option ReturnTile
  deriving DecidableEq, Repr

/-! ### Test unit (Chapter 11) -/

inductive TestMode where
  | off | patternOut | patternLoop
  deriving DecidableEq, Repr

inductive CountMode where
  | stopAtMax | wrap
  deriving DecidableEq, Repr

/-- The test unit (Table 11-1). `idle` says that the modem has been brought to idle for
PATTERN_LOOP and delivers no frame (R175, R177; log 22). -/
structure TestUnit where
  mode : TestMode
  idle : Bool
  countMode : CountMode
  cls : RateClass
  nextSeq : Word16
  checked : Nat
  errored : Nat
  deriving DecidableEq, Repr

/-! ### What goes down the line -/

/-- The class field of a header, downstream or upstream (Tables 5-4 and 12-4). -/
inductive ClassField where
  | none
  | propose (k : RateClass)
  | agree (k : RateClass)
  | refuse
  deriving DecidableEq, Repr

/-- The downstream header (Table 5-4). `training` is OFFER with a ceiling, or none; `carry` has 24 positions. -/
structure Header where
  frameCount : Word16
  cls : RateClass
  activeEpoch : Byte
  planCountdown : Nat
  pendingEpoch : Option Byte
  classCountdown : Nat
  classField : ClassField
  training : Option RateClass
  carry : List (Option CarryState)
  overcommit : Bool
  test : Bool
  deriving DecidableEq, Repr

/-- A control cell (section 12.5). -/
structure Cell where
  kind : Byte
  tag : Byte
  payload : List Byte
  deriving DecidableEq, Repr

/-- The marks of a slot label (Table 5-3). -/
structure Marks where
  damaged : Bool
  filled : Bool
  truncated : Bool
  group : Option GroupMark
  lastOfLine : Bool
  deriving DecidableEq, Repr

/-- The label of a DATA or DRAIN slot (Table 5-3). -/
structure TileLabel where
  entry : Nat
  lane : LaneId
  pos : Position
  index : Nat
  marks : Marks
  deriving DecidableEq, Repr

/-- A data slot of a downstream frame (sections 5.5 and 11.2). A PAD slot carries 256 samples of code zero. -/
inductive DataSlot where
  | data (label : TileLabel) (samples : List Sample)
  | drain (label : TileLabel) (samples : List Sample)
  | pad
  | pattern (seq : Word16) (samples : List Sample)
  deriving DecidableEq, Repr

/-- A downstream frame (R82). -/
structure Frame where
  header : Header
  control : Cell
  aux : PerSide (List ByteRecord)
  slots : List DataSlot
  deriving DecidableEq, Repr

/-! ### Reference watch and pins -/

/-- The reference watch (R161): `armed` since the last tick, `quiet` when one millisecond count of the timebase has passed
since, `fired` once REFERENCE_LOST has been raised. The spec's watch is armed in the first two. -/
inductive RefWatch where
  | armed | quiet | fired
  deriving DecidableEq, Repr

/-- The levels of the input pins as last presented (Table 12-11); `resetLow` and `selectLow` are the two active-low
inputs. -/
structure Pins where
  resetLow : Bool
  carrier : Bool
  marginWarning : Bool
  boardReady : PerLane Bool
  selectLow : Bool
  deriving DecidableEq, Repr

/-- The whole state. `poolFree` is the length of the free list (R23), `refWatch` the reference watch (R161), `lineOut`
the last frame handed to the line interface, and `pending` the model's queue of the commands that are waiting. -/
structure State where
  pins : Pins
  lanes : PerLane Lane
  poolFree : Nat
  release : ReleaseUnit
  plan : PlanStore
  builder : Builder
  control : ControlQueues
  link : LinkCtl
  rx : UpReceiver
  port : HeadPort
  events : EventUnit
  counters : Counters
  mailbox : Mailbox
  sides : PerSide SideLine
  tally : Tally
  ret : ReturnPort
  test : TestUnit
  refWatch : RefWatch
  lineOut : Option Frame
  pending : List Instr
  deriving DecidableEq, Repr

/-- The part stops with no fault: every error that the data book describes is a state, a mark, a counter, an event or a
result code of the part, so the type has no constructor. -/
inductive Fault where
  deriving DecidableEq, Repr

/-- Why a command is refused. -/
inductive Refusal where
  /-- Raised by exec for a row that has no meaning yet. Safe. -/
  | notModelled (mnemonic : String)
  /-- Raised by TILE_BURST for a list of bytes that is not one burst of 392 bytes, which a board link cannot deliver
  (Table 12-1). Safe: the model stops. -/
  | notABurst
  /-- Raised by INVALID_TRANSACTION for a kind byte that names COMMAND or FETCH, which is another row (R163). Safe: the
  model stops. -/
  | notAnInvalidKind
  deriving DecidableEq, Repr

/-! ### Values after reset -/

/-- Table 1-2, last column. -/
def Descriptor.reset : Descriptor :=
  { configured := false, w := 256, h := 16, m := 1, allotment := 16, group := none }

/-- R13. -/
def Lane.reset : Lane :=
  { desc := .reset, state := .stopped, silence := 0, recovery := false, assembly := .betweenLines, lastLine := none,
    dropMark := none, queue := [] }

/-- R52, R54. -/
def ReleaseUnit.reset : ReleaseUnit :=
  { groups := ⟨⟨none, 4⟩, ⟨none, 4⟩⟩, standing := .all none }

/-- An emptied bank (R56). -/
def Bank.emptied : Bank := { role := .free, epoch := 0, entries := [] }

/-- R60, R61, R116, R124. -/
def PlanStore.reset : PlanStore :=
  { bank0 := { role := .active, epoch := 0, entries := [] }, bank1 := .emptied, hold := .free, countdown := 0,
    due := none, echo := .idle, baseStanding := .inStep, lossTaken := false }

/-- R100, R115. -/
def Builder.reset : Builder :=
  { runtimes := [], classApplied := .c5, overcommit := false, assessedTotal := 0, frameCount := 0, firstInUp := false }

/-- R120, R162, R174. -/
def ControlQueues.reset : ControlQueues := { announce := [], responses := [], relayOut := [], notices := [] }

def Supervision.cleared : Supervision := { syncRun := 0, beaconStall := 0, lastBeacon := none, window := [] }

/-- Table 8-2, third column; R148. -/
def LinkCtl.reset : LinkCtl :=
  { enable := true, state := .down, classInForce := .c5, ceiling := none, selected := none, trainFrames := 0,
    attempts := 0, lastCause := .none, dropCount := 0, criteria := ⟨true, true, true, true⟩, proposal := .idle,
    pendingRefusal := false, lastClassEcho := 0, supervision := .cleared,
    timers := { retry := .expired, measure := none, offer := none, answer := none, margin := none, stepUp := none },
    measureRequests := 0 }

/-- R162; DEDUCED (log 9): no frame has been handed over, and the class expected is that of the training states. -/
def UpReceiver.reset : UpReceiver :=
  { lastBaseFrameCount := 0, expected := .c5, period := .empty, upValid := false }

/-- R174. -/
def HeadPort.reset : HeadPort :=
  { rxFrame := [], rxDiscarded := false, transaction := none, holding := none, ignored := false, frameError := false,
    dataOut := [] }

/-- R174: the head mask holds kinds 1 to 23, the base mask holds none. The queue is the one that stands while reset is
held low, before RESET_DONE joins it (R182). -/
def EventUnit.reset : EventUnit := { queue := [], lost := 0, headMask := 0xFFFFFE, baseMask := 0 }

/-- R172. -/
def Counter.reset : Counter := { count := 0, armed := true }

def LaneCounters.reset : LaneCounters :=
  ⟨.reset, .reset, .reset, .reset, .reset, .reset, .reset, .reset, .reset, .reset⟩

def LinkCounters.reset : LinkCounters := ⟨.reset, .reset, .reset, .reset, .reset, .reset⟩

def SideCounters.reset : SideCounters := ⟨.reset, .reset, .reset, .reset, .reset⟩

def Counters.reset : Counters :=
  { lane := .all .reset, link := .reset, relayOverruns := .reset, side := .all .reset }

/-- R156, R162. DESIGN CHOICE (log 8): no byte is being shifted out after a reset, for which the spec gives no value. -/
def SideLine.reset : SideLine :=
  { rate := .r38400, parity := .none, inQueue := [], outQueue := [], shifting := none }

/-- R159. -/
def Tally.reset : Tally := { program := false, preview := false, call := false, hold := 0 }

/-- Table 11-1. -/
def TestUnit.reset : TestUnit :=
  { mode := .off, idle := false, countMode := .stopAtMax, cls := .c5, nextSeq := 0, checked := 0, errored := 0 }

/-- DESIGN CHOICE (log 2): the input levels that the model presents at reset. The spec gives no pin a level. -/
def Pins.reset : Pins :=
  { resetLow := false, carrier := false, marginWarning := false, boardReady := .all false, selectLow := false }

/-- Every block at its reset value, with no command waiting and no record in the head event queue. -/
def State.blank : State :=
  { pins := .reset, lanes := .all .reset, poolFree := 1536, release := .reset, plan := .reset, builder := .reset,
    control := .reset, link := .reset, rx := .reset, port := .reset, events := .reset, counters := .reset,
    mailbox := .empty, sides := .all .reset, tally := .reset, ret := ⟨[], none⟩, test := .reset, refWatch := .armed,
    lineOut := none, pending := [] }

/-- The RESET_DONE record (R174): subject 1 after pin reset and 2 after PART_RESET, detail 0, frame stamp 0. -/
def resetDone (subject : Byte) : EventRecord := { kind := .resetDone, stamp := 0, subject := subject, detail := 0 }

/-- The machine right after reset: reset has risen and RESET_DONE with subject 1 has joined the head event queue (R174,
R182). -/
def State.reset : State :=
  { State.blank with events := { EventUnit.reset with queue := [resetDone 1] } }

end Sys2Proof.Machine
end

