-- ==== Sys2Proof/Machine/Operands.lean ====
section
/-! DEFINITION. Numbers and codes: what the argument bytes of a command name, what the state's names are sent as, and
the fixed figures of the rate classes. -/

namespace Sys2Proof.Machine

/-! ### Fixed families -/

def laneIds : List LaneId := [.l0, .l1, .l2, .l3]

def laneNum : LaneId → Nat
  | .l0 => 0
  | .l1 => 1
  | .l2 => 2
  | .l3 => 3

def laneOf : Nat → Option LaneId
  | 0 => some .l0
  | 1 => some .l1
  | 2 => some .l2
  | 3 => some .l3
  | _ => none

def sideIds : List SideId := [.s0, .s1, .s2]

def sideNum : SideId → Nat
  | .s0 => 0
  | .s1 => 1
  | .s2 => 2

def sideOf : Nat → Option SideId
  | 0 => some .s0
  | 1 => some .s1
  | 2 => some .s2
  | _ => none

/-- Group codes of GROUP_SET and of group events: 1 A, 2 B (Tables 12-9 and 10-6). -/
def groupNum : GroupId → Nat
  | .a => 1
  | .b => 2

def groupOfCode : Nat → Option GroupId
  | 1 => some .a
  | 2 => some .b
  | _ => none

/-- The group field of a descriptor: 0 none, 1 A, 2 B; any other code is none of these (Table 12-9). -/
def groupFieldOf : Nat → Option (Option GroupId)
  | 0 => some none
  | 1 => some (some .a)
  | 2 => some (some .b)
  | _ => none

def groupFieldNum : Option GroupId → Nat
  | none => 0
  | some g => groupNum g

def bankNum : BankId → Nat
  | .b0 => 0
  | .b1 => 1

def bankOf : Nat → Option BankId
  | 0 => some .b0
  | 1 => some .b1
  | _ => none

def otherBank : BankId → BankId
  | .b0 => .b1
  | .b1 => .b0

def otherOrigin : Origin → Origin
  | .head => .base
  | .base => .head

/-- Holder codes: 1 head port, 2 base link (Table 12-14; R62). -/
def originNum : Origin → Nat
  | .head => 1
  | .base => 2

/-- A yes-or-no byte: 0 no, 1 yes, any other code is refused RANGE (R181). -/
def yesNo : Nat → Option Bool
  | 0 => some false
  | 1 => some true
  | _ => none

def boolNum : Bool → Nat
  | false => 0
  | true => 1

/-! ### Rate classes (Table 8-1) -/

def classNum : RateClass → Nat
  | .c1 => 1
  | .c2 => 2
  | .c3 => 3
  | .c4 => 4
  | .c5 => 5

def classOf : Nat → Option RateClass
  | 1 => some .c1
  | 2 => some .c2
  | 3 => some .c3
  | 4 => some .c4
  | 5 => some .c5
  | _ => none

/-- Class none is sent as 0 (Table 12-13, R181). -/
def classOptNum : Option RateClass → Nat
  | none => 0
  | some k => classNum k

/-- A worse class has a larger number ("Conventions"). -/
def worse (k j : RateClass) : Bool := decide (classNum j < classNum k)

/-- The class one step worse, if there is one. -/
def stepDown (k : RateClass) : Option RateClass := classOf (classNum k + 1)

/-- The class one step better, if there is one. -/
def stepUp (k : RateClass) : Option RateClass := classOf (classNum k - 1)

/-- S, the slots of a downstream frame. -/
def slotsDown : RateClass → Nat
  | .c1 => 120
  | .c2 => 96
  | .c3 => 72
  | .c4 => 48
  | .c5 => 24

/-- C, the data slots of a downstream frame: S less 2 (R82). -/
def dataSlots (k : RateClass) : Nat := slotsDown k - 2

/-- C16, the capacity in sixteenths (Table 0-3). -/
def capacity16 (k : RateClass) : Nat := 16 * dataSlots k

/-- U, the slots of an upstream frame. -/
def slotsUp : RateClass → Nat
  | .c1 => 14
  | .c2 => 12
  | .c3 => 10
  | .c4 => 8
  | .c5 => 6

/-! ### Codes of results, events, counters and states -/

/-- Table 12-8. -/
def resultNum : ResultCode → Nat
  | .done => 0
  | .accepted => 1
  | .badCommand => 2
  | .notPermitted => 3
  | .range => 4
  | .state => 5
  | .held => 6
  | .noHold => 7
  | .busy => 8
  | .full => 9
  | .empty => 10
  | .duplicate => 11
  | .unknownLane => 12
  | .shortShare => 13
  | .over => 14
  | .mismatch => 15

/-- Table 12-10. -/
def eventNum : EventKind → Nat
  | .resetDone => 1
  | .laneFault => 2
  | .laneRecover => 3
  | .groupLag => 4
  | .groupRejoin => 5
  | .holdExpired => 6
  | .holdDropped => 7
  | .planActive => 8
  | .switchCancelled => 9
  | .carryChanged => 10
  | .overcommit => 11
  | .linkUp => 12
  | .linkDown => 13
  | .classChanged => 14
  | .marginLow => 15
  | .baseOutOfStep => 16
  | .baseInStep => 17
  | .relayArrived => 18
  | .relayOverrun => 19
  | .relayDiscarded => 20
  | .counterHalf => 21
  | .referenceLost => 22
  | .testWrap => 23

/-- Table 10-7, position of a counter in its group. -/
def laneCounterPos : LaneCounter → Nat
  | .damagedTiles => 0
  | .fillTiles => 1
  | .lineDrops => 2
  | .lineGaps => 3
  | .excessTiles => 4
  | .preStartBursts => 5
  | .uncarriedLines => 6
  | .shedLines => 7
  | .thinnedLines => 8
  | .cutLines => 9

def linkCounterPos : LinkCounter → Nat
  | .frameCheckFailures => 0
  | .framesMissing => 1
  | .cellCheckFailures => 2
  | .baseCommandsLost => 3
  | .noticesLost => 4
  | .returnTilesLost => 5

def sideCounterPos : SideCounter → Nat
  | .parityMarks => 0
  | .framingMarks => 1
  | .inOverruns => 2
  | .outOverruns => 3
  | .marksNotCarried => 4

/-- The identifier of a counter: 16 times its group code plus its position (section 10.4). -/
def counterNum : CounterId → Nat
  | .lane l c => 16 * laneNum l + laneCounterPos c
  | .link c => 16 * 4 + linkCounterPos c
  | .relayOverruns => 16 * 5
  | .side i c => 16 * (6 + sideNum i) + sideCounterPos c

/-- Group codes 0 to 8 (Table 10-7). -/
def counterGroupOf : Nat → Option CounterGroup
  | 0 => some (.lane .l0)
  | 1 => some (.lane .l1)
  | 2 => some (.lane .l2)
  | 3 => some (.lane .l3)
  | 4 => some .link
  | 5 => some .relay
  | 6 => some (.side .s0)
  | 7 => some (.side .s1)
  | 8 => some (.side .s2)
  | _ => none

/-- Table 12-14. -/
def laneStateNum : LaneState → Nat
  | .stopped => 0
  | .armed => 1
  | .running => 2
  | .faulted => 3

def standingNum : Standing → Nat
  | .lagging => 0
  | .inStep => 1

def roleNum : BankRole → Nat
  | .free => 0
  | .pending => 1
  | .active => 2

def holdNum : Hold → Nat
  | .free => 0
  | .held _ _ => 1
  | .counting _ => 2

def holderOf : Hold → Option Origin
  | .free => none
  | .held o _ => some o
  | .counting o => some o

def holderNum (h : Hold) : Nat :=
  match holderOf h with
  | none => 0
  | some o => originNum o

/-- The remaining time of the hold timer while HELD, 0 otherwise (R72). -/
def holdRemaining : Hold → Nat
  | .held _ ms => ms
  | _ => 0

def carryNum : CarryState → Nat
  | .carried => 1
  | .thinned => 2
  | .shed => 3

def linkStateNum : LinkState → Nat
  | .disabled => 0
  | .down => 1
  | .measure => 2
  | .offer => 3
  | .trainSwitch => 4
  | .up => 5
  | .test => 6

/-- Table 8-4. -/
def causeNum : Cause → Nat
  | .none => 0
  | .carrier => 1
  | .sync => 2
  | .beacon => 3
  | .burst => 4
  | .classTimeout => 5
  | .restart => 6
  | .trainingFailed => 7
  | .test => 8

/-- The argument of LINK_CRITERIA: bit 0 SYNC, bit 1 BEACON, bit 2 BURST, bit 3 CLASS_TIMEOUT (Table 12-9). -/
def criteriaOf (b : Byte) : Criteria :=
  { sync := b.getLsbD 0, beacon := b.getLsbD 1, burst := b.getLsbD 2, classTimeout := b.getLsbD 3 }

def criteriaNum (c : Criteria) : Nat :=
  boolNum c.sync + 2 * boolNum c.beacon + 4 * boolNum c.burst + 8 * boolNum c.classTimeout

def rateOf : Nat → Option SideRate
  | 0 => some .r9600
  | 1 => some .r19200
  | 2 => some .r38400
  | 3 => some .r57600
  | 4 => some .r115200
  | _ => none

def rateNum : SideRate → Nat
  | .r9600 => 0
  | .r19200 => 1
  | .r38400 => 2
  | .r57600 => 3
  | .r115200 => 4

def parityOf : Nat → Option Parity
  | 0 => some .none
  | 1 => some .even
  | 2 => some .odd
  | _ => none

def parityNum : Parity → Nat
  | .none => 0
  | .even => 1
  | .odd => 2

/-- Mark codes of an auxiliary slot: 0 clean, 1 PARITY, 2 FRAMING; any other code is taken as PARITY (R181). -/
def markOf : Nat → ByteMark
  | 0 => .clean
  | 2 => .framing
  | _ => .parity

def markNum : ByteMark → Nat
  | .clean => 0
  | .parity => 1
  | .framing => 2

def testModeOf : Nat → Option TestMode
  | 1 => some .patternOut
  | 2 => some .patternLoop
  | _ => none

def testModeNum : TestMode → Nat
  | .off => 0
  | .patternOut => 1
  | .patternLoop => 2

def countModeOf : Nat → Option CountMode
  | 1 => some .stopAtMax
  | 2 => some .wrap
  | _ => none

def countModeNum : CountMode → Nat
  | .stopAtMax => 1
  | .wrap => 2

def announceNum : AnnounceKind → Nat
  | .switch => 1
  | .inForce => 2

/-! ### Numbers as bytes -/

def byteOf (n : Nat) : Byte := BitVec.ofNat 8 n

def wordOf (n : Nat) : Word16 := BitVec.ofNat 16 n

/-- A two-byte field, most significant byte first. -/
def wordBytes (w : Word16) : List Byte := [highByte w, lowByte w]

/-- A number in a two-byte field. -/
def bytes2 (n : Nat) : List Byte := wordBytes (wordOf n)

/-- The 24-bit field of EVENT_MASK, byte 0 holding bits 23 to 16 (Table 12-9). -/
def maskBytes (m : EventBits) : List Byte := [m.extractLsb' 16 8, m.extractLsb' 8 8, m.extractLsb' 0 8]

end Sys2Proof.Machine
end

