-- ==== Sys2Proof/Machine/Formats.lean ====
section
/-! DEFINITION. The layouts and checks of Chapter 12: the three checks of R180, the tile burst, the downstream frame, the
upstream frame, the control cell, the auxiliary slot and the head port frames. -/

namespace Sys2Proof.Machine

/-! ### Checks (R180) -/

/-- The bits of a byte, most significant first. -/
def bitsOf (b : Byte) : List Bool :=
  [b.getLsbD 7, b.getLsbD 6, b.getLsbD 5, b.getLsbD 4, b.getLsbD 3, b.getLsbD 2, b.getLsbD 1, b.getLsbD 0]

/-- One bit of the generator x^16 + x^12 + x^5 + 1. -/
def crc16Bit (r : Word16) (bit : Bool) : Word16 :=
  if r.getLsbD 15 != bit then (r <<< 1) ^^^ 0x1021 else r <<< 1

/-- The 16-bit check: preset to all ones, most significant bit first, no final inversion. -/
def crc16 (bytes : List Byte) : Word16 :=
  bytes.foldl (fun r b => (bitsOf b).foldl crc16Bit r) 0xFFFF

/-- One bit of the generator of the frame check. -/
def crc32Bit (r : BitVec 32) (bit : Bool) : BitVec 32 :=
  if r.getLsbD 31 != bit then (r <<< 1) ^^^ 0x04C11DB7 else r <<< 1

/-- The frame check: preset to all ones, and the ones' complement of the final register. -/
def crc32 (bytes : List Byte) : BitVec 32 :=
  ~~~ bytes.foldl (fun r b => (bitsOf b).foldl crc32Bit r) 0xFFFFFFFF

/-- The last four bytes of a frame. DESIGN CHOICE (log 35): the frame check is sent most significant byte first. -/
def crc32Bytes (r : BitVec 32) : List Byte :=
  [r.extractLsb' 24 8, r.extractLsb' 16 8, r.extractLsb' 8 8, r.extractLsb' 0 8]

/-- The head port check byte: the ones' complement of the modulo-256 sum. -/
def sumCheck (bytes : List Byte) : Byte := ~~~ bytes.foldl (· + ·) 0

/-! ### Samples: two samples in three bytes (Table 12-1) -/

def packSamples : List Sample → List Byte
  | x :: y :: rest =>
    x.extractLsb' 4 8 :: (x.extractLsb' 0 4 ++ y.extractLsb' 8 4) :: y.extractLsb' 0 8 :: packSamples rest
  | _ => []

def unpackSamples : List Byte → List Sample
  | p :: q :: r :: rest => (p ++ q.extractLsb' 4 4) :: (q.extractLsb' 0 4 ++ r) :: unpackSamples rest
  | _ => []

/-- 256 samples of code zero. -/
def zeroSamples : List Sample := List.replicate 256 0

/-- The byte at a place, code zero beyond the end. -/
def byteAt (bytes : List Byte) (i : Nat) : Byte := bytes.getD i 0

def wordAt (bytes : List Byte) (i : Nat) : Word16 := joinBytes (byteAt bytes i) (byteAt bytes (i + 1))

def slice (bytes : List Byte) (start length : Nat) : List Byte := (bytes.drop start).take length

/-! ### Tile burst (Table 12-1) -/

/-- A burst as the lane reads it: its header fields as received, its samples, and whether its check passed (R1). -/
structure Burst where
  pos : Position
  last : Bool
  index : Nat
  valid : Nat
  samples : List Sample
  ok : Bool
  deriving DecidableEq, Repr

def burstOf (bytes : List Byte) : Burst :=
  { pos := { frame := (byteAt bytes 0).extractLsb' 4 4, line := (wordAt bytes 1).toNat },
    last := (byteAt bytes 0).getLsbD 3,
    index := (byteAt bytes 3).toNat,
    valid := (wordAt bytes 4).toNat,
    samples := unpackSamples (slice bytes 6 384),
    ok := crc16 (bytes.take 390) == wordAt bytes 390 }

/-- The samples as written into the buffer: when the last-tile mark is yes and the valid count is 1 to 255, those from
the valid count on are code zero (R1). -/
def storedSamples (b : Burst) : List Sample :=
  if b.last ∧ 1 ≤ b.valid ∧ b.valid ≤ 255 then b.samples.take b.valid ++ List.replicate (256 - b.valid) 0 else b.samples

/-- The tile of an arriving burst: DAMAGED if its check failed (R1, R14). -/
def tileOf (b : Burst) : Tile :=
  { index := b.index, samples := storedSamples b, damaged := !b.ok, filled := false }

/-- A fill tile: 256 samples of code zero and the FILLED mark (R17). -/
def fillTile (index : Nat) : Tile := { index := index, samples := zeroSamples, damaged := false, filled := true }

/-! ### Control cell (section 12.5) -/

def cellBody (c : Cell) : List Byte := c.kind :: c.tag :: byteOf c.payload.length :: c.payload

def cellBytes (c : Cell) : List Byte := cellBody c ++ wordBytes (crc16 (cellBody c))

/-- The control cell of an upstream slot; none is a cell that fails R151: its check, its length, its kind, or a
RELAY_TO_HEAD longer than 42. -/
def cellOf (slot : List Byte) : Option Cell :=
  let n := (byteAt slot 2).toNat
  let kind := byteAt slot 0
  if 44 < n then none
  else if crc16 (slot.take (3 + n)) != wordAt slot (3 + n) then none
  else if kind != 0 && kind != 1 && kind != 2 then none
  else if kind == 2 && 42 < n then none
  else some { kind := kind, tag := byteAt slot 1, payload := slice slot 3 n }

/-! ### Auxiliary slot (Table 12-5) -/

def recordBytes (r : ByteRecord) : List Byte := [r.data, byteOf (markNum r.mark)]

/-- Record count and four record places; places beyond the count are code zero. -/
def auxLineBytes (rs : List ByteRecord) : List Byte :=
  byteOf rs.length :: ((rs.flatMap recordBytes) ++ List.replicate (8 - 2 * rs.length) 0)

def auxBytes (a : PerSide (List ByteRecord)) : List Byte :=
  auxLineBytes a.s0 ++ auxLineBytes a.s1 ++ auxLineBytes a.s2

/-- The records of one line, at most four (R181). -/
def auxLineOf (slot : List Byte) (start : Nat) : List ByteRecord :=
  (List.range (min 4 (byteAt slot start).toNat)).map fun i =>
    { data := byteAt slot (start + 1 + 2 * i), mark := markOf (byteAt slot (start + 2 + 2 * i)).toNat }

def auxOf (slot : List Byte) : PerSide (List ByteRecord) := ⟨auxLineOf slot 0, auxLineOf slot 9, auxLineOf slot 18⟩

/-! ### Slot labels (Table 12-3) and the downstream frame (section 12.3) -/

/-- Fill the rest of a slot of 400 bytes with code zero. -/
def padSlot (bytes : List Byte) : List Byte := bytes ++ List.replicate (400 - bytes.length) 0

def marksByte (m : Marks) : Byte :=
  byteOf (boolNum m.damaged + 2 * boolNum m.filled + 4 * boolNum m.truncated
    + 8 * boolNum (m.group == some .outOfStep) + 16 * boolNum (m.group == some .partialGroup)
    + 32 * boolNum m.lastOfLine)

def tileLabelBytes (kind : Byte) (t : TileLabel) : List Byte :=
  [kind, byteOf t.entry, byteOf (laneNum t.lane), t.pos.frame.setWidth 8] ++ bytes2 t.pos.line
    ++ [byteOf t.index, marksByte t.marks, 0, 0] ++ List.replicate 6 0

/-- A label without a tile: absent fields carry the values of R181. -/
def bareLabelBytes (kind : Byte) (seq : Word16) : List Byte :=
  [kind, 255, 255, 255, 255, 255, 255, 0] ++ wordBytes seq ++ List.replicate 6 0

/-- Kind codes 0 PAD, 1 DATA, 2 DRAIN, 3 PATTERN (Table 12-3). -/
def dataSlotBytes : DataSlot → List Byte
  | .data t x => tileLabelBytes 1 t ++ packSamples x
  | .drain t x => tileLabelBytes 2 t ++ packSamples x
  | .pad => bareLabelBytes 0 0 ++ packSamples zeroSamples
  | .pattern n x => bareLabelBytes 3 n ++ packSamples x

def classFieldNum : ClassField → Nat
  | .none => 0
  | .propose _ => 1
  | .agree _ => 2
  | .refuse => 3

/-- The class byte beside the class field; none and REFUSE name no class and send 0 (R181). -/
def classFieldClass : ClassField → Nat
  | .propose k => classNum k
  | .agree k => classNum k
  | _ => 0

/-- Two bits of the carry vector: 0 none, 1 CARRIED, 2 THINNED, 3 SHED (Table 12-2). -/
def carryBits : Option CarryState → Nat
  | none => 0
  | some c => carryNum c

/-- Four positions of the carry vector in a byte, the first in bits 7 and 6. -/
def carryBytes : List (Option CarryState) → List Byte
  | p :: q :: r :: s :: rest =>
    byteOf (64 * carryBits p + 16 * carryBits q + 4 * carryBits r + carryBits s) :: carryBytes rest
  | _ => []

/-- Table 12-2. -/
def headerBytes (h : Header) : List Byte :=
  wordBytes h.frameCount ++
  [byteOf (classNum h.cls), h.activeEpoch, byteOf h.planCountdown, h.pendingEpoch.getD 0, byteOf h.classCountdown,
   byteOf (classFieldNum h.classField), byteOf (classFieldClass h.classField),
   byteOf (boolNum h.training.isSome), byteOf (classOptNum h.training),
   byteOf (128 * boolNum h.overcommit + 64 * boolNum h.test)] ++ carryBytes h.carry

/-- Header, control slot, auxiliary slot and data slots, in the order sent (R82). -/
def frameBody (f : Frame) : List Byte :=
  headerBytes f.header ++ padSlot (cellBytes f.control) ++ padSlot (auxBytes f.aux) ++ f.slots.flatMap dataSlotBytes

/-- A downstream frame as it goes down the cable, its frame check last (R82, R180). -/
def frameBytes (f : Frame) : List Byte := frameBody f ++ crc32Bytes (crc32 (frameBody f))

/-! ### Upstream frame (section 12.4) -/

/-- A return slot: its label and samples. -/
structure ReturnSlot where
  kind : Byte
  frame : Byte
  line : Word16
  index : Byte
  lastOfLine : Bool
  seq : Word16
  samples : List Sample
  deriving DecidableEq, Repr

/-- The parts of a valid upstream frame. `cell` is the control cell, none when it fails R151. -/
structure UpFrame where
  count : Word16
  beacon : Byte
  echo : Byte
  classField : ClassField
  select : Option RateClass
  classEcho : Byte
  program : Bool
  preview : Bool
  call : Bool
  cell : Option Cell
  aux : PerSide (List ByteRecord)
  returns : List ReturnSlot
  deriving DecidableEq, Repr

/-- The upstream class field: a code above 3 is none, and a PROPOSE or AGREE of a class outside 1 to 5 is ignored
(R181). -/
def upClassField (code k : Nat) : ClassField :=
  match code, classOf k with
  | 1, some k => .propose k
  | 2, some k => .agree k
  | 3, _ => .refuse
  | _, _ => .none

def returnSlotOf (slot : List Byte) : ReturnSlot :=
  { kind := byteAt slot 0, frame := byteAt slot 3, line := wordAt slot 4, index := byteAt slot 6,
    lastOfLine := (byteAt slot 7).getLsbD 5, seq := wordAt slot 8, samples := unpackSamples (slice slot 16 384) }

/-- The bytes of an upstream frame of a class: 10 + 400 U + 4. -/
def upFrameLength (k : RateClass) : Nat := 10 + 400 * slotsUp k + 4

/-- R149: the length is that of the expected class and the frame check is right. -/
def upFramePasses (k : RateClass) (bytes : List Byte) : Bool :=
  bytes.length == upFrameLength k &&
    slice bytes (10 + 400 * slotsUp k) 4 == crc32Bytes (crc32 (bytes.take (10 + 400 * slotsUp k)))

/-- The parts of a frame that passes, by Table 12-4. -/
def upFrameOf (k : RateClass) (bytes : List Byte) : UpFrame :=
  let slot (i : Nat) : List Byte := slice bytes (10 + 400 * i) 400
  { count := wordAt bytes 0, beacon := byteAt bytes 2, echo := byteAt bytes 3,
    classField := upClassField (byteAt bytes 4).toNat (byteAt bytes 5).toNat,
    select := if byteAt bytes 6 == 1 then classOf (byteAt bytes 7).toNat else none,
    classEcho := byteAt bytes 8,
    program := (byteAt bytes 9).getLsbD 0, preview := (byteAt bytes 9).getLsbD 1, call := (byteAt bytes 9).getLsbD 2,
    cell := cellOf (slot 0), aux := auxOf (slot 1),
    returns := (List.range (slotsUp k - 2)).map fun i => returnSlotOf (slot (i + 2)) }

/-! ### Head port frames (section 12.6) and event records (Table 12-6) -/

def responseBody (r : Response) : List Byte :=
  [r.opcode, r.tag, byteOf (resultNum r.result), byteOf r.data.length] ++ r.data

/-- A response frame with its check byte. -/
def responseBytes (r : Response) : List Byte := responseBody r ++ [sumCheck (responseBody r)]

/-- The frame that an empty holding buffer shifts out: 0, 0, 0, 0, 255 (R165). -/
def emptyResponse : Response := { opcode := 0, tag := 0, result := .done, data := [] }

/-- The 6-byte layout of an event record. -/
def eventBytes (e : EventRecord) : List Byte :=
  byteOf (eventNum e.kind) :: (wordBytes e.stamp ++ [e.subject] ++ wordBytes e.detail)

/-- A received command frame (R164, step 2): opcode, tag and argument bytes, none when the frame fails. -/
def commandFrameOf (bytes : List Byte) : Option (Byte × Byte × List Byte) :=
  let n := (byteAt bytes 2).toNat
  if bytes.length < 4 ∨ 44 < n ∨ bytes.length ≠ n + 4 then none
  else if byteAt bytes (n + 3) ≠ sumCheck (bytes.take (n + 3)) then none
  else some (byteAt bytes 0, byteAt bytes 1, slice bytes 3 n)

/-- A command frame as the head controller sends it (Table 10-1). -/
def commandFrameBytes (opcode tag : Byte) (args : List Byte) : List Byte :=
  let body := opcode :: tag :: byteOf args.length :: args
  body ++ [sumCheck body]

end Sys2Proof.Machine
end

