-- ==== Sys2Proof/Machine/Ops.lean ====
section
/-! DEFINITION. The shared operations: block updates, counters and events, the tile pool and the line queues, and the
views of the plan store that the other blocks read. -/

namespace Sys2Proof.Machine

/-! ### Block updates -/

def State.modPins (f : Pins → Pins) (s : State) : State := { s with pins := f s.pins }
def State.modRelease (f : ReleaseUnit → ReleaseUnit) (s : State) : State := { s with release := f s.release }
def State.modPlan (f : PlanStore → PlanStore) (s : State) : State := { s with plan := f s.plan }
def State.modBuilder (f : Builder → Builder) (s : State) : State := { s with builder := f s.builder }
def State.modControl (f : ControlQueues → ControlQueues) (s : State) : State := { s with control := f s.control }
def State.modLink (f : LinkCtl → LinkCtl) (s : State) : State := { s with link := f s.link }
def State.modTimers (f : Timers → Timers) (s : State) : State :=
  { s with link := { s.link with timers := f s.link.timers } }
def State.modRx (f : UpReceiver → UpReceiver) (s : State) : State := { s with rx := f s.rx }
def State.modPort (f : HeadPort → HeadPort) (s : State) : State := { s with port := f s.port }
def State.modEvents (f : EventUnit → EventUnit) (s : State) : State := { s with events := f s.events }
def State.modCounters (f : Counters → Counters) (s : State) : State := { s with counters := f s.counters }
def State.modTest (f : TestUnit → TestUnit) (s : State) : State := { s with test := f s.test }
def State.modTally (f : Tally → Tally) (s : State) : State := { s with tally := f s.tally }
def State.modRet (f : ReturnPort → ReturnPort) (s : State) : State := { s with ret := f s.ret }
def State.setMailbox (m : Mailbox) (s : State) : State := { s with mailbox := m }
def State.addFree (n : Nat) (s : State) : State := { s with poolFree := s.poolFree + n }

def State.lane (s : State) (l : LaneId) : Lane := s.lanes.get l

def State.modLane (l : LaneId) (f : Lane → Lane) (s : State) : State :=
  { s with lanes := s.lanes.set l (f (s.lanes.get l)) }

def State.side (s : State) (i : SideId) : SideLine := s.sides.get i

def State.modSide (i : SideId) (f : SideLine → SideLine) (s : State) : State :=
  { s with sides := s.sides.set i (f (s.sides.get i)) }

def State.group (s : State) (g : GroupId) : Group := s.release.groups.get g

def State.modGroup (g : GroupId) (f : Group → Group) (s : State) : State :=
  s.modRelease fun r => { r with groups := r.groups.set g (f (r.groups.get g)) }

def State.standing (s : State) (l : LaneId) : Option Standing := s.release.standing.get l

def State.setStanding (l : LaneId) (v : Option Standing) (s : State) : State :=
  s.modRelease fun r => { r with standing := r.standing.set l v }

/-- Apply an operation for each item of a list, in order. -/
def State.each {α : Type} (f : α → State → State) : List α → State → State
  | [], s => s
  | a :: rest, s => State.each f rest (f a s)

/-! ### Counters (R172) -/

def laneCounterGet (c : LaneCounters) : LaneCounter → Counter
  | .damagedTiles => c.damagedTiles
  | .fillTiles => c.fillTiles
  | .lineDrops => c.lineDrops
  | .lineGaps => c.lineGaps
  | .excessTiles => c.excessTiles
  | .preStartBursts => c.preStartBursts
  | .uncarriedLines => c.uncarriedLines
  | .shedLines => c.shedLines
  | .thinnedLines => c.thinnedLines
  | .cutLines => c.cutLines

def laneCounterSet (c : LaneCounters) (k : LaneCounter) (v : Counter) : LaneCounters :=
  match k with
  | .damagedTiles => { c with damagedTiles := v }
  | .fillTiles => { c with fillTiles := v }
  | .lineDrops => { c with lineDrops := v }
  | .lineGaps => { c with lineGaps := v }
  | .excessTiles => { c with excessTiles := v }
  | .preStartBursts => { c with preStartBursts := v }
  | .uncarriedLines => { c with uncarriedLines := v }
  | .shedLines => { c with shedLines := v }
  | .thinnedLines => { c with thinnedLines := v }
  | .cutLines => { c with cutLines := v }

def linkCounterGet (c : LinkCounters) : LinkCounter → Counter
  | .frameCheckFailures => c.frameCheckFailures
  | .framesMissing => c.framesMissing
  | .cellCheckFailures => c.cellCheckFailures
  | .baseCommandsLost => c.baseCommandsLost
  | .noticesLost => c.noticesLost
  | .returnTilesLost => c.returnTilesLost

def linkCounterSet (c : LinkCounters) (k : LinkCounter) (v : Counter) : LinkCounters :=
  match k with
  | .frameCheckFailures => { c with frameCheckFailures := v }
  | .framesMissing => { c with framesMissing := v }
  | .cellCheckFailures => { c with cellCheckFailures := v }
  | .baseCommandsLost => { c with baseCommandsLost := v }
  | .noticesLost => { c with noticesLost := v }
  | .returnTilesLost => { c with returnTilesLost := v }

def sideCounterGet (c : SideCounters) : SideCounter → Counter
  | .parityMarks => c.parityMarks
  | .framingMarks => c.framingMarks
  | .inOverruns => c.inOverruns
  | .outOverruns => c.outOverruns
  | .marksNotCarried => c.marksNotCarried

def sideCounterSet (c : SideCounters) (k : SideCounter) (v : Counter) : SideCounters :=
  match k with
  | .parityMarks => { c with parityMarks := v }
  | .framingMarks => { c with framingMarks := v }
  | .inOverruns => { c with inOverruns := v }
  | .outOverruns => { c with outOverruns := v }
  | .marksNotCarried => { c with marksNotCarried := v }

def counterGet (c : Counters) : CounterId → Counter
  | .lane l k => laneCounterGet (c.lane.get l) k
  | .link k => linkCounterGet c.link k
  | .relayOverruns => c.relayOverruns
  | .side i k => sideCounterGet (c.side.get i) k

def counterSet (c : Counters) (id : CounterId) (v : Counter) : Counters :=
  match id with
  | .lane l k => { c with lane := c.lane.set l (laneCounterSet (c.lane.get l) k v) }
  | .link k => { c with link := linkCounterSet c.link k v }
  | .relayOverruns => { c with relayOverruns := v }
  | .side i k => { c with side := c.side.set i (sideCounterSet (c.side.get i) k v) }

/-- The counters of a group in position order (Table 10-7). -/
def countersOf : CounterGroup → List CounterId
  | .lane l =>
    [.lane l .damagedTiles, .lane l .fillTiles, .lane l .lineDrops, .lane l .lineGaps, .lane l .excessTiles,
     .lane l .preStartBursts, .lane l .uncarriedLines, .lane l .shedLines, .lane l .thinnedLines, .lane l .cutLines]
  | .link =>
    [.link .frameCheckFailures, .link .framesMissing, .link .cellCheckFailures, .link .baseCommandsLost,
     .link .noticesLost, .link .returnTilesLost]
  | .relay => [.relayOverruns]
  | .side i =>
    [.side i .parityMarks, .side i .framingMarks, .side i .inOverruns, .side i .outOverruns, .side i .marksNotCarried]

/-- One increment: a counter at 65535 stays; the half flag is spent on the way from 32767 to 32768 (R172). -/
def counterUp (c : Counter) : Counter :=
  if 65535 ≤ c.count then c
  else { count := c.count + 1, armed := c.armed && c.count != 32767 }

/-- Whether an increment raises COUNTER_HALF (R172). -/
def counterHalfDue (c : Counter) : Bool := c.armed && c.count == 32767

def State.counter (s : State) (id : CounterId) : Counter := counterGet s.counters id

/-! ### Events (R170) -/

def maskHolds (mask : EventBits) (k : EventKind) : Bool := mask.getLsbD (eventNum k)

/-- The record joins the head event queue under the head mask; a full queue of 32 counts it as lost, up to 255. -/
def joinHead (e : EventRecord) (s : State) : State :=
  if maskHolds s.events.headMask e.kind then
    if s.events.queue.length < 32 then s.modEvents fun u => { u with queue := u.queue ++ [e] }
    else s.modEvents fun u => { u with lost := min 255 (u.lost + 1) }
  else s

/-- Whether a record is passed to the base notice queue: the base mask holds its kind, or it is a forced notice (R154). -/
def noticeWanted (forced : Bool) (e : EventRecord) (s : State) : Bool := forced || maskHolds s.events.baseMask e.kind

def joinNotice (e : EventRecord) (s : State) : State := s.modControl fun c => { c with notices := c.notices ++ [e] }

/-- Pass a record on through the two masks (R170); `lose` is what counts a notice that finds the queue of 8 full. -/
def recordWith (lose : State → State) (forced : Bool) (e : EventRecord) (s : State) : State :=
  let s := joinHead e s
  if noticeWanted forced e s then if s.control.notices.length < 8 then joinNotice e s else lose s else s

/-- The COUNTER_HALF record of a counter. -/
def halfRecord (id : CounterId) (s : State) : EventRecord :=
  { kind := .counterHalf, stamp := s.builder.frameCount, subject := byteOf (counterNum id), detail := 0 }

/-- Count a lost notice where the notices lost counter has its half way behind it or its flag spent. -/
def noticeLostPastHalf (s : State) : State :=
  s.modCounters fun c => counterSet c (.link .noticesLost) (counterUp (counterGet c (.link .noticesLost)))

/-- Count a lost COUNTER_HALF notice (R172): the increment can itself be the one that brings the notices lost counter to
the half way, and the notice of that is lost with it. -/
def halfNoticeLost (s : State) : State :=
  let due := counterHalfDue (s.counter (.link .noticesLost))
  let s := noticeLostPastHalf s
  if due then recordWith noticeLostPastHalf false (halfRecord (.link .noticesLost) s) s else s

/-- Raise COUNTER_HALF for a counter (R172). -/
def recordHalf (id : CounterId) (s : State) : State := recordWith halfNoticeLost false (halfRecord id s) s

/-- Increment a counter and raise COUNTER_HALF at the half way (R172). -/
def State.bump (id : CounterId) (s : State) : State :=
  let c := s.counter id
  let s := s.modCounters fun cs => counterSet cs id (counterUp c)
  if counterHalfDue c then recordHalf id s else s

/-- Pass a record on through the two masks; a notice lost at a full queue of 8 is counted (R170). -/
def record (forced : Bool) (e : EventRecord) (s : State) : State :=
  recordWith (State.bump (.link .noticesLost)) forced e s

/-- Raise an event, with the frame count of the moment as its frame stamp (R170). -/
def State.raise (k : EventKind) (subject detail : Nat) (s : State) : State :=
  record false { kind := k, stamp := s.builder.frameCount, subject := byteOf subject, detail := wordOf detail } s

/-- Raise an event whose notice is placed whatever the base mask holds (R154). -/
def State.raiseForced (k : EventKind) (subject detail : Nat) (s : State) : State :=
  record true { kind := k, stamp := s.builder.frameCount, subject := byteOf subject, detail := wordOf detail } s

/-! ### Descriptors (R3) -/

/-- Tiles per line: W divided by 256 and rounded up. -/
def tilesPerLine (d : Descriptor) : Nat := (d.w + 255) / 256

/-- Demand: 16 times tpl times m. -/
def demand (d : Descriptor) : Nat := 16 * tilesPerLine d * d.m

/-! ### Line queues and the pool (Chapter 2) -/

/-- The tiles of a record that have not yet been sent. -/
def unsent (r : LineRecord) : Nat := r.tiles.length - r.carried

/-- The held count of a lane: the unsent tiles of every record in its queue (R26). -/
def heldIn (q : List LineRecord) : Nat := (q.map unsent).sum

/-- The number of released tiles of a lane (R27). -/
def releasedIn (q : List LineRecord) : Nat :=
  ((q.filter fun r => r.state == .released).map unsent).sum

/-- The number of complete, unreleased lines of a lane (R45). -/
def completeIn (q : List LineRecord) : Nat := (q.filter fun r => r.state == .complete).length

/-- A line of which some tiles have been sent and some have not (R27). -/
def partlySent (r : LineRecord) : Bool := decide (0 < r.carried ∧ r.carried < r.tiles.length)

def held (s : State) (l : LaneId) : Nat := heldIn (s.lane l).queue

def releasedTiles (s : State) (l : LaneId) : Nat := releasedIn (s.lane l).queue

/-- The pool grants a buffer when the held count is below the allotment and the free list is not empty (R25). -/
def bufferGranted (s : State) (l : LaneId) : Bool :=
  decide (held s l < (s.lane l).desc.allotment ∧ 0 < s.poolFree)

/-- Change the newest record of a queue, the line in assembly (section 1.4). -/
def modNewest (f : LineRecord → LineRecord) : List LineRecord → List LineRecord
  | [] => []
  | [r] => [f r]
  | r :: rest => r :: modNewest f rest

/-- The newest record of a queue and the records before it. -/
def splitNewest : List LineRecord → Option (List LineRecord × LineRecord)
  | [] => none
  | [r] => some ([], r)
  | r :: rest => (splitNewest rest).map fun p => (r :: p.1, p.2)

/-- Count one cut line when a lane's queue loses a partly sent line (R30, R31). -/
def countCut (l : LaneId) (q : List LineRecord) (s : State) : State :=
  if q.any partlySent then s.bump (.lane l .cutLines) else s

/-- Discard the released tiles of a lane: every RELEASED line goes and its unsent tiles' buffers return (R30). -/
def discardReleased (l : LaneId) (s : State) : State :=
  let q := (s.lane l).queue
  let gone := q.filter fun r => r.state == .released
  let s := (s.modLane l fun x => { x with queue := q.filter fun r => r.state != .released }).addFree (releasedIn q)
  countCut l gone s

/-- Empty a lane: every line goes and every buffer returns (R31). -/
def emptyLane (l : LaneId) (s : State) : State :=
  let q := (s.lane l).queue
  let s := (s.modLane l fun x => { x with queue := [] }).addFree (heldIn q)
  countCut l q s

/-! ### Views of the plan store (Chapter 4) -/

def bankGet (p : PlanStore) : BankId → Bank
  | .b0 => p.bank0
  | .b1 => p.bank1

def bankSet (p : PlanStore) (b : BankId) (v : Bank) : PlanStore :=
  match b with
  | .b0 => { p with bank0 := v }
  | .b1 => { p with bank1 := v }

/-- The bank whose role is ACTIVE; exactly one is (R56). -/
def activeId (p : PlanStore) : BankId := if p.bank0.role = .active then .b0 else .b1

def activeBank (s : State) : Bank := bankGet s.plan (activeId s.plan)

/-- The other bank: the pending bank while the hold is not FREE (R61). -/
def otherId (p : PlanStore) : BankId := otherBank (activeId p)

def pendingBank (s : State) : Bank := bankGet s.plan (otherId s.plan)

/-- A plan names a lane when an entry of it does. -/
def names (es : List Entry) (l : LaneId) : Bool := es.any fun e => e.lane == l

/-- The runtime of the entry that names a lane, entries and runtimes side by side (section 5.2). -/
def runtimeFor : List Entry → List Runtime → LaneId → Option Runtime
  | e :: es, r :: rs, l => if e.lane = l then some r else runtimeFor es rs l
  | _, _, _ => none

/-- The carry state of the active entry that names a lane; none when the active plan names it not. -/
def carryOf (s : State) (l : LaneId) : Option CarryState :=
  (runtimeFor (activeBank s).entries s.builder.runtimes l).map (·.carry)

/-- The banks that LANE_SET checks: the active bank, and a pending bank that is counting down (R4, R59). -/
def bindingEntries (s : State) : List Entry :=
  (activeBank s).entries ++
    match s.plan.hold with
    | .counting _ => (pendingBank s).entries
    | _ => []

/-! ### Link state -/

def isUp (s : State) : Bool := s.link.state == .up

/-- The training states (Table 5-1). -/
def isTraining : LinkState → Bool
  | .measure => true
  | .offer => true
  | .trainSwitch => true
  | _ => false

/-- The states in which a frame event builds a frame (Table 5-1). -/
def buildsFrame : LinkState → Bool
  | .disabled => false
  | .down => false
  | _ => true

/-- The receiver takes upstream frames (R149, R177): in the training states, in UP, and in TEST unless the modem is held
idle, for then it delivers none. -/
def receives (s : State) : Bool :=
  isTraining s.link.state || s.link.state == .up || (s.link.state == .test && !s.test.idle)

end Sys2Proof.Machine
end

