-- ==== Sys2Proof/Machine/Assess.lean ====
section
/-! DEFINITION. The carry assessment (Chapter 6) and the handling of runtimes at a plan switch (sections 5.2 and 7.1). -/

namespace Sys2Proof.Machine

/-- The effective share of an entry under its carry state (Table 5-2). -/
def effShare (q : Nat) : CarryState → Nat
  | .carried => q
  | .thinned => (q + 1) / 2
  | .shed => 0

/-! ### The ladder (R104) -/

/-- Thinning at one level over the entries in reverse plan order, while the total exceeds the capacity. -/
def thinLevel (p : Fin 4) (c16 : Nat) : List (Entry × CarryState) → Nat → List (Entry × CarryState) × Nat
  | [], t => ([], t)
  | (e, c) :: rest, t =>
    if c16 < t ∧ e.priority = p ∧ e.thinning = true then
      let r := thinLevel p c16 rest (t - (e.share - effShare e.share .thinned))
      ((e, .thinned) :: r.1, r.2)
    else
      let r := thinLevel p c16 rest t
      ((e, c) :: r.1, r.2)

/-- Shedding at one level over the entries in reverse plan order, while the total exceeds the capacity. -/
def shedLevel (p : Fin 4) (c16 : Nat) : List (Entry × CarryState) → Nat → List (Entry × CarryState) × Nat
  | [], t => ([], t)
  | (e, c) :: rest, t =>
    if c16 < t ∧ e.priority = p then
      let r := shedLevel p c16 rest (t - effShare e.share c)
      ((e, .shed) :: r.1, r.2)
    else
      let r := shedLevel p c16 rest t
      ((e, c) :: r.1, r.2)

/-- One priority level: thinning, then shedding for every level but 0. -/
def ladderLevel (c16 : Nat) (x : List (Entry × CarryState) × Nat) (p : Fin 4) : List (Entry × CarryState) × Nat :=
  let y := thinLevel p c16 x.1 x.2
  if p = 0 then y else shedLevel p c16 y.1 y.2

def shareTotal (es : List Entry) : Nat := (es.map (·.share)).sum

/-- The ladder from scratch: the carry state of each entry in plan order, and the total T it ends with (R104). -/
def ladder (es : List Entry) (c16 : Nat) : List CarryState × Nat :=
  let start : List (Entry × CarryState) := es.reverse.map fun e => (e, .carried)
  let x := [3, 2, 1, 0].foldl (ladderLevel c16) (start, shareTotal es)
  ((x.1.map (·.2)).reverse, x.2)

/-! ### Runtimes (R84 to R86, R106) -/

/-- The bound of R85 on a credit. -/
def boundCredit (q : Nat) (c : CarryState) (credit : Nat) : Nat :=
  match c with
  | .shed => 0
  | _ => min credit (effShare q c + 15)

/-- Each entry takes its new carry state and its bounded credit (R106). -/
def settleRuntimes : List Entry → List CarryState → List Runtime → List Runtime
  | e :: es, c :: cs, r :: rs => { credit := boundCredit e.share c r.credit, carry := c } :: settleRuntimes es cs rs
  | _, _, _ => []

/-- How many entries differ from their starting points (R108). -/
def changedCount : List CarryState → List Runtime → Nat
  | c :: cs, r :: rs => (if c = r.carry then 0 else 1) + changedCount cs rs
  | _, _ => 0

/-- The lanes of the entries that are newly SHED (R106). DESIGN CHOICE (log 28): they lose their released tiles, and their
cut lines are counted, in plan order. -/
def newlyShed : List Entry → List CarryState → List Runtime → List LaneId
  | e :: es, c :: cs, r :: rs =>
    if c = .shed ∧ r.carry ≠ .shed then e.lane :: newlyShed es cs rs else newlyShed es cs rs
  | _, _, _ => []

/-- The carry assessment (R103 to R109): the ladder against the class as applied, the flag and the assessed total, the
effects on the entries, and the two events. -/
def assess (s : State) : State :=
  let es := (activeBank s).entries
  let old := s.builder.runtimes
  let c16 := capacity16 s.builder.classApplied
  let result := ladder es c16
  let exceeds := decide (c16 < result.2)
  let wasOver := s.builder.overcommit
  let changed := changedCount result.1 old
  let s := s.modBuilder fun b =>
    { b with runtimes := settleRuntimes es result.1 old, overcommit := exceeds, assessedTotal := result.2 }
  let s := State.each discardReleased (newlyShed es result.1 old) s
  let s := if changed = 0 then s else s.raise .carryChanged (classNum s.builder.classApplied) changed
  if exceeds = true ∧ wasOver = false then s.raise .overcommit (classNum s.builder.classApplied) result.2 else s

/-- The starting point of an entry of a new plan: the old runtime of its lane, or credit 0 and CARRIED (R86). -/
def startRuntime (oldEntries : List Entry) (old : List Runtime) (e : Entry) : Runtime :=
  (runtimeFor oldEntries old e.lane).getD { credit := 0, carry := .carried }

/-- A switch outside UP runs no assessment: priority 0 is never SHED, and the credits are bounded (R111). -/
def carryOver (e : Entry) (r : Runtime) : Runtime :=
  let c := if e.priority = 0 ∧ r.carry = .shed then CarryState.carried else r.carry
  { credit := boundCredit e.share c r.credit, carry := c }

end Sys2Proof.Machine
end

