-- ==== Sys2Proof/Machine/Plan.lean ====
section
/-! DEFINITION. The plan store (Chapters 4 and 7): banks, edit hold, validation at commit, announcement, echo watch, and
what a loss of the link does to them. -/

namespace Sys2Proof.Machine

/-- The hold timer's setting (R62). -/
def holdMs : Nat := 2000

/-! ### Announcements (section 7.2) -/

/-- The number of entry cells: n divided by 4, rounded up (Table 7-2). -/
def entryCells (n : Nat) : Nat := (n + 3) / 4

/-- The cells of an announcement, head cell first, each with its position as its tag (R119). DESIGN CHOICE (log 34): the
parts and the tags are fixed here, when the announcement is queued, also where the active plan changes before an IN_FORCE
cell is sent. -/
def announcement (kind : AnnounceKind) (n : Nat) : List AnnounceCell :=
  { kind := kind, tag := 0, part := .head } ::
    ((List.range (entryCells n)).map fun k => { kind := kind, tag := k + 1, part := .entries k }) ++
    [{ kind := kind, tag := entryCells n + 1, part := .lanes }]

/-- Empty the announcement queue and queue a new announcement whole (R121). -/
def queueAnnouncement (kind : AnnounceKind) (n : Nat) (s : State) : State :=
  s.modControl fun c => { c with announce := announcement kind n }

def announceInForce (s : State) : State := queueAnnouncement .inForce (activeBank s).entries.length s

/-! ### Echo watch (R124, R125) -/

def startEcho (s : State) : State := s.modPlan fun p => { p with echo := .running 0 0 none }

def stopEcho (s : State) : State := s.modPlan fun p => { p with echo := .idle }

/-- The detail of BASE_OUT_OF_STEP: the last echo, or 256 if none has arrived (R124). -/
def echoDetail : Option Byte → Nat
  | none => 256
  | some e => e.toNat

/-- The echo watch expires: the IN_FORCE announcement is queued again, BASE_OUT_OF_STEP is raised from IN_STEP, and the
watch runs on with its frame count at 0 and one more repeat (R124). -/
def echoExpire (repeats : Nat) (last : Option Byte) (s : State) : State :=
  let s := announceInForce s
  let s :=
    if s.plan.baseStanding = .inStep then
      (s.modPlan fun p => { p with baseStanding := .lagging }).raise .baseOutOfStep (activeBank s).epoch.toNat
        (echoDetail last)
    else s
  s.modPlan fun p => { p with echo := .running 0 (min 65535 (repeats + 1)) last }

/-- A frame built in UP adds 1 to the count of a running watch, and the 64th expires it (R124). -/
def echoTick (s : State) : State :=
  match s.plan.echo with
  | .idle => s
  | .running frames repeats last =>
    if 63 ≤ frames then echoExpire repeats last s
    else s.modPlan fun p => { p with echo := .running (frames + 1) repeats last }

/-- The expiry alone: the frame that brings a running watch to 64 in UP (R124). -/
def echoExpiry (s : State) : State :=
  match s.plan.echo with
  | .idle => s
  | .running frames repeats last => if isUp s ∧ 63 ≤ frames then echoExpire repeats last s else s

/-- The echo of a valid upstream frame is compared while the watch runs (R125). -/
def echoCompare (echo : Byte) (s : State) : State :=
  match s.plan.echo with
  | .idle => s
  | .running frames repeats _ =>
    if echo = (activeBank s).epoch then
      let s := stopEcho s
      if s.plan.baseStanding = .lagging then
        (s.modPlan fun p => { p with baseStanding := .inStep }).raise .baseInStep (activeBank s).epoch.toNat repeats
      else s
    else s.modPlan fun p => { p with echo := .running frames repeats (some echo) }

/-! ### Edit hold (section 4.2) -/

/-- Discard the pending bank: it becomes FREE and is emptied (R56). -/
def discardPending (s : State) : State := s.modPlan fun p => bankSet p (otherId p) .emptied

/-- The PENDING bank is discarded and the hold becomes FREE (R61). -/
def freeHold (s : State) : State := (discardPending s).modPlan fun p => { p with hold := .free }

/-- The holder's command has passed the hold checks: the timer restarts at 2000 ms (R62). -/
def restartHoldTimer (s : State) : State :=
  match s.plan.hold with
  | .held o _ => s.modPlan fun p => { p with hold := .held o holdMs }
  | _ => s

/-- The hold timer runs out in HELD (R62). -/
def holdExpiry (s : State) : State :=
  match s.plan.hold with
  | .held o _ => (freeHold s).raise .holdExpired (originNum o) (pendingBank s).epoch.toNat
  | _ => s

/-- The hold checks of Table 4-4: the refusal of a plan command, or none. `opening` says that it is PLAN_OPEN. -/
def holdRefusal (s : State) (o : Origin) (opening : Bool) : Option ResultCode :=
  match s.plan.hold with
  | .free => if opening then none else some .noHold
  | .held h _ => if h = o then none else if opening then some .held else some .noHold
  | .counting _ => some .busy

/-- Open the hold in FREE: the other bank takes the active entries and the active epoch plus 1 (R66). -/
def openHold (o : Origin) (s : State) : State :=
  let bank : Bank := { role := .pending, epoch := (activeBank s).epoch + 1, entries := (activeBank s).entries }
  s.modPlan fun p => { bankSet p (otherId p) bank with hold := .held o holdMs }

/-- The entries of the pending bank, replaced. -/
def setPendingEntries (es : List Entry) (s : State) : State :=
  s.modPlan fun p => bankSet p (otherId p) { bankGet p (otherId p) with entries := es }

/-- The argument fields of an entry, by check 2 of Table 4-5; none is refused RANGE. -/
def entryOf (lane : Byte) (q : Word16) (priority thinning drain : Byte) : Option Entry :=
  match laneOf lane.toNat, yesNo thinning.toNat, yesNo drain.toNat with
  | some l, some t, some d =>
    if h : priority.toNat < 4 then
      if 16 ≤ q.toNat ∧ q.toNat ≤ 1920 then
        some { lane := l, share := q.toNat, priority := ⟨priority.toNat, h⟩, thinning := t, drain := d }
      else none
    else none
  | _, _, _ => none

/-- Checks 2, 3 and 4 of Table 4-5 against the entries that the new one joins. -/
def entryRefusal (s : State) (e : Option Entry) (others : List Entry) : Option ResultCode :=
  match e with
  | none => some .range
  | some e =>
    if !(s.lane e.lane).desc.configured then some .unknownLane
    else if names others e.lane then some .duplicate
    else none

/-! ### Validation at commit (section 4.4) -/

/-- The result of a commit: its code and the details of R74 to R76. -/
inductive CommitCheck where
  | passes
  | empty
  | unknownLane (index : Nat)
  | shortShare (index share demand : Nat)
  | over (sum capacity : Nat)
  deriving DecidableEq, Repr

/-- The first entry whose lane is unconfigured (R74). -/
def firstUnknown (s : State) : Nat → List Entry → Option Nat
  | _, [] => none
  | i, e :: rest => if (s.lane e.lane).desc.configured then firstUnknown s (i + 1) rest else some i

/-- The first entry whose share is below its lane's demand, with the two figures (R75). -/
def firstShort (s : State) : Nat → List Entry → Option (Nat × Nat × Nat)
  | _, [] => none
  | i, e :: rest =>
    let d := demand (s.lane e.lane).desc
    if e.share < d then some (i, e.share, d) else firstShort s (i + 1) rest

/-- The sum of the shares of priority 0 (R76). -/
def prioritySum (es : List Entry) : Nat := ((es.filter fun e => e.priority == 0).map (·.share)).sum

/-- The class of the priority-0 check: the class in force in UP, and class 1 otherwise (Table 4-7). -/
def commitClass (s : State) : RateClass := if isUp s then s.link.classInForce else .c1

/-- The checks of a commit in their order (R73). -/
def commitCheck (s : State) : CommitCheck :=
  let es := (pendingBank s).entries
  if es = [] then .empty
  else
    match firstUnknown s 0 es with
    | some i => .unknownLane i
    | none =>
      match firstShort s 0 es with
      | some (i, q, d) => .shortShare i q d
      | none =>
        if capacity16 (commitClass s) < prioritySum es then .over (prioritySum es) (capacity16 (commitClass s))
        else .passes

/-- A commit that passes: the hold becomes COUNTING (R78). In UP the SWITCH announcement is queued, the countdown is 16
and the echo watch becomes idle (R124); otherwise the switch is due at once (R116). -/
def acceptCommit (o : Origin) (s : State) : State :=
  if isUp s then
    let s := queueAnnouncement .switch (pendingBank s).entries.length s
    s.modPlan fun p => { p with hold := .counting o, countdown := 16, echo := .idle }
  else s.modPlan fun p => { p with hold := .counting o, due := some .uncounted }

/-! ### Countdown and loss (sections 7.1 and 7.5) -/

/-- A frame that carried the countdown has been handed over: it falls by 1, and at 0 the switch is due (R116). -/
def countdownTick (s : State) : State :=
  if s.plan.countdown = 0 then s
  else if s.plan.countdown = 1 then s.modPlan fun p => { p with countdown := 0, due := some .counted }
  else s.modPlan fun p => { p with countdown := p.countdown - 1 }

/-- The hand-over of the frame that carries countdown 1, alone (R116). -/
def countdownEnd (s : State) : State := if s.plan.countdown = 1 then countdownTick s else s

/-- A switch was announced while UP: its countdown is above 0, or its flag was set by the frame that carried countdown 1
(R126). -/
def announcedSwitch (s : State) : Bool := decide (0 < s.plan.countdown) || s.plan.due == some .counted

/-- The countdown is 0 and the switch-due flag clear. -/
def clearCountdown (s : State) : State := s.modPlan fun p => { p with countdown := 0, due := none }

/-- The plan store at a loss of the link (R63, R126, R127): a base hold in HELD is dropped; an announced switch is
cancelled, back to HELD for the head port and dropped for the base; a switch committed while not UP is kept. -/
def planLoss (s : State) : State :=
  match s.plan.hold with
  | .free => s
  | .held .head _ => s
  | .held .base _ => (freeHold s).raise .holdDropped 2 (pendingBank s).epoch.toNat
  | .counting o =>
    if announcedSwitch s then
      let epoch := (pendingBank s).epoch.toNat
      let s := clearCountdown s
      match o with
      | .head => (s.modPlan fun p => { p with hold := .held .head holdMs }).raise .switchCancelled 1 epoch
      | .base => ((freeHold s).raise .switchCancelled 2 epoch).raise .holdDropped 2 epoch
    else s

/-- The plan store at LINK_RESTART: any hold is dropped, any countdown cancelled (R64, R127). -/
def planRestart (s : State) : State :=
  match s.plan.hold with
  | .free => clearCountdown s
  | .held o _ => (freeHold (clearCountdown s)).raise .holdDropped (originNum o) (pendingBank s).epoch.toNat
  | .counting o =>
    let epoch := (pendingBank s).epoch.toNat
    ((freeHold (clearCountdown s)).raise .switchCancelled (originNum o) epoch).raise .holdDropped (originNum o) epoch

/-- The relay-out queue is emptied, with RELAY_DISCARDED if it held messages (R153). -/
def discardRelayOut (s : State) : State :=
  let n := s.control.relayOut.length
  if n = 0 then s else (s.modControl fun c => { c with relayOut := [] }).raise .relayDiscarded 0 n

/-- The plan store notes that a loss of the link has been taken in this frame period (R63, R79; log 10). -/
def noteLoss (s : State) : State := s.modPlan fun p => { p with lossTaken := true }

/-- What every other block does at a loss of the link (R63): the plan store, the announcement queue (R121), the echo watch
(R124) and the relay-out queue (R153). -/
def lossOfLink (s : State) : State :=
  let s := noteLoss (planLoss s)
  let s := s.modControl fun c => { c with announce := [] }
  discardRelayOut (stopEcho s)

end Sys2Proof.Machine
end

