-- ==== Sys2Proof/Machine/TestUnit.lean ====
section
/-! DEFINITION. The test unit (Chapter 11): the pattern generator and the checker. -/

namespace Sys2Proof.Machine

/-! ### The pattern (R176) -/

/-- The seed of a sequence number: its low 15 bits, or 1 if they are all zero (Table 11-2). Stage k is bit k - 1. -/
def patternSeed (seq : Word16) : BitVec 15 :=
  let low : BitVec 15 := seq.extractLsb' 0 15
  if low = 0 then 1 else low

/-- One step: stages 1 to 14 move one stage higher, and the exclusive-or of stages 14 and 15 enters stage 1. -/
def patternStep (x : BitVec 15) : BitVec 15 :=
  (x <<< 1) ||| (if x.getLsbD 14 != x.getLsbD 13 then 1 else 0)

/-- Shift n output bits into a sample, the first the most significant. -/
def patternBits : Nat → BitVec 15 → Sample → Sample × BitVec 15
  | 0, x, acc => (acc, x)
  | n + 1, x, acc => patternBits n (patternStep x) ((acc <<< 1) ||| (if x.getLsbD 14 then 1 else 0))

/-- The next n samples of 12 output bits each. -/
def patternRun : Nat → BitVec 15 → List Sample
  | 0, _ => []
  | n + 1, x => (patternBits 12 x 0).1 :: patternRun n (patternBits 12 x 0).2

/-- The 256 samples of a PATTERN slot. -/
def patternSamples (seq : Word16) : List Sample := patternRun 256 (patternSeed seq)

/-- The PATTERN slots of a test frame: consecutive sequence numbers from the next one on. -/
def patternSlots (start : Word16) (count : Nat) : List DataSlot :=
  (List.range count).map fun i => .pattern (start + wordOf i) (patternSamples (start + wordOf i))

/-! ### The checker (R177, R178) -/

/-- Count one checked tile, errored or not (R178). -/
def countTile (errored : Bool) (s : State) : State :=
  let t := s.test
  let checked := min 65535 (t.checked + 1)
  if errored then
    if t.errored < 65535 then s.modTest fun t => { t with checked := checked, errored := t.errored + 1 }
    else
      match t.countMode with
      | .stopAtMax => s.modTest fun t => { t with checked := checked }
      | .wrap => (s.modTest fun t => { t with checked := checked, errored := 0 }).raise .testWrap (classNum t.cls) checked
  else s.modTest fun t => { t with checked := checked }

/-- Check a tile against the pattern of its own sequence number (R177). -/
def checkTile (seq : Word16) (samples : List Sample) (s : State) : State :=
  countTile (decide (samples ≠ patternSamples seq)) s

/-- The checker takes a slot of a test frame (PATTERN_LOOP). -/
def checkSlot (d : DataSlot) (s : State) : State :=
  match d with
  | .pattern seq samples => checkTile seq samples s
  | _ => s

/-- The checker takes a return slot (PATTERN_OUT): those of kind PATTERN alone are checked. -/
def checkReturn (r : ReturnSlot) (s : State) : State :=
  if r.kind = 3 then checkTile r.seq r.samples s else s

/-! ### TEST_START and TEST_READ (R175, R178) -/

/-- Whether the modem is idle after TEST_START (R175, log 22): in a test that begins in PATTERN_LOOP it is at once, after a
change from PATTERN_OUT only from the next frame event, and PATTERN_OUT releases it. -/
def idleAtStart (mode : TestMode) (t : TestUnit) : Bool := mode == .patternLoop && (t.mode == .off || t.idle)

/-- The test unit takes the three arguments of TEST_START; the counts and the sequence number start from 0 (R175). -/
def startTest (mode : TestMode) (countMode : CountMode) (cls : RateClass) (s : State) : State :=
  s.modTest fun t =>
    { mode := mode, idle := idleAtStart mode t, countMode := countMode, cls := cls, nextSeq := 0, checked := 0,
      errored := 0 }

/-- A test ends: the mode is off and the modem is released (R179). -/
def endTest (t : TestUnit) : TestUnit := { t with mode := .off, idle := false }

/-- The nine bytes of a TEST_READ response (Table 12-13). -/
def testData (t : TestUnit) : List Byte :=
  [byteOf (testModeNum t.mode), byteOf (countModeNum t.countMode), byteOf (classNum t.cls)] ++ wordBytes t.nextSeq
    ++ bytes2 t.checked ++ bytes2 t.errored

end Sys2Proof.Machine
end

