-- ==== Sys2Proof/Machine/Link.lean ====
section
/-! DEFINITION. The link controller (Chapter 8): training, supervision and drops, class negotiation, and the timers of
the link. -/

namespace Sys2Proof.Machine

/-- Every timer stopped. -/
def Timers.stopped : Timers :=
  { retry := .stopped, measure := none, offer := none, answer := none, margin := none, stepUp := none }

/-- The seven settings of section 8.2 and 8.4, in milliseconds. -/
def retryMs : Nat := 1000
def measureMs : Nat := 400
def offerMs : Nat := 500
def answerMs : Nat := 200
def marginMs : Nat := 100
def stepUpMs : Nat := 30000

/-! ### Entering and leaving states -/

/-- Leave the present state for another: no proposal, no refusal, no selected class, no training frames, no supervision,
every timer stopped (R131, R138, R143, R146). -/
def leaveFor (dest : LinkState) (c : LinkCtl) : LinkCtl :=
  { c with state := dest, proposal := .idle, pendingRefusal := false, selected := none, trainFrames := 0,
           supervision := .cleared, timers := .stopped }

/-- Enter MEASURE with an attempt count (R131): class 5 in force, a measurement asked of the modem, the measure timer
at 400 ms. -/
def enterMeasure (attempts : Nat) (s : State) : State :=
  s.modLink fun c =>
    { leaveFor .measure c with
      classInForce := .c5, attempts := attempts, measureRequests := c.measureRequests + 1,
      timers := { Timers.stopped with measure := some measureMs } }

/-- In DOWN with the retry timer expired and the carrier present the link enters MEASURE (R130, Table 8-3). -/
def settleDown (s : State) : State :=
  if s.link.state = .down ∧ s.link.timers.retry = .expired ∧ s.pins.carrier = true then enterMeasure 0 s else s

/-- Enter DOWN with the retry timer at 1000 ms (R130). -/
def enterDown (s : State) : State :=
  s.modLink fun c => { leaveFor .down c with timers := { Timers.stopped with retry := .running retryMs } }

/-- The states that a drop leaves (R138). -/
def carriesFrames : LinkState → Bool
  | .measure => true
  | .offer => true
  | .trainSwitch => true
  | .up => true
  | _ => false

/-- What a drop records (R138): the cause, the drop count, LINK_DOWN with the class in force. -/
def recordDrop (cause : Cause) (s : State) : State :=
  (s.modLink fun c => { c with lastCause := cause, dropCount := min 65535 (c.dropCount + 1) }).raise .linkDown
    (classNum s.link.classInForce) (causeNum cause)

/-- A drop into DOWN (R138), which is a loss of the link for the other blocks (R63). -/
def dropToDown (cause : Cause) (s : State) : State :=
  lossOfLink (enterDown (recordDrop cause s))

/-- A training failure: the link measures again, or drops at the fourth (R134). -/
def trainingFailure (s : State) : State :=
  if s.link.attempts + 1 < 4 then enterMeasure (s.link.attempts + 1) s
  else dropToDown .trainingFailed (s.modLink fun c => { c with attempts := 4 })

/-! ### Class proposals (section 8.4) -/

/-- The class proposal returns to none in UP: the margin timer starts if the warning is present (R140); otherwise the
step-up timer is set to 30 s when asked (R141, R142, R144). -/
def proposalToNone (setStepUp : Bool) (s : State) : State :=
  let s := s.modLink fun c => { c with proposal := .idle }
  if s.pins.marginWarning then s.modTimers fun t => { t with answer := none, margin := some marginMs, stepUp := none }
  else s.modTimers fun t => { t with answer := none, margin := none, stepUp := if setStepUp then some stepUpMs else t.stepUp }

/-- The part makes a proposal (R142): the answer timer is 200 ms, the margin timer, which runs with the proposal at none,
stops (R140), and a pending refusal is dropped (R143). -/
def propose (k : RateClass) (s : State) : State :=
  (s.modLink fun c => { c with proposal := .proposing k, pendingRefusal := false }).modTimers fun t =>
    { t with answer := some answerMs, margin := none }

/-- An agreed change begins its countdown (R144). -/
def beginCountdown (k : RateClass) (byBase : Bool) (s : State) : State :=
  (s.modLink fun c => { c with proposal := .counting 8 k byBase, pendingRefusal := false }).modTimers fun t =>
    { t with answer := none, margin := none }

/-- The next frame carries REFUSE (R143). -/
def refuseNext (s : State) : State := s.modLink fun c => { c with pendingRefusal := true }

/-- Whether a proposed class is a step up from the class in force. -/
def isStepUp (s : State) (k : RateClass) : Bool := worse s.link.classInForce k

/-- A class at or below the ceiling in quality, the ceiling being known (R132, R143). -/
def withinCeiling (s : State) (k : RateClass) : Bool :=
  match s.link.ceiling with
  | none => false
  | some c => !worse c k

/-- The class field of a valid upstream frame in UP (R142, R143). -/
def takeClassField (f : ClassField) (s : State) : State :=
  match f with
  | .none => s
  | .agree k =>
    match s.link.proposal with
    | .proposing j => if k = j then beginCountdown j false s else s
    | _ => s
  | .refuse =>
    match s.link.proposal with
    | .proposing j => proposalToNone (isStepUp s j) s
    | _ => s
  | .propose k =>
    match s.link.proposal with
    | .idle => if withinCeiling s k ∧ k ≠ s.link.classInForce then beginCountdown k true s else refuseNext s
    | .proposing j =>
      if worse k j then
        if k = s.link.classInForce then refuseNext (proposalToNone (isStepUp s j) s) else beginCountdown k true s
      else if k = j then beginCountdown j false s
      else s
    | .counting _ _ _ => s

/-- SELECT k in OFFER: a class at or worse than the ceiling is taken, the supervision counts are cleared and the training
switch begins (R132, R133). -/
def takeSelect (k : RateClass) (s : State) : State :=
  if s.link.state = .offer ∧ withinCeiling s k = true then
    s.modLink fun c => { leaveFor .trainSwitch c with selected := some k }
  else s

/-! ### Entry into UP (R133, R135) -/

/-- The training switch has ended: the class in force is the selected class and the link is UP. LINK_UP is raised, the
IN_FORCE announcement is queued, the echo watch starts, and the margin or the step-up timer is set. The supervision
counts run on (R135). -/
def enterUp (s : State) : State :=
  let s := s.modLink fun c =>
    { c with state := .up, classInForce := c.selected.getD .c5, selected := none, trainFrames := 0, attempts := 0,
             timers := if s.pins.marginWarning then { Timers.stopped with margin := some marginMs }
                       else { Timers.stopped with stepUp := some stepUpMs } }
  let s := s.modBuilder fun b => { b with firstInUp := true }
  let s := s.raise .linkUp (classNum s.link.classInForce) (classOptNum s.link.ceiling)
  startEcho (announceInForce s)

/-- A training switch frame has been handed over; the sixteenth ends the training switch (R133). -/
def trainTick (s : State) : State :=
  if 15 ≤ s.link.trainFrames then enterUp s else s.modLink fun c => { c with trainFrames := c.trainFrames + 1 }

/-- The hand-over of the sixteenth training switch frame, alone (R133). -/
def trainEnd (s : State) : State := if s.link.state = .trainSwitch ∧ 15 ≤ s.link.trainFrames then enterUp s else s

/-! ### Class countdown (R144) -/

/-- A frame that carried the class countdown has been handed over: it falls by 1; at 0 the change is due. -/
def classCountTick (s : State) : State :=
  match s.link.proposal with
  | .counting (n + 1) k b => s.modLink fun c => { c with proposal := .counting n k b }
  | _ => s

/-- The hand-over of the frame that carries class countdown 1, alone. -/
def classCountEnd (s : State) : State :=
  match s.link.proposal with
  | .counting 1 k b => s.modLink fun c => { c with proposal := .counting 0 k b }
  | _ => s

/-- The due change takes effect (step 2 of R83): the class in force becomes k, CLASS_CHANGED is raised, the proposal is
none, and the step-up or the margin timer is set. -/
def applyDueClass (s : State) : State :=
  match s.link.proposal with
  | .counting 0 k _ =>
    let former := s.link.classInForce
    let s := (s.modLink fun c => { c with classInForce := k }).raise .classChanged (classNum k) (classNum former)
    proposalToNone true s
  | _ => s

/-! ### Supervision (R136) -/

def periodVerdict : Period → Verdict
  | .empty => .missing
  | .failed => .failed
  | .valid _ => .valid

/-- The three counts after one verdict. -/
def superviseWith (p : Period) (c : Supervision) : Supervision :=
  let window := (periodVerdict p :: c.window).take 256
  match p with
  | .valid beacon =>
    { syncRun := 0, beaconStall := if c.lastBeacon = some beacon then c.beaconStall + 1 else 0,
      lastBeacon := some beacon, window := window }
  | _ => { c with syncRun := c.syncRun + 1, window := window }

/-- The first enabled criterion that the counts meet, in the order SYNC, BEACON, BURST. -/
def criterionMet (e : Criteria) (c : Supervision) : Option Cause :=
  if e.sync ∧ 4 ≤ c.syncRun then some .sync
  else if e.beacon ∧ 64 ≤ c.beaconStall then some .beacon
  else if e.burst ∧ 16 ≤ (c.window.filter fun v => v == .failed).length then some .burst
  else none

def supervisedState : LinkState → Bool
  | .trainSwitch => true
  | .up => true
  | _ => false

/-- The counts are kept with the verdict, and a criterion met drops the link (R136). -/
def takeVerdict (p : Period) (s : State) : State :=
  let s := s.modLink fun c => { c with supervision := superviseWith p c.supervision }
  match criterionMet s.link.criteria s.link.supervision with
  | none => s
  | some cause => dropToDown cause s

/-- The verdict of the period just ended goes to the link controller, and a MISSING one is then counted (R149).
DESIGN CHOICE (log 28): the link controller has acted on the verdict, and may have dropped the link, before the count. -/
def superviseTick (s : State) : State :=
  let t := takeVerdict s.rx.period s
  if s.rx.period = .empty then t.bump (.link .framesMissing) else t

/-- A verdict that meets a criterion, alone: the drop follows if the counts with the verdict of the period meet one. -/
def lossCriterion (s : State) : State :=
  if supervisedState s.link.state = true ∧
      (criterionMet s.link.criteria (superviseWith s.rx.period s.link.supervision)).isSome = true then superviseTick s
  else s

/-! ### Timers and pins -/

/-- The retry timer expires in DOWN (R130). -/
def retryExpiry (s : State) : State :=
  if s.link.state = .down then settleDown (s.modTimers fun t => { t with retry := .expired }) else s

def measureExpiry (s : State) : State := if s.link.state = .measure then trainingFailure s else s

def offerExpiry (s : State) : State := if s.link.state = .offer then trainingFailure s else s

/-- The answer timer expires on the part's own proposal (R142): a step-up is abandoned, a step-down drops the link or is
abandoned, by the CLASS_TIMEOUT enable. -/
def answerExpiry (s : State) : State :=
  match s.link.proposal with
  | .proposing k =>
    if !isUp s then s
    else if isStepUp s k then proposalToNone true s
    else if s.link.criteria.classTimeout then dropToDown .classTimeout s
    else proposalToNone false s
  | _ => s

/-- The margin timer expires (R140): MARGIN_LOW is raised and, below class 5 in number, a step-down is proposed. -/
def marginExpiry (s : State) : State :=
  if isUp s ∧ s.link.timers.margin.isSome = true then
    let s := s.modTimers fun t => { t with margin := none }
    let s := s.raise .marginLow (classNum s.link.classInForce) (classOptNum s.link.ceiling)
    match stepDown s.link.classInForce with
    | none => s
    | some k => propose k s
  else s

/-- The class in force is worse than the ceiling. -/
def belowCeiling (s : State) : Bool :=
  match s.link.ceiling with
  | none => false
  | some c => worse s.link.classInForce c

/-- The step-up timer expires (R141): a step-up is proposed, or the timer is set again. -/
def stepUpExpiry (s : State) : State :=
  if isUp s ∧ s.link.timers.stepUp.isSome = true then
    match stepUp s.link.classInForce with
    | some k =>
      if belowCeiling s ∧ s.link.proposal = .idle then propose k (s.modTimers fun t => { t with stepUp := none })
      else s.modTimers fun t => { t with stepUp := some stepUpMs }
    | none => s.modTimers fun t => { t with stepUp := some stepUpMs }
  else s

/-- The modem's result completes a measurement in MEASURE (R131). -/
def takeMeasurement (k : RateClass) (s : State) : State :=
  if s.link.state = .measure then
    s.modLink fun c =>
      { leaveFor .offer c with ceiling := some k, timers := { Timers.stopped with offer := some offerMs } }
  else s

/-- The carrier falls (R137). -/
def carrierLost (s : State) : State := if carriesFrames s.link.state then dropToDown .carrier s else s

/-- The margin warning rises in UP (R140, R141): the step-up timer stops, the part's own step-up proposal is withdrawn,
and the margin timer starts if the proposal is none. -/
def warningRises (s : State) : State :=
  if isUp s then
    let s := s.modTimers fun t => { t with stepUp := none }
    match s.link.proposal with
    | .idle => s.modTimers fun t => { t with margin := some marginMs }
    | .proposing k => if isStepUp s k then proposalToNone false s else s
    | .counting _ _ _ => s
  else s

/-- The margin warning falls in UP: the margin timer stops and the step-up timer restarts from 30 s (R140, R141). -/
def warningFalls (s : State) : State :=
  if isUp s then s.modTimers fun t => { t with margin := none, stepUp := some stepUpMs } else s

/-! ### Link enable and test entry (R146) -/

/-- LINK_ENABLE off from a state other than DISABLED: every timer stops, and the entry is a loss but no drop. -/
def disableLink (s : State) : State :=
  let s := s.modLink fun c => { leaveFor .disabled c with enable := false }
  lossOfLink (s.modTest endTest)

/-- LINK_ENABLE on in DISABLED: DOWN with the retry timer expired, and MEASURE at once if the carrier is present. -/
def enableLink (s : State) : State :=
  settleDown (s.modLink fun c =>
    { leaveFor .down c with enable := true, timers := { Timers.stopped with retry := .expired } })

/-- Entry into TEST from another state (R146, R175): the last cause is TEST, a drop from a state that carries frames, and
a loss of the link. -/
def enterTest (s : State) : State :=
  let s := if carriesFrames s.link.state then recordDrop .test s else s
  let s := s.modLink fun c => { leaveFor .test c with lastCause := .test }
  lossOfLink s

/-- The end of a test by TEST_STOP: DOWN with the retry timer at 1000 ms, no LINK_DOWN (R146, R179). -/
def leaveTest (s : State) : State :=
  lossOfLink (enterDown (s.modTest endTest))

end Sys2Proof.Machine
end

