-- ==== Sys2Proof/Machine/Services.lean ====
section
/-! DEFINITION. The upstream services (Chapter 9) beside the receiver: relay mailbox, side lines, tally outputs, return
port, and the reference watch. -/

namespace Sys2Proof.Machine

/-! ### Relay mailbox (R154, R155) -/

/-- A good RELAY_TO_HEAD cell arrives (R154). -/
def relayArrives (m : RelayMessage) (s : State) : State :=
  match s.mailbox with
  | .unacked held =>
    (s.bump .relayOverruns).raiseForced .relayOverrun m.tag.toNat held.tag.toNat
  | _ => (s.setMailbox (.unacked m)).raise .relayArrived m.tag.toNat m.bytes.length

/-! ### Side lines (R156 to R158) -/

/-- The parity bit that a byte carries under a setting: even parity makes the number of ones even. -/
def parityBitOf (p : Parity) (data : Byte) : Option Bool :=
  let odd := (bitsOf data).foldl (fun acc b => acc != b) false
  match p with
  | .none => none
  | .even => some odd
  | .odd => some !odd

/-- The byte that the transmitter shifts out for a record: the parity bit of a marked record is inverted (Table 9-2). -/
def sentByteOf (x : SideLine) (r : ByteRecord) : SentByte :=
  { data := r.data, rate := x.rate,
    parityBit :=
      match parityBitOf x.parity r.data with
      | none => none
      | some b => some (if r.mark = .clean then b else !b) }

/-- The transmitter, idle, starts the front record of the out queue, if there is one; with parity none a mark is not
carried and is counted (Table 9-2). DESIGN CHOICE (log 37): the count rises here, as the byte starts, and not when its stop
bit has gone; Table 9-2 counts such a record and gives no moment. -/
def startSending (i : SideId) (s : State) : State :=
  let x := s.side i
  match x.outQueue with
  | [] => s.modSide i fun x => { x with shifting := none }
  | r :: rest =>
    let s := s.modSide i fun x => { x with outQueue := rest, shifting := some (sentByteOf x r) }
    if x.parity = .none ∧ r.mark ≠ .clean then s.bump (.side i .marksNotCarried) else s

/-- One record for the out queue (R158): discarded and counted at 64; an idle transmitter starts at once. -/
def sideOut (i : SideId) (r : ByteRecord) (s : State) : State :=
  if 64 ≤ (s.side i).outQueue.length then s.bump (.side i .outOverruns)
  else
    let s := s.modSide i fun x => { x with outQueue := x.outQueue ++ [r] }
    if (s.side i).shifting = none then startSending i s else s

/-- The auxiliary slot of a valid upstream frame in UP: each line's records in order (R158). -/
def takeAux (a : PerSide (List ByteRecord)) (s : State) : State :=
  State.each (fun i => State.each (sideOut i) (a.get i)) sideIds s

/-- The mark of a received byte (R157). -/
def receivedMark (p : Parity) (data : Byte) (parityBit stopBit : Bool) : ByteMark :=
  if stopBit = false then .framing
  else
    match parityBitOf p data with
    | none => .clean
    | some b => if b = parityBit then .clean else .parity

/-- A byte received from a head side-line device (R157). -/
def sideIn (i : SideId) (data : Byte) (parityBit stopBit : Bool) (s : State) : State :=
  let mark := receivedMark (s.side i).parity data parityBit stopBit
  let s :=
    match mark with
    | .clean => s
    | .parity => s.bump (.side i .parityMarks)
    | .framing => s.bump (.side i .framingMarks)
  if 64 ≤ (s.side i).inQueue.length then s.bump (.side i .inOverruns)
  else s.modSide i fun x => { x with inQueue := x.inQueue ++ [{ data := data, mark := mark }] }

/-- The transmitter has finished a byte and starts the next (R158). -/
def sideSent (i : SideId) (s : State) : State :=
  if (s.side i).shifting = none then s else startSending i s

/-- The auxiliary slot of a carriage frame: up to four records of each line (R157). -/
def auxTaken (s : State) : PerSide (List ByteRecord) :=
  ⟨(s.side .s0).inQueue.take 4, (s.side .s1).inQueue.take 4, (s.side .s2).inQueue.take 4⟩

/-- The records of the auxiliary slot leave their queues (R157). -/
def auxLeave (s : State) : State :=
  State.each (fun i => State.modSide i fun x => { x with inQueue := x.inQueue.drop 4 }) sideIds s

/-- SIDELINE_SET: the setting, and both queues empty (R156). -/
def setSide (i : SideId) (rate : SideRate) (parity : Parity) (s : State) : State :=
  s.modSide i fun x => { x with rate := rate, parity := parity, inQueue := [], outQueue := [] }

/-- LINK_RESTART empties both queues of every line (R158, R162). -/
def emptySides (s : State) : State :=
  State.each (fun i => State.modSide i fun x => { x with inQueue := [], outQueue := [] }) sideIds s

/-! ### Tally (R159) -/

/-- A valid frame taken in UP sets the outputs and the hold count (R159). -/
def setTally (program preview call : Bool) (s : State) : State :=
  s.modTally fun _ => { program := program, preview := preview, call := call, hold := 32 }

/-- A reference tick whose period brought no valid frame in UP: the hold count falls, and at 0 the outputs go off. -/
def tallyTick (s : State) : State :=
  if s.rx.upValid = true ∨ s.tally.hold = 0 then s
  else if s.tally.hold = 1 then s.modTally fun _ => Tally.reset
  else s.modTally fun t => { t with hold := t.hold - 1 }

/-- The tick that brings the hold count to 0, alone (R159). -/
def tallyExpiry (s : State) : State := if s.tally.hold = 1 then tallyTick s else s

/-- The tally byte: bit 0 program, bit 1 preview, bit 2 call (Table 12-4). -/
def tallyNum (t : Tally) : Nat := boolNum t.program + 2 * boolNum t.preview + 4 * boolNum t.call

/-! ### Return port (R160) -/

/-- One return slot: a DATA slot joins the return buffer, or is counted as lost at 48 tiles; any other kind delivers
nothing. -/
def takeReturn (r : ReturnSlot) (s : State) : State :=
  if r.kind = 1 then
    if s.ret.buffer.length < 48 then
      s.modRet fun p => { p with
        buffer := p.buffer ++
          [{ frame := r.frame, line := r.line, index := r.index, lastOfLine := r.lastOfLine, samples := r.samples }] }
    else s.bump (.link .returnTilesLost)
  else s

/-- The viewfinder board takes the front tile (R160). -/
def viewfinderTakes (s : State) : State :=
  match s.ret.buffer with
  | [] => s
  | t :: rest => s.modRet fun _ => { buffer := rest, taken := some t }

/-! ### Reference watch (R161) -/

/-- 1 ms has passed without a reference tick: REFERENCE_LOST is raised once, until the next tick arms the watch. -/
def referenceGone (s : State) : State :=
  if s.refWatch = .fired then s else { s.raise .referenceLost 0 0 with refWatch := .fired }

/-- A millisecond count of the timebase with no tick since the one before is 1 ms without a tick (log 3). -/
def referenceMs (s : State) : State :=
  match s.refWatch with
  | .armed => { s with refWatch := .quiet }
  | _ => referenceGone s

end Sys2Proof.Machine
end

