-- ==== Sys2Proof/Machine/Carriage.lean ====
section
/-! DEFINITION. The carriage builder (Chapter 5) and the control-slot scheduler (section 7.3): the plan switch, the fill
of the data slots, the header, the control slot, and the frame events of each link state. -/

namespace Sys2Proof.Machine

/-! ### Plan switch (R83 step 1, R86, R87, R111, R118) -/

/-- The lanes that the old plan names and the new plan does not (R87). DESIGN CHOICE (log 28): they lose their released
tiles, and their cut lines are counted, in the order of the old plan. -/
def absentLanes (old new : List Entry) : List LaneId := (old.map (·.lane)).filter fun l => !names new l

/-- Take the switch that is due: the pending bank becomes ACTIVE and the old bank FREE; the runtimes follow the lanes;
absent lanes lose their released tiles; the hold is freed and PLAN_ACTIVE raised. In UP the echo watch starts, with an
IN_FORCE announcement if none went before; outside UP the watch is idle and no assessment runs. -/
def takeSwitch (s : State) : State :=
  match s.plan.due with
  | none => s
  | some due =>
    let old := (activeBank s).entries
    let bank := { pendingBank s with role := BankRole.active }
    let runtimes := bank.entries.map (startRuntime old s.builder.runtimes)
    let holder := holderNum s.plan.hold
    let s := s.modPlan fun p =>
      { bankSet (bankSet p (otherId p) bank) (activeId p) .emptied with hold := .free, due := none }
    let s := s.modBuilder fun b =>
      { b with runtimes := if isUp s then runtimes else List.zipWith carryOver bank.entries runtimes }
    let s := State.each discardReleased (absentLanes old bank.entries) s
    let s := s.raise .planActive holder bank.epoch.toNat
    if isUp s then startEcho (if due = .uncounted then announceInForce s else s) else stopEcho s

/-! ### Fill (R88 to R95) -/

/-- The front tile of the released tiles, its line record as it stands, and the queue after it is sent: the
carried-so-far count rises, and a line whose last tile is sent is removed (R27, R28). -/
def takeFront : List LineRecord → Option (LineRecord × Tile × List LineRecord)
  | [] => none
  | r :: rest =>
    match if r.state = .released then r.tiles[r.carried]? else none with
    | some t =>
      some (r, t, if r.carried + 1 = r.tiles.length then rest else { r with carried := r.carried + 1 } :: rest)
    | none => (takeFront rest).map fun p => (p.1, p.2.1, r :: p.2.2)

/-- The label of a tile (R94, R95). -/
def labelOf (entry : Nat) (l : LaneId) (tpl : Nat) (r : LineRecord) (t : Tile) : TileLabel :=
  { entry := entry, lane := l, pos := r.pos, index := t.index,
    marks := { damaged := t.damaged, filled := t.filled, truncated := r.truncated, group := r.mark,
               lastOfLine := t.index + 1 == tpl } }

/-- Send up to n tiles of a lane, each returning its buffer as its slot is handed over (R28, R89). -/
def sendTiles (slot : TileLabel → List Sample → DataSlot) (entry : Nat) (l : LaneId) :
    Nat → State → List DataSlot × State
  | 0, s => ([], s)
  | n + 1, s =>
    match takeFront (s.lane l).queue with
    | none => ([], s)
    | some (r, t, q) =>
      let out := slot (labelOf entry l (tilesPerLine (s.lane l).desc) r t) t.samples
      let rest := sendTiles slot entry l n ((s.modLane l fun x => { x with queue := q }).addFree 1)
      (out :: rest.1, rest.2)

/-- The grant of an entry: the smallest of its credit in whole slots, its lane's released tiles and the free slots (R88,
step 2). -/
def grantOf (credit released free : Nat) : Nat := min (credit / 16) (min released free)

/-- What a pass leaves: the slots given, the runtimes, the free data slots G and the state. -/
structure FillResult where
  slots : List DataSlot
  runtimes : List Runtime
  free : Nat
  state : State

/-- The credit pass from an entry index on (R88): SHED entries are passed over; the others add their effective share
under the cap and are granted slots. -/
def creditPass : Nat → List Entry → List Runtime → Nat → State → FillResult
  | i, e :: es, r :: rs, free, s =>
    if r.carry = .shed then
      let rest := creditPass (i + 1) es rs free s
      { rest with runtimes := r :: rest.runtimes }
    else
      let q := effShare e.share r.carry
      let credit := min (r.credit + q) (q + 15)
      let g := grantOf credit (releasedTiles s e.lane) free
      let sent := sendTiles .data i e.lane g s
      let rest := creditPass (i + 1) es rs (free - g) sent.2
      { rest with slots := sent.1 ++ rest.slots, runtimes := { r with credit := credit - 16 * g } :: rest.runtimes }
  | _, _, rs, free, s => { slots := [], runtimes := rs, free := free, state := s }

/-- The drain pass from an entry index on (R92): entries with drain set, not SHED, take leftover slots; no credit
changes. -/
def drainPass : Nat → List Entry → List Runtime → Nat → State → List DataSlot × Nat × State
  | i, e :: es, r :: rs, free, s =>
    if e.drain = true ∧ r.carry ≠ .shed then
      let g := min (releasedTiles s e.lane) free
      let sent := sendTiles .drain i e.lane g s
      let rest := drainPass (i + 1) es rs (free - g) sent.2
      (sent.1 ++ rest.1, rest.2)
    else drainPass (i + 1) es rs free s
  | _, _, _, free, s => ([], free, s)

/-- Fill the data slots of a carriage frame: DATA, then DRAIN, then PAD (R82, R88, R92, R93). -/
def fill (s : State) : List DataSlot × State :=
  let es := (activeBank s).entries
  let credited := creditPass 0 es s.builder.runtimes (dataSlots s.builder.classApplied) s
  let drained := drainPass 0 es credited.runtimes credited.free credited.state
  (credited.slots ++ drained.1 ++ List.replicate drained.2.1 .pad,
   drained.2.2.modBuilder fun b => { b with runtimes := credited.runtimes })

/-! ### Control slot (R119, R122) -/

/-- An entry in an ANNOUNCE_ENTRIES cell (Table 12-6). -/
def entryBytes (i : Nat) (e : Entry) : List Byte :=
  [byteOf i, byteOf (laneNum e.lane)] ++ bytes2 e.share ++
    [byteOf e.priority.val, byteOf (boolNum e.thinning), byteOf (boolNum e.drain)]

/-- Entries from an index on, at most n of them, each with its index. -/
def entriesFrom (es : List Entry) (start n : Nat) : List Byte :=
  (((es.drop start).take n).mapIdx fun k e => entryBytes (start + k) e).flatten

/-- A lane in an ANNOUNCE_LANES cell (Table 12-6). -/
def laneBytes (s : State) (l : LaneId) : List Byte :=
  let d := (s.lane l).desc
  byteOf (laneNum l) :: (bytes2 d.w ++ bytes2 d.h ++ [byteOf d.m])

/-- An announcement cell built from the bank and the descriptors as they stand (R119). DESIGN CHOICE (log 34): an IN_FORCE
cell that a counted switch finds still queued keeps its part and its tag, and reads the bank that the switch made active. -/
def announceCellOf (s : State) (c : AnnounceCell) : Cell :=
  let bank := match c.kind with
    | .switch => pendingBank s
    | .inForce => activeBank s
  let n := bank.entries.length
  match c.part with
  | .head =>
    { kind := 16, tag := byteOf c.tag,
      payload := [byteOf (announceNum c.kind), bank.epoch, byteOf n, byteOf (entryCells n + 2)] ++
        (match c.kind with
         | .switch => wordBytes (s.builder.frameCount + wordOf s.plan.countdown)
         | .inForce => []) }
  | .entries k =>
    { kind := 17, tag := byteOf c.tag,
      payload := [byteOf (announceNum c.kind), bank.epoch] ++ entriesFrom bank.entries (4 * k) 4 }
  | .lanes =>
    { kind := 18, tag := byteOf c.tag,
      payload := [byteOf (announceNum c.kind), bank.epoch] ++
        (laneIds.filter (names bank.entries)).flatMap (laneBytes s) }

def responseCellOf (r : Response) : Cell :=
  { kind := 19, tag := r.tag, payload := [r.opcode, byteOf (resultNum r.result)] ++ r.data }

def relayCellOf (m : RelayMessage) : Cell := { kind := 20, tag := m.tag, payload := m.bytes }

def noticeCellOf (e : EventRecord) : Cell := { kind := 21, tag := byteOf (eventNum e.kind), payload := eventBytes e }

def idleCell : Cell := { kind := 0, tag := 0, payload := [] }

/-- The control cell of a frame: the first of the announcement, response, relay-out and notice queues that is not empty,
or IDLE; the chosen cell leaves its queue at the hand-over (R122). -/
def chooseCell (s : State) : Cell × State :=
  match s.control.announce with
  | c :: rest => (announceCellOf s c, s.modControl fun q => { q with announce := rest })
  | [] =>
    match s.control.responses with
    | r :: rest => (responseCellOf r, s.modControl fun q => { q with responses := rest })
    | [] =>
      match s.control.relayOut with
      | m :: rest => (relayCellOf m, s.modControl fun q => { q with relayOut := rest })
      | [] =>
        match s.control.notices with
        | e :: rest => (noticeCellOf e, s.modControl fun q => { q with notices := rest })
        | [] => (idleCell, s)

/-! ### Header (R98, R99) -/

/-- The carry vector: the states of the active entries, then none up to position 23 (R99). -/
def carryVector (s : State) : List (Option CarryState) :=
  let states := ((s.builder.runtimes.take (activeBank s).entries.length).map fun r => some r.carry)
  states ++ List.replicate (24 - states.length) none

/-- The header fields that every frame takes in the same way. -/
def headerOf (s : State) (cls : RateClass) : Header :=
  { frameCount := s.builder.frameCount, cls := cls, activeEpoch := (activeBank s).epoch,
    planCountdown := s.plan.countdown,
    pendingEpoch := if s.plan.countdown = 0 then none else some (pendingBank s).epoch,
    classCountdown := 0, classField := .none, training := none, carry := carryVector s,
    overcommit := s.builder.overcommit, test := false }

/-- The class field in UP (R142, R143, R144). -/
def upClassMessage (c : LinkCtl) : ClassField :=
  match c.proposal with
  | .proposing k => .propose k
  | .counting n k true => if n = 0 then .none else .agree k
  | .counting _ _ false => .none
  | .idle => if c.pendingRefusal then .refuse else .none

def classCountOf (p : Proposal) : Nat :=
  match p with
  | .counting n _ _ => n
  | _ => 0

/-- The class countdown of a training switch frame: 0 in the first eight, then 8 down to 1 (R133). -/
def trainCount (sent : Nat) : Nat := if sent < 8 then 0 else 16 - sent

/-! ### Frame events (R80, R83) -/

/-- The frame goes to the line interface: it is the frame whose header names the class that the receiver expects
(R149). -/
def handToLine (f : Frame) (s : State) : State :=
  { s with lineOut := some f, rx := { s.rx with expected := f.header.cls } }

def noAux : PerSide (List ByteRecord) := .all []

/-- Steps 2 and 3 of R83 in UP: a due class change, the class as applied, and one assessment when a switch was taken, the
class as applied changed, or this is the first frame event in UP (R102). -/
def prepareUp (switched : Bool) (s : State) : State :=
  let before := s.builder.classApplied
  let s := applyDueClass s
  let s := s.modBuilder fun b => { b with classApplied := s.link.classInForce }
  let s := if switched ∨ s.builder.classApplied ≠ before ∨ s.builder.firstInUp = true then assess s else s
  s.modBuilder fun b => { b with firstInUp := false }

/-- What the hand-over of a carriage frame changes: the countdowns fall, a carried refusal is gone, the side-line records
leave, and the echo watch counts the frame unless it started within this event (R116, R124, R143, R144, R157). -/
def handOverUp (switched : Bool) (s : State) : State :=
  let s := countdownTick s
  let s := classCountTick s
  let s := s.modLink fun c => { c with pendingRefusal := false }
  let s := auxLeave s
  if switched then s else echoTick s

/-- The frame event in UP: a carriage frame at the class as applied. -/
def carriageFrame (switched : Bool) (s : State) : State :=
  let s := prepareUp switched s
  let filled := fill s
  let s := filled.2
  let header := { headerOf s s.builder.classApplied with
    classCountdown := classCountOf s.link.proposal, classField := upClassMessage s.link }
  let aux := auxTaken s
  let chosen := chooseCell s
  handOverUp switched
    (handToLine { header := header, control := chosen.1, aux := aux, slots := filled.1 } chosen.2)

/-- The frame event in a training state: a frame at class 5, all PAD (R131, R132, R133). -/
def trainingFrame (s : State) : State :=
  let header := { headerOf s .c5 with
    training := if s.link.state = .offer then s.link.ceiling else none,
    classField := match s.link.state, s.link.selected with
      | .trainSwitch, some k => .agree k
      | _, _ => .none,
    classCountdown := if s.link.state = .trainSwitch then trainCount s.link.trainFrames else 0 }
  let chosen := chooseCell s
  let frame : Frame :=
    { header := header, control := chosen.1, aux := noAux, slots := List.replicate (dataSlots .c5) .pad }
  let s := countdownTick (handToLine frame chosen.2)
  if s.link.state = .trainSwitch then trainTick s else s

/-- The frame event in TEST: a frame at the test class, all PATTERN, handed to the line interface or, in PATTERN_LOOP, to
the checker, with the modem held idle from this event on (R175, R176, R177). -/
def testFrame (s : State) : State :=
  let c := dataSlots s.test.cls
  let header := { headerOf s s.test.cls with test := true }
  let slots := patternSlots s.test.nextSeq c
  let chosen := chooseCell s
  let frame : Frame := { header := header, control := chosen.1, aux := noAux, slots := slots }
  let s := chosen.2.modTest fun t => { t with idle := t.mode == .patternLoop, nextSeq := t.nextSeq + wordOf c }
  let s := if s.test.mode = .patternLoop then State.each checkSlot slots s else handToLine frame s
  countdownTick s

/-- The frame count rises at the start of a frame event that builds a frame (R81). -/
def countFrame (s : State) : State :=
  if buildsFrame s.link.state then s.modBuilder fun b => { b with frameCount := b.frameCount + 1 } else s

/-- The frame event of a reference tick (R80, R83). -/
def frameEvent (s : State) : State :=
  let switched := s.plan.due.isSome
  let s := takeSwitch (countFrame s)
  match s.link.state with
  | .up => carriageFrame switched s
  | .measure | .offer | .trainSwitch => trainingFrame s
  | .test => testFrame s
  | .down | .disabled => s

end Sys2Proof.Machine
end

