-- ==== Sys2Proof/Machine/Release.lean ====
section
/-! DEFINITION. The release unit (Chapter 3): release of complete lines, the group barrier and its cursor, lagging and
rejoining members. -/

namespace Sys2Proof.Machine

/-! ### Release of one line (R35, R36) -/

/-- The discard tests of Table 3-1 for a line of a lane: the counter of the first that applies. -/
def discardTest (s : State) (l : LaneId) (line : Nat) : Option LaneCounter :=
  match carryOf s l with
  | none => some .uncarriedLines
  | some c =>
    if !isUp s then some .uncarriedLines
    else
      match c with
      | .shed => some .shedLines
      | .thinned => if line % 2 = 1 then some .thinnedLines else none
      | .carried => none

/-- The oldest COMPLETE record of a queue, with the records before and after it. -/
def splitComplete : List LineRecord → Option (List LineRecord × LineRecord × List LineRecord)
  | [] => none
  | r :: rest =>
    if r.state = .complete then some ([], r, rest)
    else (splitComplete rest).map fun p => (r :: p.1, p.2)

/-- Release the oldest COMPLETE line of a lane with a group mark: it becomes RELEASED, or is discarded with its buffers
returned and its counter incremented (R35, R29). -/
def releaseOldest (mark : Option GroupMark) (l : LaneId) (s : State) : State :=
  match splitComplete (s.lane l).queue with
  | none => s
  | some (before, r, after) =>
    match discardTest s l r.pos.line with
    | none => s.modLane l fun x => { x with queue := before ++ { r with state := .released, mark := mark } :: after }
    | some c =>
      ((s.modLane l fun x => { x with queue := before ++ after }).addFree (unsent r)).bump (.lane l c)

/-- Release n lines of a lane alone, oldest first. -/
def releaseMany (mark : Option GroupMark) (l : LaneId) : Nat → State → State
  | 0, s => s
  | n + 1, s => releaseMany mark l n (releaseOldest mark l s)

/-! ### Members, heads and standings (R38, R39, R45) -/

/-- The group that governs a lane: that of its descriptor, if it is configured (R34, R38). -/
def groupOf (d : Descriptor) : Option GroupId := if d.configured then d.group else none

/-- The members of a group in lane number order (R38). -/
def members (s : State) (g : GroupId) : List LaneId := laneIds.filter fun l => groupOf (s.lane l).desc == some g

/-- The head of a member: the position of its oldest COMPLETE line (R45). -/
def headOf (s : State) (l : LaneId) : Option Position :=
  ((s.lane l).queue.find? fun r => r.state == .complete).map (·.pos)

def isRunning (s : State) (l : LaneId) : Bool := (s.lane l).state == .running

def isInStep (s : State) (l : LaneId) : Bool := s.standing l == some .inStep

/-- A member's standing as reported; a lane without one is LAGGING. -/
def standingOr (s : State) (l : LaneId) : Standing := (s.standing l).getD .lagging

/-- A member that enters FAULTED or STOPPED becomes LAGGING, without an event (R39). -/
def lagQuietly (l : LaneId) (s : State) : State :=
  match groupOf (s.lane l).desc with
  | none => s
  | some _ => s.setStanding l (some .lagging)

/-! ### Positions (R40) -/

inductive Judgement where
  | ahead | behind | equal
  deriving DecidableEq, Repr

/-- The frame difference modulo 16: 1 to 7 is ahead, 8 to 15 behind, and at 0 the line numbers decide (R40). -/
def judge (p cursor : Position) : Judgement :=
  let d := (p.frame - cursor.frame).toNat
  if d = 0 then
    if cursor.line < p.line then .ahead else if p.line < cursor.line then .behind else .equal
  else if d ≤ 7 then .ahead
  else .behind

/-- Table 3-3. -/
inductive Status where
  | behind | present | hole | absent
  deriving DecidableEq, Repr

def statusAt (s : State) (cursor : Position) (l : LaneId) : Status :=
  match headOf s l with
  | none => .absent
  | some p =>
    match judge p cursor with
    | .behind => .behind
    | .equal => .present
    | .ahead => .hole

/-- The next position in a board of H lines per frame (R43, R15). -/
def nextPosition (h : Nat) (p : Position) : Position :=
  if p.line + 1 < h then { p with line := p.line + 1 } else { frame := p.frame + 1, line := 0 }

/-- H of a group, common to its members (R38). -/
def groupLines (s : State) (g : GroupId) : Nat :=
  match members s g with
  | [] => 0
  | l :: _ => (s.lane l).desc.h

/-! ### Evaluation (R44 to R50) -/

/-- Raise GROUP_LAG and set LAGGING, for one absent IN_STEP member (R49). -/
def lagMember (g : GroupId) (l : LaneId) (s : State) : State :=
  (s.setStanding l (some .lagging)).raise .groupLag (laneNum l) (groupNum g)

/-- Raise GROUP_REJOIN and set IN_STEP, for one present, LAGGING and RUNNING member (R48). -/
def rejoinMember (g : GroupId) (l : LaneId) (s : State) : State :=
  (s.setStanding l (some .inStep)).raise .groupRejoin (laneNum l) (groupNum g)

/-- The nearest head: the head of a hole member that is not ahead of the head of any other (R50). -/
def nearestHead (heads : List Position) : Option Position :=
  heads.find? fun p => heads.all fun q => judge p q != .ahead

/-- One pass of an evaluation with the cursor set (R44): a behind head released alone (R46), a group release (R47, R48,
R43), the lag trigger (R49) or the skip (R50); none when the pass changes nothing. -/
def evaluatePass (g : GroupId) (cursor : Position) (s : State) : Option State :=
  let ms := members s g
  let is (t : Status) (l : LaneId) : Bool := statusAt s cursor l == t
  let present := ms.filter (is .present)
  let waited := ms.filter fun l => is .absent l && isInStep s l
  match ms.find? (is .behind) with
  | some l => some (releaseOldest (some .outOfStep) l s)
  | none =>
    if waited = [] then
      if present = [] then
        match nearestHead ((ms.filter (is .hole)).filterMap (headOf s)) with
        | none => none
        | some p => some (s.modGroup g fun x => { x with cursor := some p })
      else
        let mark : Option GroupMark := if ms.any fun l => is .hole l && isInStep s l then some .partialGroup else none
        let rejoining := present.filter fun l => !isInStep s l && isRunning s l
        let h := groupLines s g
        let s := State.each (releaseOldest mark) present s
        let s := State.each (rejoinMember g) rejoining s
        some (s.modGroup g fun x => { x with cursor := some (nextPosition h cursor) })
    else if present.any fun l => decide ((s.group g).skew ≤ completeIn (s.lane l).queue) then
      some (State.each (lagMember g) waited s)
    else none

/-- Repeat the passes until one changes nothing. Each release takes a COMPLETE line, and each lag trigger and each skip
is followed by a release, so the passes are bounded by the lines that wait. -/
def evaluateLoop (g : GroupId) : Nat → State → State
  | 0, s => s
  | fuel + 1, s =>
    match (s.group g).cursor with
    | none => s
    | some c =>
      match evaluatePass g c s with
      | none => s
      | some s' => evaluateLoop g fuel s'

/-- The passes that an evaluation can need. -/
def evaluateFuel (s : State) (g : GroupId) : Nat :=
  2 * ((members s g).map fun l => completeIn (s.lane l).queue).sum + 2

/-- Release every COMPLETE line of a lane alone, marked OUT_OF_STEP (R42). -/
def releaseAllAlone (l : LaneId) (s : State) : State :=
  releaseMany (some .outOfStep) l (completeIn (s.lane l).queue) s

/-- Evaluate a group (R44): without a RUNNING member the cursor is unset and the waiting lines are released alone (R42);
an unset cursor is set by the first RUNNING member that holds a COMPLETE line (R41). -/
def evaluate (g : GroupId) (s : State) : State :=
  let ms := members s g
  if ms.any (isRunning s) then
    match (s.group g).cursor with
    | some _ => evaluateLoop g (evaluateFuel s g) s
    | none =>
      match (ms.filter (isRunning s)).filterMap (headOf s) with
      | [] => s
      | p :: _ => evaluateLoop g (evaluateFuel s g) (s.modGroup g fun x => { x with cursor := some p })
  else State.each releaseAllAlone ms (s.modGroup g fun x => { x with cursor := none })

/-- Evaluate the group of a lane, if it has one. -/
def evaluateLane (l : LaneId) (s : State) : State :=
  match groupOf (s.lane l).desc with
  | none => s
  | some g => evaluate g s

/-- A line of a lane has become COMPLETE: an ungrouped lane's line is released at once (R34), a member's group is
evaluated (R44). -/
def lineCompleted (l : LaneId) (s : State) : State :=
  match groupOf (s.lane l).desc with
  | none => releaseOldest none l s
  | some g => evaluate g s

/-- The membership of a lane after LANE_SET (R38): a lane that joins a group joins as LAGGING, a lane in no group has no
standing. -/
def standingAfterSet (s : State) (l : LaneId) (old new : Option GroupId) : Option Standing :=
  if old = new then s.standing l
  else
    match new with
    | none => none
    | some _ => some .lagging

def evaluateOption (g : Option GroupId) (s : State) : State :=
  match g with
  | none => s
  | some g => evaluate g s

/-- LINK_RESTART acts on a group after the lanes: cursor unset, members IN_STEP but for STOPPED ones (R53). -/
def restartStanding (s : State) (l : LaneId) : Option Standing :=
  match groupOf (s.lane l).desc with
  | none => s.standing l
  | some _ => if (s.lane l).state = .stopped then some .lagging else some .inStep

def restartGroups (s : State) : State :=
  let s := s.modRelease fun r =>
    { groups := ⟨{ r.groups.a with cursor := none }, { r.groups.b with cursor := none }⟩,
      standing := ⟨restartStanding s .l0, restartStanding s .l1, restartStanding s .l2, restartStanding s .l3⟩ }
  evaluate .b (evaluate .a s)

end Sys2Proof.Machine
end

