-- ==== Sys2Proof/Machine/Intake.lean ====
section
/-! DEFINITION. Sensor board intake (Chapter 1): the treatment of a burst by lane state, line assembly, the loss of a
board, and the meanings of the intake rows of the table. -/

namespace Sys2Proof.Machine

/-! ### Placing tiles (R17, R19, R25) -/

/-- Drop the line in assembly whole: its buffers return, its record goes, the drop mark is set (R19). -/
def dropLine (l : LaneId) (s : State) : State :=
  match splitNewest (s.lane l).queue with
  | none => s
  | some (before, r) =>
    let s := s.modLane l fun x => { x with queue := before, assembly := .betweenLines, dropMark := some r.pos }
    (s.addFree (unsent r)).bump (.lane l .lineDrops)

/-- Append one tile to the line in assembly, with its buffer granted (R25); fill tiles and damaged tiles are counted. -/
def appendTile (l : LaneId) (t : Tile) (s : State) : State :=
  let s := s.modLane l fun x => { x with queue := modNewest (fun r => { r with tiles := r.tiles ++ [t] }) x.queue }
  let s := { s with poolFree := s.poolFree - 1 }
  if t.filled then s.bump (.lane l .fillTiles)
  else if t.damaged then s.bump (.lane l .damagedTiles)
  else s

/-- Append tiles in order, each with a buffer of its own; at the first that cannot be had the line is dropped. The flag
says whether every tile was placed. -/
def placeTiles (l : LaneId) : List Tile → State → State × Bool
  | [], s => (s, true)
  | t :: rest, s => if bufferGranted s l then placeTiles l rest (appendTile l t s) else (dropLine l s, false)

/-- Fill tiles for the indices from one up to, not including, another. -/
def fillTiles (start stop : Nat) : List Tile := (List.range (stop - start)).map fun i => fillTile (start + i)

/-- Set the line in assembly COMPLETE (R18): the drop mark is cleared (R20). -/
def completeLine (l : LaneId) (truncated : Bool) (s : State) : State :=
  s.modLane l fun x =>
    { x with queue := modNewest (fun r => { r with state := .complete, truncated := truncated }) x.queue,
             assembly := .betweenLines, dropMark := none }

/-- Close the line in assembly with fill tiles as TRUNCATED (R16, R9); the flag says whether the line was kept. -/
def closeTruncated (l : LaneId) (next : Nat) (s : State) : State × Bool :=
  match placeTiles l (fillTiles next (tilesPerLine (s.lane l).desc)) s with
  | (s, true) => (completeLine l true s, true)
  | (s, false) => (s, false)

/-! ### Line assembly (R14 to R18) -/

/-- Whether a position follows the last line: the next line of the frame, or line 0 of the next frame after line H - 1
(R15). -/
def succeeds (h : Nat) (last p : Position) : Bool :=
  (p.frame == last.frame && p.line == last.line + 1) ||
    (last.line + 1 == h && p.line == 0 && p.frame == last.frame + 1)

/-- Open a new line for a position, with a gap counted if it does not follow the last line (R15). -/
def openLine (l : LaneId) (p : Position) (s : State) : State :=
  let x := s.lane l
  let s :=
    match x.lastLine with
    | none => s
    | some last => if succeeds x.desc.h last p then s else s.bump (.lane l .lineGaps)
  s.modLane l fun x =>
    { x with
      queue := x.queue ++
        [{ pos := p, tiles := [], truncated := false, mark := none, state := .assembling, carried := 0 }],
      assembly := .assembling p 0, lastLine := some p }

/-- Place a burst in the open line by its tile index (R17), and complete the line if R18 says so. -/
def placeBurst (l : LaneId) (b : Burst) (p : Position) (next : Nat) (s : State) : State :=
  if b.index < next then s.bump (.lane l .excessTiles)
  else
    let tpl := tilesPerLine (s.lane l).desc
    let tail := if b.last then fillTiles (b.index + 1) tpl else []
    match placeTiles l (fillTiles next b.index ++ [tileOf b]) s with
    | (s, false) => s
    | (s, true) =>
      if b.last ∨ b.index + 1 = tpl then
        match placeTiles l tail s with
        | (s, false) => s
        | (s, true) => lineCompleted l (completeLine l false s)
      else s.modLane l fun x => { x with assembly := .assembling p (b.index + 1) }

/-- Open a line for a burst that arrives BETWEEN_LINES and place it (R15, R17). -/
def openAndPlace (l : LaneId) (b : Burst) (s : State) : State := placeBurst l b b.pos 0 (openLine l b.pos s)

/-- Line assembly takes a burst: the screening and the drop mark (R14), then R15 to R18. -/
def assemble (l : LaneId) (b : Burst) (s : State) : State :=
  let x := s.lane l
  if tilesPerLine x.desc ≤ b.index ∨ x.desc.h ≤ b.pos.line then s.bump (.lane l .excessTiles)
  else if x.dropMark = some b.pos then s
  else
    match x.assembly with
    | .betweenLines => openAndPlace l b s
    | .assembling p next =>
      if b.pos = p then placeBurst l b p next s
      else
        match closeTruncated l next s with
        | (s, true) => openAndPlace l b (lineCompleted l s)
        | (s, false) => openAndPlace l b s

/-! ### Lane states (R2, R7 to R12) -/

/-- An arrival in ARMED: line 0 tile 0 with board-ready high starts the run (R7); any other burst is a pre-start
burst. DESIGN CHOICE (log 28): LANE_RECOVER is raised after the records that the opening burst's own assembly raises, in
the order of the words of R7 and R10. -/
def armedArrival (l : LaneId) (b : Burst) (s : State) : State :=
  if b.pos.line = 0 ∧ b.index = 0 ∧ s.pins.boardReady.get l = true then
    let recovering := (s.lane l).recovery
    let s := s.modLane l fun x => { x with state := .running, silence := 0, recovery := false }
    let s := assemble l b (evaluateLane l s)
    if recovering then s.raise .laneRecover (laneNum l) b.pos.frame.toNat else s
  else s.bump (.lane l .preStartBursts)

/-- A burst on a board link, by lane state (R2). -/
def takeBurst (l : LaneId) (b : Burst) (s : State) : State :=
  match (s.lane l).state with
  | .stopped => s
  | .armed => armedArrival l b s
  | .running => assemble l b (s.modLane l fun x => { x with silence := 0 })
  | .faulted =>
    if s.pins.boardReady.get l then
      let s := s.modLane l fun x => { x with state := .armed, lastLine := none, dropMark := none }
      armedArrival l b (evaluateLane l s)
    else s.bump (.lane l .preStartBursts)

/-- Set a RUNNING lane FAULTED: close the line in assembly, clear the drop mark, set the recovery flag, raise LANE_FAULT
and release or evaluate (R9, R39, R44). -/
def faultLane (detail : Nat) (l : LaneId) (s : State) : State :=
  let opened := (s.lane l).assembly
  let s := lagQuietly l (s.modLane l fun x => { x with state := .faulted })
  let closed :=
    match opened with
    | .betweenLines => (s, false)
    | .assembling _ next => closeTruncated l next s
  let s := closed.1.modLane l fun x => { x with assembly := .betweenLines, dropMark := none, recovery := true }
  let s := s.raise .laneFault (laneNum l) detail
  match groupOf (s.lane l).desc with
  | some g => evaluate g s
  | none => if closed.2 then releaseOldest none l s else s

/-- A fall of board-ready faults a RUNNING lane with detail 1 and does nothing in the other states (R7, R8). -/
def boardReadyFall (l : LaneId) (s : State) : State :=
  if isRunning s l then faultLane 1 l s else s

/-- The eighth tick without a burst: the silence count reaches 8 and the lane is faulted with detail 2 (R8). -/
def silenceExpiry (l : LaneId) (s : State) : State :=
  if isRunning s l ∧ 7 ≤ (s.lane l).silence then faultLane 2 l (s.modLane l fun x => { x with silence := 8 }) else s

/-- A reference tick taken by a lane: a RUNNING lane counts it, and the eighth faults it (R8). -/
def silenceTick (l : LaneId) (s : State) : State :=
  if isRunning s l then
    if 7 ≤ (s.lane l).silence then silenceExpiry l s
    else s.modLane l fun x => { x with silence := x.silence + 1 }
  else s

/-- The assembly state of a lane that starts afresh: no line open, no last line, no drop mark, silence count 0, recovery
flag clear (R6, R11, R12). -/
def freshAssembly (x : Lane) : Lane :=
  { x with assembly := .betweenLines, lastLine := none, dropMark := none, silence := 0, recovery := false }

/-- LANE_START of a STOPPED, configured lane (R6). -/
def startLane (l : LaneId) (s : State) : State :=
  evaluateLane l (s.modLane l fun x => { freshAssembly x with state := .armed })

/-- LANE_STOP: the lane is emptied and STOPPED; its group is evaluated (R11, R31, R39, R44). A lane that is STOPPED
already is left as it is. -/
def stopLane (l : LaneId) (s : State) : State :=
  if (s.lane l).state = .stopped then s
  else
    let s := emptyLane l s
    evaluateLane l (lagQuietly l (s.modLane l fun x => { freshAssembly x with state := .stopped }))

/-- LINK_RESTART on one lane: a lane that is not STOPPED is emptied and ARMED (R12). -/
def restartLane (l : LaneId) (s : State) : State :=
  if (s.lane l).state = .stopped then s
  else
    let s := emptyLane l s
    s.modLane l fun x => { freshAssembly x with state := .armed }

/-! ### LANE_SET (R4, R5) -/

/-- The ranges of check 3 of Table 1-3. -/
def descriptorInRange (d : Descriptor) : Bool :=
  decide (256 ≤ d.w ∧ d.w ≤ 7680 ∧ 16 ≤ d.h ∧ d.h ≤ 4320 ∧ 1 ≤ d.m ∧ d.m ≤ 4 ∧ 16 ≤ d.allotment ∧ d.allotment ≤ 1536
    ∧ tilesPerLine d ≤ d.allotment)

/-- The sum of the allotments of all configured lanes, with a new descriptor in the place of one lane's (check 5). -/
def allotmentSum (s : State) (l : LaneId) (d : Descriptor) : Nat :=
  (laneIds.map fun k =>
    let x := if k = l then d else (s.lane k).desc
    if x.configured then x.allotment else 0).sum

/-- Another configured lane of the same group with a different H or m (check 6). -/
def mismatched (s : State) (l : LaneId) (d : Descriptor) : Bool :=
  laneIds.any fun k =>
    k != l && groupOf (s.lane k).desc == d.group && ((s.lane k).desc.h != d.h || (s.lane k).desc.m != d.m)

/-- Checks 2 to 7 of Table 1-3, in order. -/
def laneSetRefusal (s : State) (l : LaneId) (d : Descriptor) : Option ResultCode :=
  if (s.lane l).state ≠ .stopped then some .state
  else if d.configured then
    if !descriptorInRange d then some .range
    else if 1536 < allotmentSum s l d then some .over
    else if d.group.isSome && mismatched s l d then some .mismatch
    else if (bindingEntries s).any fun e => e.lane == l && decide (e.share < demand d) then some .shortShare
    else none
  else if names (bindingEntries s) l then some .state
  else none

/-- Replace the descriptor of a lane, and its membership with it; each group whose membership changed is evaluated
(R5, R38). -/
def installDescriptor (l : LaneId) (d : Descriptor) (s : State) : State :=
  let old := groupOf (s.lane l).desc
  let new := groupOf d
  let s := (s.setStanding l (standingAfterSet s l old new)).modLane l fun x => { x with desc := d }
  if old = new then s else evaluateOption new (evaluateOption old s)

end Sys2Proof.Machine
end

