-- ==== Sys2Proof/Machine/Reset.lean ====
section
/-! DEFINITION. Pin reset and PART_RESET (R13, R169, R174, R182). -/

namespace Sys2Proof.Machine

/-- Every block at its reset value; the input levels and the commands that wait are not the part's own and stand. -/
def resetBlocks (s : State) : State := { State.blank with pins := s.pins, pending := s.pending }

/-- While the reset input is low every block holds its pin-reset values (R182). -/
def holdReset (s : State) : State := (resetBlocks s).modPins fun p => { p with resetLow := true }

/-- The blocks start from their reset values: RESET_DONE joins the emptied head event queue, and the link, in DOWN with
the retry timer expired, enters MEASURE if the carrier is present (R148, R174). -/
def startFromReset (subject : Byte) (s : State) : State :=
  settleDown ((resetBlocks s).modEvents fun e => { e with queue := [resetDone subject] })

/-- The reset input rises (R182); an input that is high already does not. -/
def releaseReset (s : State) : State :=
  if s.pins.resetLow then startFromReset 1 (s.modPins fun p => { p with resetLow := false }) else s

/-- PART_RESET resets every block exactly as a pin reset does (R169). -/
def partReset (s : State) : State := startFromReset 2 s

end Sys2Proof.Machine
end

