-- ==== Sys2Proof/Machine/Commands.lean ====
section
/-! DEFINITION. The command unit (section 10.2): what each command of Table 10-3 does to the blocks and answers, the
permissions, the two general checks of R168, and where a response goes. -/

namespace Sys2Proof.Machine

/-- What a command answers: a result code and the data of Table 12-13. -/
structure Reply where
  result : ResultCode
  data : List Byte
  deriving DecidableEq, Repr

def doneWith (data : List Byte) : Reply := { result := .done, data := data }

def acceptedWith (data : List Byte) : Reply := { result := .accepted, data := data }

/-- A refusal carries no data unless its rule gives details (R168). -/
def refusal (r : ResultCode) : Reply := { result := r, data := [] }

/-- A refusal that changes nothing. -/
def refused (r : ResultCode) (s : State) : State × Reply := (s, refusal r)

/-! ### IDENTIFY (R169) -/

/-- Part code 3260 and revision 1. -/
def cmdIdentify (s : State) : State × Reply := (s, doneWith (bytes2 3260 ++ [1]))

/-! ### Lanes (R4, R6, R11, R22) -/

def cmdLaneSet (lane configured : Byte) (w h : Word16) (m : Byte) (allotment : Word16) (group : Byte) (s : State) :
    State × Reply :=
  match laneOf lane.toNat, yesNo configured.toNat, groupFieldOf group.toNat with
  | some l, some c, some g =>
    let d : Descriptor :=
      { configured := c, w := w.toNat, h := h.toNat, m := m.toNat, allotment := allotment.toNat, group := g }
    match laneSetRefusal s l d with
    | some r => refused r s
    | none => (installDescriptor l d s, doneWith [])
  | _, _, _ => refused .range s

def cmdLaneStart (lane : Byte) (s : State) : State × Reply :=
  match laneOf lane.toNat with
  | none => refused .range s
  | some l =>
    if (s.lane l).state = .stopped ∧ (s.lane l).desc.configured = true then (startLane l s, doneWith [])
    else refused .state s

def cmdLaneStop (lane : Byte) (s : State) : State × Reply :=
  match laneOf lane.toNat with
  | none => refused .range s
  | some l => (stopLane l s, doneWith [])

/-- A derived figure in one byte; above 255 the spec states no coding (log 20). -/
def figureByte (n : Nat) : Byte := if n < 256 then byteOf n else Config.oversizeByte n

/-- A derived figure in two bytes; above 65535 the spec states no coding (log 20). -/
def figureWord (n : Nat) : List Byte := if n < 65536 then bytes2 n else wordBytes (Config.oversizeWord n)

/-- Every counter of a group in position order, two bytes each (Table 10-7). -/
def counterBytes (s : State) (g : CounterGroup) : List Byte := (countersOf g).flatMap fun id => bytes2 (s.counter id).count

/-- The 37 bytes of a LANE_GET response (Table 12-13). -/
def laneData (l : LaneId) (s : State) : List Byte :=
  let d := (s.lane l).desc
  [byteOf (boolNum d.configured)] ++ bytes2 d.w ++ bytes2 d.h ++ [byteOf d.m] ++ bytes2 d.allotment
    ++ [byteOf (groupFieldNum d.group), figureByte (tilesPerLine d)] ++ figureWord (demand d)
    ++ [byteOf (laneStateNum (s.lane l).state)] ++ bytes2 (held s l) ++ bytes2 (s.lane l).queue.length
    ++ counterBytes s (.lane l)

def cmdLaneGet (lane : Byte) (s : State) : State × Reply :=
  match laneOf lane.toNat with
  | none => refused .range s
  | some l => (s, doneWith (laneData l s))

/-! ### GROUP_SET (R52) -/

/-- The skew argument clamped into 1 to 8. -/
def clampSkew (n : Nat) : Nat := max 1 (min 8 n)

/-- The cursor's two fields: 255 and 65535 if unset (Table 12-13). -/
def cursorBytes : Option Position → List Byte
  | none => 255 :: bytes2 65535
  | some p => p.frame.setWidth 8 :: bytes2 p.line

def memberBytes (s : State) (l : LaneId) : List Byte :=
  [byteOf (laneNum l), byteOf (standingNum (standingOr s l))]

def groupData (g : GroupId) (s : State) : List Byte :=
  let ms := members s g
  [byteOf (s.group g).skew] ++ cursorBytes (s.group g).cursor ++ [byteOf ms.length] ++ ms.flatMap (memberBytes s)

def cmdGroupSet (group skew : Byte) (s : State) : State × Reply :=
  match groupOfCode group.toNat with
  | none => refused .range s
  | some g =>
    let s := evaluate g (s.modGroup g fun x => { x with skew := clampSkew skew.toNat })
    (s, doneWith (groupData g s))

/-! ### The plan commands (R65 to R78) -/

/-- Bank number, epoch and entry count of the pending bank (Table 12-13). -/
def openData (s : State) : List Byte :=
  [byteOf (bankNum (otherId s.plan)), (pendingBank s).epoch, byteOf (pendingBank s).entries.length]

def countData (s : State) : List Byte := [byteOf (pendingBank s).entries.length]

def cmdPlanOpen (o : Origin) (s : State) : State × Reply :=
  match holdRefusal s o true with
  | some r => refused r s
  | none =>
    let s := if s.plan.hold = .free then openHold o s else restartHoldTimer s
    (s, doneWith (openData s))

/-- An edit that has passed the hold checks restarts the timer, and its own checks follow (R62). DESIGN CHOICE (log 31): it
does so too where the refusal is RANGE for an unlisted yes-or-no byte, of which R181 says that it changes nothing. -/
def editing (o : Origin) (s : State) (edit : State → State × Reply) : State × Reply :=
  match holdRefusal s o false with
  | some r => refused r s
  | none => edit (restartHoldTimer s)

/-- The edited entry list becomes the pending bank's; the answer carries the entry count. -/
def edited (es : List Entry) (s : State) : State × Reply :=
  let s := setPendingEntries es s
  (s, doneWith (countData s))

def cmdPlanPut (o : Origin) (index : Byte) (e : Option Entry) (s : State) : State × Reply :=
  editing o s fun s =>
    let es := (pendingBank s).entries
    let i := index.toNat
    if es.length ≤ i then refused .range s
    else
      match entryRefusal s e (es.eraseIdx i), e with
      | none, some e => edited (es.set i e) s
      | some r, _ => refused r s
      | none, none => refused .range s

def cmdPlanInsert (o : Origin) (index : Byte) (e : Option Entry) (s : State) : State × Reply :=
  editing o s fun s =>
    let es := (pendingBank s).entries
    let i := index.toNat
    if es.length < i then refused .range s
    else if 24 ≤ es.length then refused .full s
    else
      match entryRefusal s e es, e with
      | none, some e => edited (es.insertIdx i e) s
      | some r, _ => refused r s
      | none, none => refused .range s

def cmdPlanRemove (o : Origin) (index : Byte) (s : State) : State × Reply :=
  editing o s fun s =>
    let es := (pendingBank s).entries
    if es.length ≤ index.toNat then refused .range s else edited (es.eraseIdx index.toNat) s

/-- The next index of a read of a list: the start plus what was returned, or the count if the start is beyond the list
(R72, R113). -/
def nextIndex (count start most : Nat) : Nat := if count ≤ start then count else min count (start + most)

def cmdPlanRead (bank start : Byte) (s : State) : State × Reply :=
  match bankOf bank.toNat with
  | none => refused .range s
  | some b =>
    let x := bankGet s.plan b
    let n := x.entries.length
    (s, doneWith
      ([byteOf (bankNum b), byteOf (roleNum x.role), x.epoch, byteOf n, byteOf (holdNum s.plan.hold),
        byteOf (holderNum s.plan.hold)] ++ bytes2 (holdRemaining s.plan.hold)
        ++ [byteOf (nextIndex n start.toNat 4)] ++ entriesFrom x.entries start.toNat 4))

/-- A commit that fails answers with its details and restarts the timer (R77); one that passes starts the switch
(R78). -/
def cmdPlanCommit (o : Origin) (s : State) : State × Reply :=
  match holdRefusal s o false with
  | some r => refused r s
  | none =>
    match commitCheck s with
    | .empty => refused .empty (restartHoldTimer s)
    | .unknownLane i => (restartHoldTimer s, { result := .unknownLane, data := [byteOf i] })
    | .shortShare i q d => (restartHoldTimer s, { result := .shortShare, data := [byteOf i] ++ bytes2 q ++ bytes2 d })
    | .over sum c => (restartHoldTimer s, { result := .over, data := bytes2 sum ++ bytes2 c })
    | .passes =>
      let s := acceptCommit o s
      (s, acceptedWith [(pendingBank s).epoch, byteOf s.plan.countdown])

def cmdPlanAbandon (o : Origin) (s : State) : State × Reply :=
  match holdRefusal s o false with
  | some r => refused r s
  | none => (freeHold s, doneWith [])

/-! ### CARRY_READ (R113) -/

/-- Seven bytes for each entry: index, lane, carry state, credit and released tiles. -/
def carryEntries (s : State) : Nat → List Entry → List Runtime → List (List Byte)
  | i, e :: es, r :: rs =>
    ([byteOf i, byteOf (laneNum e.lane), byteOf (carryNum r.carry)] ++ bytes2 r.credit ++ bytes2 (releasedTiles s e.lane))
      :: carryEntries s (i + 1) es rs
  | _, _, _ => []

def carryData (start : Nat) (s : State) : List Byte :=
  let bank := activeBank s
  let n := bank.entries.length
  [byteOf (bankNum (activeId s.plan)), bank.epoch, byteOf n, byteOf (classNum s.builder.classApplied),
   byteOf (boolNum s.builder.overcommit)] ++ bytes2 s.builder.assessedTotal ++ [byteOf (nextIndex n start 8)]
    ++ (((carryEntries s 0 bank.entries s.builder.runtimes).drop start).take 8).flatten

def cmdCarryRead (start : Byte) (s : State) : State × Reply :=
  if 23 < start.toNat then refused .range s else (s, doneWith (carryData start.toNat s))

/-! ### The link commands (R139, R145 to R147) -/

/-- Class proposal, its class and its remaining count (Tables 12-13 and 12-14). -/
def proposalBytes : Proposal → List Byte
  | .idle => [0, 0, 0]
  | .proposing k => [1, byteOf (classNum k), 0]
  | .counting n k _ => [2, byteOf (classNum k), byteOf n]

/-- The 17 bytes of a LINK_STATUS response. -/
def linkData (s : State) : List Byte :=
  let c := s.link
  [byteOf (boolNum c.enable), byteOf (linkStateNum c.state), byteOf (classNum c.classInForce),
   byteOf (classOptNum c.ceiling)] ++ proposalBytes c.proposal ++ [c.lastClassEcho, byteOf (causeNum c.lastCause)]
    ++ bytes2 c.dropCount ++ [byteOf c.attempts, byteOf (criteriaNum c.criteria)]
    ++ bytes2 (s.counter (.link .baseCommandsLost)).count ++ wordBytes s.rx.lastBaseFrameCount

def cmdLinkStatus (s : State) : State × Reply := (s, doneWith (linkData s))

def cmdLinkEnable (on : Byte) (s : State) : State × Reply :=
  match yesNo on.toNat with
  | none => refused .range s
  | some true => (if s.link.state = .disabled then enableLink s else s, doneWith [])
  | some false => (if s.link.state = .disabled then s else disableLink s, doneWith [])

def cmdLinkCriteria (set : Byte) (s : State) : State × Reply :=
  let c := criteriaOf set
  (s.modLink fun l => { l with criteria := c }, doneWith [byteOf (criteriaNum c)])

/-- LINK_RETRAIN from a state that it applies in (R145). It sets the attempt count to 0 in DOWN as well (R134, log
18). -/
def retrainLink (s : State) : State :=
  if s.link.state = .down ∧ s.pins.carrier = false then
    s.modLink fun l => { l with attempts := 0, timers := { l.timers with retry := .expired } }
  else enterMeasure 0 s

def cmdLinkRetrain (s : State) : State × Reply :=
  if s.link.state = .disabled ∨ s.link.state = .test then refused .state s else (retrainLink s, acceptedWith [])

/-- The class that a CLASS_REQUEST asks for; none is a request that is clamped (R145). -/
def requestedClass (s : State) (up : Bool) : Option RateClass :=
  if up then (if belowCeiling s then stepUp s.link.classInForce else none) else stepDown s.link.classInForce

/-- The direction byte: 1 up, 2 down (Table 12-9). -/
def directionOf : Nat → Option Bool
  | 1 => some true
  | 2 => some false
  | _ => none

def cmdClassRequest (direction : Byte) (s : State) : State × Reply :=
  match directionOf direction.toNat with
  | none => refused .range s
  | some up =>
    if !isUp s then refused .state s
    else if s.link.proposal ≠ .idle then refused .busy s
    else
      match requestedClass s up with
      | none => (s, doneWith [])
      | some k => (propose k s, acceptedWith [byteOf (classNum k)])

/-- The link controller at LINK_RESTART (R145, Table 8-2): DOWN with the retry timer at 1000 ms, and DISABLED stays. -/
def restartedLink (c : LinkCtl) : LinkCtl :=
  if c.state = .disabled then
    { leaveFor .disabled c with
      classInForce := .c5, attempts := 0, lastCause := .restart, lastClassEcho := 0 }
  else
    { leaveFor .down c with
      classInForce := .c5, attempts := 0, lastCause := .restart, lastClassEcho := 0,
      timers := { Timers.stopped with retry := .running retryMs } }

/-- The records that LINK_RESTART raises, in their order, after the control-slot queues are emptied (R145): LINK_DOWN if
it is a drop, what the plan store gives, and RELAY_DISCARDED. -/
def restartRecords (s : State) : State :=
  let relayed := s.control.relayOut.length
  let s := s.modControl fun _ => ControlQueues.reset
  let s := if carriesFrames s.link.state then recordDrop .restart s else s
  let s := planRestart s
  if relayed = 0 then s else s.raise .relayDiscarded 0 relayed

/-- LINK_RESTART in the services (R155, R158, R159, R160, R179; Tables 9-3 and 11-1). -/
def restartServices (s : State) : State :=
  let s := emptySides (s.setMailbox .empty)
  let s := (s.modTally fun _ => Tally.reset).modRet fun r => { r with buffer := [] }
  s.modTest endTest

/-- LINK_RESTART in every block (R145, Table 8-5). From a state other than DOWN and DISABLED it is a loss of the link
(R63). -/
def restartLink (s : State) : State :=
  let lost := buildsFrame s.link.state
  let s := (restartRecords s).modLink restartedLink
  let s := restartGroups (State.each restartLane laneIds s)
  let s := s.modBuilder fun b => { b with runtimes := b.runtimes.map fun r => { r with credit := 0 } }
  let s := s.modPlan fun p =>
    { p with echo := .idle, baseStanding := .inStep, lossTaken := p.lossTaken || lost }
  restartServices s

def cmdLinkRestart (s : State) : State × Reply := (restartLink s, doneWith [])

/-! ### Relay messages (R153, R155) -/

def cmdRelaySend (tag : Byte) (message : List Byte) (s : State) : State × Reply :=
  if !isUp s then refused .state s
  else if 4 ≤ s.control.relayOut.length then refused .full s
  else
    (s.modControl fun c => { c with relayOut := c.relayOut ++ [{ tag := tag, bytes := message }] }, doneWith [])

def cmdRelayRead (s : State) : State × Reply :=
  match s.mailbox with
  | .empty => refused .empty s
  | .unacked m => (s, doneWith ([m.tag, 1] ++ m.bytes))
  | .acked m => (s, doneWith ([m.tag, 2] ++ m.bytes))

def cmdRelayAck (s : State) : State × Reply :=
  match s.mailbox with
  | .unacked m => (s.setMailbox (.acked m), doneWith [])
  | _ => refused .empty s

/-! ### Events (R171) -/

def cmdEventRead (s : State) : State × Reply :=
  let out := s.events.queue.take 4
  (s.modEvents fun u => { u with queue := u.queue.drop 4, lost := 0 },
   doneWith ([byteOf out.length, byteOf s.events.lost] ++ out.flatMap eventBytes))

/-- The kinds of Table 10-6 that an argument names: bits 1 to 23. -/
def maskKinds (mask : EventBits) : EventBits := mask &&& 0xFFFFFE

def cmdEventMask (o : Origin) (mask : EventBits) (s : State) : State × Reply :=
  let m := maskKinds mask
  (s.modEvents fun u =>
     match o with
     | .head => { u with headMask := m }
     | .base => { u with baseMask := m },
   doneWith (maskBytes m))

/-! ### Counters (R173) -/

def cmdCountersRead (group : Byte) (s : State) : State × Reply :=
  match counterGroupOf group.toNat with
  | none => refused .range s
  | some g => (s, doneWith (group :: counterBytes s g))

def clearCounters (g : CounterGroup) (c : Counters) : Counters :=
  (countersOf g).foldl (fun c id => counterSet c id .reset) c

def cmdCountersClear (group : Byte) (s : State) : State × Reply :=
  match counterGroupOf group.toNat with
  | none => refused .range s
  | some g => (s.modCounters (clearCounters g), doneWith [])

/-! ### Side lines and tally (R156, R159) -/

def cmdSidelineSet (line rate parity : Byte) (s : State) : State × Reply :=
  match sideOf line.toNat, rateOf rate.toNat, parityOf parity.toNat with
  | some i, some r, some p => (setSide i r p s, doneWith [])
  | _, _, _ => refused .range s

def cmdSidelineStatus (line : Byte) (s : State) : State × Reply :=
  match sideOf line.toNat with
  | none => refused .range s
  | some i =>
    let x := s.side i
    (s, doneWith [byteOf (rateNum x.rate), byteOf (parityNum x.parity), byteOf x.inQueue.length,
      byteOf x.outQueue.length, byteOf (boolNum x.shifting.isSome)])

def cmdTallyRead (s : State) : State × Reply := (s, doneWith [byteOf (tallyNum s.tally), byteOf s.tally.hold])

/-! ### Link test (R175, R178, R179) -/

def cmdTestStart (mode countMode cls : Byte) (s : State) : State × Reply :=
  match testModeOf mode.toNat, countModeOf countMode.toNat, classOf cls.toNat with
  | some m, some c, some k =>
    if s.link.state = .disabled then refused .state s
    else
      let s := startTest m c k s
      (if s.link.state = .test then s else enterTest s, doneWith [])
  | _, _, _ => refused .range s

def cmdTestStop (s : State) : State × Reply :=
  if s.link.state = .test then (leaveTest s, doneWith []) else refused .state s

def cmdTestRead (clear : Byte) (s : State) : State × Reply :=
  match yesNo clear.toNat with
  | none => refused .range s
  | some c =>
    (if c then s.modTest fun t => { t with checked := 0, errored := 0 } else s, doneWith (testData s.test))

/-! ### The command unit (R168) -/

/-- Table 10-3: every command is permitted from the head port, these from the base link. -/
def permitted : Origin → Cmd → Bool
  | .head, _ => true
  | .base, c =>
    match c with
    | .identify | .laneGet _ | .planOpen | .planPut .. | .planInsert .. | .planRemove _ | .planRead _ _ | .planCommit
    | .planAbandon | .carryRead _ | .linkStatus | .linkRetrain | .classRequest _ | .linkRestart | .eventMask _
    | .countersRead _ | .countersClear _ | .sidelineStatus _ | .tallyRead => true
    | .partReset | .laneSet .. | .laneStart _ | .laneStop _ | .groupSet _ _ | .linkEnable _ | .linkCriteria _
    | .relaySend _ | .relayRead | .relayAck | .eventRead | .sidelineSet _ _ _ | .testStart _ _ _ | .testStop
    | .testRead _ => false

/-- A command that has passed the general checks, with its tag; PART_RESET gives no reply (R169). -/
def perform (o : Origin) (tag : Byte) (c : Cmd) (s : State) : State × Option Reply :=
  let answering (x : State × Reply) : State × Option Reply := (x.1, some x.2)
  match c with
  | .identify => answering (cmdIdentify s)
  | .partReset => (partReset s, none)
  | .laneSet l c w h m a g => answering (cmdLaneSet l c w h m a g s)
  | .laneStart l => answering (cmdLaneStart l s)
  | .laneStop l => answering (cmdLaneStop l s)
  | .laneGet l => answering (cmdLaneGet l s)
  | .groupSet g k => answering (cmdGroupSet g k s)
  | .planOpen => answering (cmdPlanOpen o s)
  | .planPut i l q p t d => answering (cmdPlanPut o i (entryOf l q p t d) s)
  | .planInsert i l q p t d => answering (cmdPlanInsert o i (entryOf l q p t d) s)
  | .planRemove i => answering (cmdPlanRemove o i s)
  | .planRead b i => answering (cmdPlanRead b i s)
  | .planCommit => answering (cmdPlanCommit o s)
  | .planAbandon => answering (cmdPlanAbandon o s)
  | .carryRead i => answering (cmdCarryRead i s)
  | .linkStatus => answering (cmdLinkStatus s)
  | .linkEnable on => answering (cmdLinkEnable on s)
  | .linkCriteria c => answering (cmdLinkCriteria c s)
  | .linkRetrain => answering (cmdLinkRetrain s)
  | .classRequest d => answering (cmdClassRequest d s)
  | .linkRestart => answering (cmdLinkRestart s)
  | .relaySend m => answering (cmdRelaySend tag m s)
  | .relayRead => answering (cmdRelayRead s)
  | .relayAck => answering (cmdRelayAck s)
  | .eventRead => answering (cmdEventRead s)
  | .eventMask m => answering (cmdEventMask o m s)
  | .countersRead g => answering (cmdCountersRead g s)
  | .countersClear g => answering (cmdCountersClear g s)
  | .sidelineSet i r p => answering (cmdSidelineSet i r p s)
  | .sidelineStatus i => answering (cmdSidelineStatus i s)
  | .tallyRead => answering (cmdTallyRead s)
  | .testStart m n k => answering (cmdTestStart m n k s)
  | .testStop => answering (cmdTestStop s)
  | .testRead c => answering (cmdTestRead c s)

def responseOf (opcode tag : Byte) (r : Reply) : Response :=
  { opcode := opcode, tag := tag, result := r.result, data := r.data }

/-- The command unit takes a command (R168): none is an opcode and arguments that name no command, refused BAD_COMMAND,
as is a message of a length that RELAY_SEND does not accept; then comes NOT_PERMITTED; then the command's own rule. -/
def takeCommand (o : Origin) (opcode tag : Byte) (c : Option Cmd) (s : State) : State × Option Response :=
  match c with
  | none => (s, some (responseOf opcode tag (refusal .badCommand)))
  | some c =>
    if !c.wellFormed then (s, some (responseOf opcode tag (refusal .badCommand)))
    else if !permitted o c then (s, some (responseOf opcode tag (refusal .notPermitted)))
    else
      let x := perform o tag c s
      (x.1, x.2.map (responseOf opcode tag))

/-! ### Where a response goes (R152, R164, R168) -/

/-- The response of a head port command goes to the holding buffer. -/
def answerHead (x : State × Option Response) : State :=
  match x.2 with
  | none => x.1
  | some r => x.1.modPort fun p => { p with holding := some r }

/-- The response of a base command goes to the tail of the base response queue. -/
def answerBase (x : State × Option Response) : State :=
  match x.2 with
  | none => x.1
  | some r => x.1.modControl fun c => { c with responses := c.responses ++ [r] }

/-- A base command is executed while the base response queue holds fewer than 8; otherwise it is lost and counted
(R152). -/
def takeBaseCommand (opcode tag : Byte) (c : Option Cmd) (s : State) : State :=
  if 8 ≤ s.control.responses.length then s.bump (.link .baseCommandsLost)
  else answerBase (takeCommand .base opcode tag c s)

/-- A head command is executed while the holding buffer is empty; otherwise it is discarded as IGNORED (R164, step 1). -/
def takeHeadCommand (opcode tag : Byte) (c : Option Cmd) (s : State) : State :=
  if s.port.holding.isSome then s.modPort fun p => { p with ignored := true }
  else answerHead (takeCommand .head opcode tag c s)

/-- The base edit commands of R63 and R79: the plan commands that only a holder may give. -/
def isBaseEdit : Cmd → Bool
  | .planPut .. | .planInsert .. | .planRemove _ | .planCommit | .planAbandon => true
  | _ => false

/-- A base command reaches the command unit: in a state that receives (R149), and a plan edit also in the frame period of a
loss of the link, for one that falls together with the loss is refused by the hold checks and not lost (R63, R79; log 10).
With the modem idle for PATTERN_LOOP no other base command arrives (R177). -/
def baseArrives (c : Cmd) (s : State) : Bool := receives s || (isBaseEdit c && s.plan.lossTaken)

/-- A command row of the table: the command of an origin as its way in delivers it (log 10). While reset is low the part
ignores both ways in (R182), and a base command that does not arrive does nothing. -/
def submit (o : Origin) (tag : Byte) (c : Cmd) (s : State) : State :=
  if s.pins.resetLow then s
  else
    match o with
    | .head => takeHeadCommand c.opcode tag (some c) s
    | .base => if baseArrives c s then takeBaseCommand c.opcode tag (some c) s else s

end Sys2Proof.Machine
end

