-- ==== Sys2Proof/Machine/CommandRows.lean ====
section
/-! DEFINITION. The meanings of the command rows of the table, one for each command of Table 10-3: the command of an origin with
its tag, taken by the command unit (R152, R164, R168). What each command does stands in Machine/Commands.lean. -/

namespace Sys2Proof.Machine

/-- IDENTIFY. -/
def execIdentify (o : Origin) (tag : Byte) (s : State) : Host.Outcome State Fault Refusal :=
  .next (submit o tag .identify s)

/-- PART_RESET. -/
def execPartReset (o : Origin) (tag : Byte) (s : State) : Host.Outcome State Fault Refusal :=
  .next (submit o tag .partReset s)

/-- LANE_SET. -/
def execLaneSet (o : Origin) (tag lane configured : Byte) (w h : Word16) (m : Byte) (allotment : Word16) (group : Byte) (s : State) :
    Host.Outcome State Fault Refusal :=
  .next (submit o tag (.laneSet lane configured w h m allotment group) s)

/-- LANE_START. -/
def execLaneStart (o : Origin) (tag lane : Byte) (s : State) : Host.Outcome State Fault Refusal :=
  .next (submit o tag (.laneStart lane) s)

/-- LANE_STOP. -/
def execLaneStop (o : Origin) (tag lane : Byte) (s : State) : Host.Outcome State Fault Refusal :=
  .next (submit o tag (.laneStop lane) s)

/-- LANE_GET. -/
def execLaneGet (o : Origin) (tag lane : Byte) (s : State) : Host.Outcome State Fault Refusal :=
  .next (submit o tag (.laneGet lane) s)

/-- GROUP_SET. -/
def execGroupSet (o : Origin) (tag group skew : Byte) (s : State) : Host.Outcome State Fault Refusal :=
  .next (submit o tag (.groupSet group skew) s)

/-- PLAN_OPEN. -/
def execPlanOpen (o : Origin) (tag : Byte) (s : State) : Host.Outcome State Fault Refusal :=
  .next (submit o tag .planOpen s)

/-- PLAN_PUT. -/
def execPlanPut (o : Origin) (tag index lane : Byte) (q : Word16) (priority thinning drain : Byte) (s : State) :
    Host.Outcome State Fault Refusal :=
  .next (submit o tag (.planPut index lane q priority thinning drain) s)

/-- PLAN_INSERT. -/
def execPlanInsert (o : Origin) (tag index lane : Byte) (q : Word16) (priority thinning drain : Byte) (s : State) :
    Host.Outcome State Fault Refusal :=
  .next (submit o tag (.planInsert index lane q priority thinning drain) s)

/-- PLAN_REMOVE. -/
def execPlanRemove (o : Origin) (tag index : Byte) (s : State) : Host.Outcome State Fault Refusal :=
  .next (submit o tag (.planRemove index) s)

/-- PLAN_READ. -/
def execPlanRead (o : Origin) (tag bank start : Byte) (s : State) : Host.Outcome State Fault Refusal :=
  .next (submit o tag (.planRead bank start) s)

/-- PLAN_COMMIT. -/
def execPlanCommit (o : Origin) (tag : Byte) (s : State) : Host.Outcome State Fault Refusal :=
  .next (submit o tag .planCommit s)

/-- PLAN_ABANDON. -/
def execPlanAbandon (o : Origin) (tag : Byte) (s : State) : Host.Outcome State Fault Refusal :=
  .next (submit o tag .planAbandon s)

/-- CARRY_READ. -/
def execCarryRead (o : Origin) (tag start : Byte) (s : State) : Host.Outcome State Fault Refusal :=
  .next (submit o tag (.carryRead start) s)

/-- LINK_STATUS. -/
def execLinkStatus (o : Origin) (tag : Byte) (s : State) : Host.Outcome State Fault Refusal :=
  .next (submit o tag .linkStatus s)

/-- LINK_ENABLE. -/
def execLinkEnable (o : Origin) (tag on : Byte) (s : State) : Host.Outcome State Fault Refusal :=
  .next (submit o tag (.linkEnable on) s)

/-- LINK_CRITERIA. -/
def execLinkCriteria (o : Origin) (tag set : Byte) (s : State) : Host.Outcome State Fault Refusal :=
  .next (submit o tag (.linkCriteria set) s)

/-- LINK_RETRAIN. -/
def execLinkRetrain (o : Origin) (tag : Byte) (s : State) : Host.Outcome State Fault Refusal :=
  .next (submit o tag .linkRetrain s)

/-- CLASS_REQUEST. -/
def execClassRequest (o : Origin) (tag direction : Byte) (s : State) : Host.Outcome State Fault Refusal :=
  .next (submit o tag (.classRequest direction) s)

/-- LINK_RESTART. -/
def execLinkRestart (o : Origin) (tag : Byte) (s : State) : Host.Outcome State Fault Refusal :=
  .next (submit o tag .linkRestart s)

/-- RELAY_SEND. -/
def execRelaySend (o : Origin) (tag : Byte) (message : List Byte) (s : State) : Host.Outcome State Fault Refusal :=
  .next (submit o tag (.relaySend message) s)

/-- RELAY_READ. -/
def execRelayRead (o : Origin) (tag : Byte) (s : State) : Host.Outcome State Fault Refusal :=
  .next (submit o tag .relayRead s)

/-- RELAY_ACK. -/
def execRelayAck (o : Origin) (tag : Byte) (s : State) : Host.Outcome State Fault Refusal :=
  .next (submit o tag .relayAck s)

/-- EVENT_READ. -/
def execEventRead (o : Origin) (tag : Byte) (s : State) : Host.Outcome State Fault Refusal :=
  .next (submit o tag .eventRead s)

/-- EVENT_MASK. -/
def execEventMask (o : Origin) (tag : Byte) (mask : EventBits) (s : State) : Host.Outcome State Fault Refusal :=
  .next (submit o tag (.eventMask mask) s)

/-- COUNTERS_READ. -/
def execCountersRead (o : Origin) (tag group : Byte) (s : State) : Host.Outcome State Fault Refusal :=
  .next (submit o tag (.countersRead group) s)

/-- COUNTERS_CLEAR. -/
def execCountersClear (o : Origin) (tag group : Byte) (s : State) : Host.Outcome State Fault Refusal :=
  .next (submit o tag (.countersClear group) s)

/-- SIDELINE_SET. -/
def execSidelineSet (o : Origin) (tag line rate parity : Byte) (s : State) : Host.Outcome State Fault Refusal :=
  .next (submit o tag (.sidelineSet line rate parity) s)

/-- SIDELINE_STATUS. -/
def execSidelineStatus (o : Origin) (tag line : Byte) (s : State) : Host.Outcome State Fault Refusal :=
  .next (submit o tag (.sidelineStatus line) s)

/-- TALLY_READ. -/
def execTallyRead (o : Origin) (tag : Byte) (s : State) : Host.Outcome State Fault Refusal :=
  .next (submit o tag .tallyRead s)

/-- TEST_START. -/
def execTestStart (o : Origin) (tag mode countMode cls : Byte) (s : State) : Host.Outcome State Fault Refusal :=
  .next (submit o tag (.testStart mode countMode cls) s)

/-- TEST_STOP. -/
def execTestStop (o : Origin) (tag : Byte) (s : State) : Host.Outcome State Fault Refusal :=
  .next (submit o tag .testStop s)

/-- TEST_READ. -/
def execTestRead (o : Origin) (tag clear : Byte) (s : State) : Host.Outcome State Fault Refusal :=
  .next (submit o tag (.testRead clear) s)

end Sys2Proof.Machine
end

