-- ==== Sys2Proof/Machine/Flags.lean ====
section
/-! DEFINITION. What the outside sees without a command: the status flags of the head port (Table 10-2), the status byte
(Table 12-7) and the output pins (R167, R182). Each is computed from the state; none is stored. -/

namespace Sys2Proof.Machine

/-! ### Status flags (R166) -/

def responseReady (s : State) : Bool := s.port.holding.isSome

def eventPending (s : State) : Bool := !s.events.queue.isEmpty

def planHeldByHead (s : State) : Bool := holderOf s.plan.hold == some .head

/-- Table 12-7: bit 7 RESPONSE_READY, 6 EVENT_PENDING, 5 IGNORED, 4 FRAME_ERROR, 3 LINK_UP, 2 PLAN_HELD_BY_HEAD. -/
def statusByte (s : State) : Byte :=
  byteOf (128 * boolNum (responseReady s) + 64 * boolNum (eventPending s) + 32 * boolNum s.port.ignored
    + 16 * boolNum s.port.frameError + 8 * boolNum (isUp s) + 4 * boolNum (planHeldByHead s))

/-- Bits of a status byte that a transaction clears once it has shown them (R166). -/
def showsIgnored (status : Byte) : Bool := status.getLsbD 5

def showsFrameError (status : Byte) : Bool := status.getLsbD 4

/-! ### Output pins (R167, R182) -/

/-- The interrupt output is asserted, that is driven low; it is released while reset is low. -/
def interruptAsserted (s : State) : Bool := !s.pins.resetLow && (responseReady s || eventPending s)

/-- The modem idle hold is asserted while reset is low and while the test mode is PATTERN_LOOP (R182; log 22). -/
def idleHold (s : State) : Bool := s.pins.resetLow || s.test.mode == .patternLoop

/-- The head port data out is driven only while select is low, and not while reset is low. -/
def dataOutDriven (s : State) : Bool := !s.pins.resetLow && s.pins.selectLow

/-- The tally outputs: program, preview and call, low while reset is low. -/
def tallyPins (s : State) : Bool × Bool × Bool :=
  if s.pins.resetLow then (false, false, false) else (s.tally.program, s.tally.preview, s.tally.call)

end Sys2Proof.Machine
end

