-- ==== Sys2Proof/Machine/Port.lean ====
section
/-! DEFINITION. The head port (section 10.1): the fall and the rise of select, the COMMAND, FETCH and other
transactions, and the status byte that each shows. -/

namespace Sys2Proof.Machine

/-- The longest command frame (R163). -/
def longestFrame : Nat := 48

def zeroBytes (n : Nat) : List Byte := List.replicate n 0

/-- A transaction begins: the status byte is a snapshot of the flags, and is the first byte shifted out (R163). DESIGN CHOICE
(log 36): dataOut holds it whole from the fall of select on. -/
def openTransaction (s : State) : State :=
  let status := statusByte s
  s.modPort fun p =>
    { p with transaction := some status, dataOut := [status], rxFrame := [], rxDiscarded := false }

/-- A fall of select begins a transaction (R163). An input that is low already does not fall, and while reset is low the
part ignores the head port (R182). -/
def selectFalls (s : State) : State :=
  if s.pins.selectLow then s
  else
    let s := s.modPins fun p => { p with selectLow := true }
    if s.pins.resetLow then s else openTransaction s

/-- The status byte has been shifted out whole: IGNORED and FRAME_ERROR are cleared if it showed them (R166). -/
def clearShown (status : Byte) (s : State) : State :=
  s.modPort fun p =>
    { p with ignored := p.ignored && !showsIgnored status, frameError := p.frameError && !showsFrameError status }

/-- The bytes that follow the status byte on data out. -/
def shiftOut (bytes : List Byte) (s : State) : State := s.modPort fun p => { p with dataOut := p.dataOut ++ bytes }

/-- Select is high and no transaction is open. -/
def selectHigh (s : State) : State :=
  (s.modPins fun p => { p with selectLow := false }).modPort fun p =>
    { p with transaction := none, rxFrame := [], rxDiscarded := false }

/-- The rise of select that ends a transaction (R163), `body` being what the transaction does with its status byte. A rise
with select high takes its fall first; one with select low and no transaction open, as after a reset, ends none (R174;
log 11). -/
def endTransaction (body : Byte → State → State) (s : State) : State :=
  let s := selectFalls s
  match s.port.transaction with
  | none => selectHigh s
  | some status => if s.pins.resetLow then selectHigh s else selectHigh (body status s)

/-! ### COMMAND (R163, R164) -/

/-- The bytes after the kind byte join the receive frame, up to 48; those beyond, and a byte cut short, are
discarded. -/
def gatherFrame (bytes : List Byte) (cutShort : Bool) (s : State) : State :=
  s.modPort fun p =>
    { p with rxFrame := bytes.take longestFrame, rxDiscarded := cutShort || decide (longestFrame < bytes.length) }

/-- R164, in its order. -/
def takeFrame (s : State) : State :=
  if s.port.holding.isSome then s.modPort fun p => { p with ignored := true }
  else
    match if s.port.rxDiscarded then none else commandFrameOf s.port.rxFrame with
    | none => s.modPort fun p => { p with frameError := true }
    | some (opcode, tag, args) => takeHeadCommand opcode tag (Cmd.decode opcode args) s

/-- A COMMAND transaction: bytes of code zero are shifted out while the command bytes are shifted in. -/
def commandTransaction (bytes : List Byte) (cutShort : Bool) (status : Byte) (s : State) : State :=
  takeFrame (gatherFrame bytes cutShort (shiftOut (zeroBytes bytes.length) (clearShown status s)))

/-! ### FETCH (R165) -/

/-- The frame that a FETCH shifts out. -/
def fetchFrame (s : State) : List Byte := responseBytes (s.port.holding.getD emptyResponse)

/-- A FETCH transaction of n bytes after the status byte: the response frame, then code zero; when the whole frame has
gone the buffer is empty. -/
def fetchTransaction (n : Nat) (status : Byte) (s : State) : State :=
  let frame := fetchFrame s
  let s := shiftOut ((frame ++ zeroBytes (n - frame.length)).take n) (clearShown status s)
  if frame.length ≤ n then s.modPort fun p => { p with holding := none } else s

/-! ### Any other kind byte (R163) -/

/-- A transaction with an unknown kind byte, or with none: FRAME_ERROR is set. Without a whole first byte the status byte
was shifted out in part, so it clears no flag; dataOut holds it whole all the same (DESIGN CHOICE, log 36). -/
def invalidTransaction (kind : Option Byte) (n : Nat) (status : Byte) (s : State) : State :=
  let s :=
    match kind with
    | none => s
    | some _ => shiftOut (zeroBytes n) (clearShown status s)
  s.modPort fun p => { p with frameError := true }

end Sys2Proof.Machine
end

