-- ==== Sys2Proof/Machine/Tick.lean ====
section
/-! DEFINITION. What comes with time: a reference tick, and a millisecond of the part's own timebase. -/

namespace Sys2Proof.Machine

/-- A reference tick (R80, R161): the frame event, the verdict of the period just ended, the silence counts, the tally
hold, and the reference watch armed again. The verdict is given at a frame event that builds a frame in TRAIN_SWITCH or
UP (R136); the order of the parts is that of log 4. The tick begins a new frame period, in which no loss has been taken yet
(log 10). -/
def referenceTick (s : State) : State :=
  let supervised := supervisedState s.link.state
  let s := frameEvent (s.modPlan fun p => { p with lossTaken := false })
  let s := if supervised then superviseTick s else s
  let s := tallyTick (State.each silenceTick laneIds s)
  { s with rx := { s.rx with period := .empty, upValid := false }, refWatch := .armed }

/-! ### The millisecond timebase (R62, R161) -/

def countMs (t : Option Nat) : Option Nat := t.map (· - 1)

def countRetry : RetryTimer → RetryTimer
  | .running ms => .running (ms - 1)
  | t => t

def countHold : Hold → Hold
  | .held o ms => .held o (ms - 1)
  | h => h

/-- Every running timer loses one millisecond. -/
def countTimers (s : State) : State :=
  (s.modPlan fun p => { p with hold := countHold p.hold }).modTimers fun t =>
    { retry := countRetry t.retry, measure := countMs t.measure, offer := countMs t.offer, answer := countMs t.answer,
      margin := countMs t.margin, stepUp := countMs t.stepUp }

/-- The hold timer has run out. -/
def holdIsOut : Hold → Bool
  | .held _ 0 => true
  | _ => false

/-- What to do when a timer of the link stands at 0. -/
def whenOut (timer : Timers → Option Nat) (expiry : State → State) (s : State) : State :=
  if timer s.link.timers = some 0 then expiry s else s

/-- One millisecond of the timebase (log 3): every running timer counts, those that stand at 0 expire in the order hold,
retry, measure, offer, answer, margin, step-up, and the reference watch sees a millisecond pass. -/
def millisecond (s : State) : State :=
  let s := countTimers s
  let s := if holdIsOut s.plan.hold then holdExpiry s else s
  let s := if s.link.timers.retry = .running 0 then retryExpiry s else s
  let s := whenOut (·.measure) measureExpiry s
  let s := whenOut (·.offer) offerExpiry s
  let s := whenOut (·.answer) answerExpiry s
  let s := whenOut (·.margin) marginExpiry s
  let s := whenOut (·.stepUp) stepUpExpiry s
  referenceMs s

/-- What the block does while no command waits (log 3): a millisecond passes, and nothing while reset is low (R182). -/
def idle (s : State) : State := if s.pins.resetLow then s else millisecond s

end Sys2Proof.Machine
end

