-- ==== Sys2Proof/Machine/Upstream.lean ====
section
/-! DEFINITION. The upstream receiver (sections 9.1 and 9.2): the checks of an upstream frame and the delivery of its
parts. -/

namespace Sys2Proof.Machine

/-- A COMMAND cell: the payload is the opcode and its arguments; a cell without an opcode is answered BAD_COMMAND
(R152). -/
def takeCommandCell (tag : Byte) (payload : List Byte) (s : State) : State :=
  match payload with
  | [] => takeBaseCommand Config.absentOpcodeEcho tag none s
  | opcode :: args => takeBaseCommand opcode tag (Cmd.decode opcode args) s

/-- The control cell of a valid frame (R151): a bad cell is counted, a good one goes on by its kind. -/
def deliverCell (c : Option Cell) (s : State) : State :=
  match c with
  | none => s.bump (.link .cellCheckFailures)
  | some c =>
    if c.kind = 1 then takeCommandCell c.tag c.payload s
    else if c.kind = 2 then relayArrives { tag := c.tag, bytes := c.payload } s
    else s

/-- The header fields, each in the link states of Table 9-1. DESIGN CHOICE (log 32): a class countdown echo above 8, which
Table 12-4 does not list, is kept as the byte that arrived. -/
def deliverHeader (u : UpFrame) (s : State) : State :=
  let s := s.modRx fun r => { r with lastBaseFrameCount := u.count }
  let s := echoCompare u.echo s
  let s := if isUp s then takeClassField u.classField s else s
  let s :=
    match u.select with
    | none => s
    | some k => takeSelect k s
  let s := if supervisedState s.link.state then s.modLink fun c => { c with lastClassEcho := u.classEcho } else s
  if isUp s then setTally u.program u.preview u.call s else s

/-- The return slots: to the return port in UP, to the checker in TEST (R160, R177). -/
def deliverReturns (slots : List ReturnSlot) (s : State) : State :=
  if isUp s then State.each takeReturn slots s
  else if s.link.state = .test then State.each checkReturn slots s
  else s

/-- A valid frame, part by part: the header fields, the control cell, the auxiliary slot and the return slots, each in the
link state as it stands when the part is delivered (R150, Table 9-1; log 12). -/
def deliverFrame (u : UpFrame) (s : State) : State :=
  let s := deliverCell u.cell (deliverHeader u s)
  let s := if isUp s then takeAux u.aux s else s
  deliverReturns u.returns s

/-- The modem delivers a frame (R149). A second frame of the period, or one that fails, is counted; the first gives the
verdict of the period, with its beacon. DESIGN CHOICE (log 33): the beacon of the frame whose SELECT begins the training
switch stands with its verdict, and is the first beacon of the supervision (R136). -/
def takeUpstream (bytes : List Byte) (s : State) : State :=
  if !receives s then s
  else if s.rx.period ≠ .empty then s.bump (.link .frameCheckFailures)
  else if upFramePasses s.rx.expected bytes then
    let u := upFrameOf s.rx.expected bytes
    deliverFrame u (s.modRx fun r => { r with period := .valid u.beacon, upValid := isUp s })
  else (s.modRx fun r => { r with period := .failed }).bump (.link .frameCheckFailures)

end Sys2Proof.Machine
end

