-- ==== Sys2Proof/Machine/Events.lean ====
section
/-! DEFINITION. The meanings of the rows of the table that are events: on the reset input, the clock, the board links, the modem,
the head port, the side lines and the return port. While reset is low the part ignores all of them but the reset input,
and the input levels follow their pins (R182). -/

namespace Sys2Proof.Machine

/-- An event that the part takes unless reset is held low (R182). -/
def whenLive (f : State → State) (s : State) : State := if s.pins.resetLow then s else f s

/-! ### Reset (R182) -/

/-- PIN_RESET: the reset input falls and every block holds its pin-reset values. -/
def execPinReset (s : State) : Host.Outcome State Fault Refusal := .next (holdReset s)

/-- RESET_RELEASE: the reset input rises. -/
def execResetRelease (s : State) : Host.Outcome State Fault Refusal := .next (releaseReset s)

/-! ### Reference ticks and what ends at one -/

/-- REFERENCE_TICK (R80). -/
def execReferenceTick (s : State) : Host.Outcome State Fault Refusal := .next (whenLive referenceTick s)

/-- LANE_SILENCE_EXPIRY: the part of a tick that brings a RUNNING lane's silence count to 8 (R8; log 1). -/
def execLaneSilenceExpiry (l : LaneId) (s : State) : Host.Outcome State Fault Refusal :=
  .next (whenLive (silenceExpiry l) s)

/-- SWITCH_COUNTDOWN_END: the hand-over of the frame that carries plan countdown 1 (R116; log 1). -/
def execSwitchCountdownEnd (s : State) : Host.Outcome State Fault Refusal := .next (whenLive countdownEnd s)

/-- CLASS_COUNTDOWN_END: the hand-over of the frame that carries class countdown 1 (R144; log 1). -/
def execClassCountdownEnd (s : State) : Host.Outcome State Fault Refusal := .next (whenLive classCountEnd s)

/-- TRAIN_SWITCH_END: the hand-over of the sixteenth training switch frame (R133; log 1). -/
def execTrainSwitchEnd (s : State) : Host.Outcome State Fault Refusal := .next (whenLive trainEnd s)

/-- ECHO_WATCH_EXPIRY: the frame that brings the echo watch to 64 (R124; log 1). -/
def execEchoWatchExpiry (s : State) : Host.Outcome State Fault Refusal := .next (whenLive echoExpiry s)

/-- LOSS_CRITERION_MET: the verdict that meets an enabled criterion (R136; log 1). -/
def execLossCriterionMet (s : State) : Host.Outcome State Fault Refusal := .next (whenLive lossCriterion s)

/-- TALLY_HOLD_EXPIRY: the part of a tick that brings the hold count to 0 (R159; log 1). -/
def execTallyHoldExpiry (s : State) : Host.Outcome State Fault Refusal := .next (whenLive tallyExpiry s)

/-! ### The millisecond timers -/

/-- REFERENCE_LOST: 1 ms without a reference tick (R161). -/
def execReferenceLost (s : State) : Host.Outcome State Fault Refusal := .next (whenLive referenceGone s)

/-- HOLD_TIMER_EXPIRY (R62). -/
def execHoldTimerExpiry (s : State) : Host.Outcome State Fault Refusal := .next (whenLive holdExpiry s)

/-- RETRY_TIMER_EXPIRY (R130). -/
def execRetryTimerExpiry (s : State) : Host.Outcome State Fault Refusal := .next (whenLive retryExpiry s)

/-- MEASURE_TIMER_EXPIRY (R134). -/
def execMeasureTimerExpiry (s : State) : Host.Outcome State Fault Refusal := .next (whenLive measureExpiry s)

/-- OFFER_TIMER_EXPIRY (R134). -/
def execOfferTimerExpiry (s : State) : Host.Outcome State Fault Refusal := .next (whenLive offerExpiry s)

/-- ANSWER_TIMER_EXPIRY (R142). -/
def execAnswerTimerExpiry (s : State) : Host.Outcome State Fault Refusal := .next (whenLive answerExpiry s)

/-- MARGIN_TIMER_EXPIRY (R140). -/
def execMarginTimerExpiry (s : State) : Host.Outcome State Fault Refusal := .next (whenLive marginExpiry s)

/-- STEP_UP_TIMER_EXPIRY (R141). -/
def execStepUpTimerExpiry (s : State) : Host.Outcome State Fault Refusal := .next (whenLive stepUpExpiry s)

/-! ### Board links (R2, R8) -/

def setBoardReady (l : LaneId) (high : Bool) (s : State) : State :=
  s.modPins fun p => { p with boardReady := p.boardReady.set l high }

/-- TILE_BURST: a burst of 392 bytes with the level of board-ready; a list of another length is no burst. DESIGN CHOICE
(log 23): the level is recorded and the burst taken; a low level on a RUNNING lane is no fall of board-ready (R8, R182),
which the row BOARD_READY_FALL alone is. -/
def execTileBurst (l : LaneId) (boardReady : Bool) (bytes : List Byte) (s : State) :
    Host.Outcome State Fault Refusal :=
  if bytes.length = burstBytes then .next (whenLive (takeBurst l (burstOf bytes)) (setBoardReady l boardReady s))
  else .refused .notABurst

/-- BOARD_READY_FALL. -/
def execBoardReadyFall (l : LaneId) (s : State) : Host.Outcome State Fault Refusal :=
  .next (whenLive (boardReadyFall l) (setBoardReady l false s))

/-! ### Modem (R130, R131, R137, R140, R141, R149) -/

def setCarrier (high : Bool) (s : State) : State := s.modPins fun p => { p with carrier := high }

def setWarning (high : Bool) (s : State) : State := s.modPins fun p => { p with marginWarning := high }

/-- CARRIER_RISE: in DOWN with the retry timer expired the link enters MEASURE (R130). -/
def execCarrierRise (s : State) : Host.Outcome State Fault Refusal := .next (whenLive settleDown (setCarrier true s))

/-- CARRIER_FALL (R137). -/
def execCarrierFall (s : State) : Host.Outcome State Fault Refusal := .next (whenLive carrierLost (setCarrier false s))

/-- MARGIN_WARNING_RISE (R140); an input that is high already does not rise. -/
def execMarginWarningRise (s : State) : Host.Outcome State Fault Refusal :=
  if s.pins.marginWarning then .next s else .next (whenLive warningRises (setWarning true s))

/-- MARGIN_WARNING_FALL (R140, R141); an input that is low already does not fall. -/
def execMarginWarningFall (s : State) : Host.Outcome State Fault Refusal :=
  if s.pins.marginWarning then .next (whenLive warningFalls (setWarning false s)) else .next s

/-- MEASUREMENT_RESULT (R131). -/
def execMeasurementResult (k : RateClass) (s : State) : Host.Outcome State Fault Refusal :=
  .next (whenLive (takeMeasurement k) s)

/-- UPSTREAM_FRAME (R149). -/
def execUpstreamFrame (bytes : List Byte) (s : State) : Host.Outcome State Fault Refusal :=
  .next (whenLive (takeUpstream bytes) s)

/-! ### Head port (R163 to R166) -/

/-- SELECT_FALL. -/
def execSelectFall (s : State) : Host.Outcome State Fault Refusal := .next (selectFalls s)

/-- HEAD_COMMAND_FRAME. -/
def execHeadCommandFrame (bytes : List Byte) (cutShort : Bool) (s : State) : Host.Outcome State Fault Refusal :=
  .next (endTransaction (commandTransaction bytes cutShort) s)

/-- FETCH. -/
def execFetch (clocked : Nat) (s : State) : Host.Outcome State Fault Refusal :=
  .next (endTransaction (fetchTransaction clocked) s)

/-- A kind byte that names COMMAND or FETCH. -/
def namesKind (kind : Option Byte) : Bool := kind == some kindCommand || kind == some kindFetch

/-- INVALID_TRANSACTION: an unknown kind byte or none; a transaction of either kind is another row. -/
def execInvalidTransaction (kind : Option Byte) (clocked : Nat) (s : State) : Host.Outcome State Fault Refusal :=
  if namesKind kind then .refused .notAnInvalidKind else .next (endTransaction (invalidTransaction kind clocked) s)

/-! ### Side lines and return port (R157, R158, R160) -/

/-- SIDELINE_BYTE_RECEIVED. -/
def execSidelineByteReceived (i : SideId) (data : Byte) (parityBit stopBit : Bool) (s : State) :
    Host.Outcome State Fault Refusal :=
  .next (whenLive (sideIn i data parityBit stopBit) s)

/-- SIDELINE_BYTE_SENT. -/
def execSidelineByteSent (i : SideId) (s : State) : Host.Outcome State Fault Refusal := .next (whenLive (sideSent i) s)

/-- RETURN_TILE_TAKE. -/
def execReturnTileTake (s : State) : Host.Outcome State Fault Refusal := .next (whenLive viewfinderTakes s)

end Sys2Proof.Machine
end

