-- ==== Sys2Proof/Machine/Dispatch.lean ====
section
/-! DEFINITION. One arm for each row of the table, each one call of its meaning. -/

namespace Sys2Proof.Machine

def exec (i : Instr) (s : State) : Host.Outcome State Fault Refusal :=
  match i with
  | .pinReset => Sys2Proof.Machine.execPinReset s
  | .resetRelease => Sys2Proof.Machine.execResetRelease s
  | .referenceTick => Sys2Proof.Machine.execReferenceTick s
  | .tileBurst lane boardReady bytes => Sys2Proof.Machine.execTileBurst lane boardReady bytes s
  | .boardReadyFall lane => Sys2Proof.Machine.execBoardReadyFall lane s
  | .laneSilenceExpiry lane => Sys2Proof.Machine.execLaneSilenceExpiry lane s
  | .switchCountdownEnd => Sys2Proof.Machine.execSwitchCountdownEnd s
  | .classCountdownEnd => Sys2Proof.Machine.execClassCountdownEnd s
  | .trainSwitchEnd => Sys2Proof.Machine.execTrainSwitchEnd s
  | .echoWatchExpiry => Sys2Proof.Machine.execEchoWatchExpiry s
  | .lossCriterionMet => Sys2Proof.Machine.execLossCriterionMet s
  | .referenceLost => Sys2Proof.Machine.execReferenceLost s
  | .holdTimerExpiry => Sys2Proof.Machine.execHoldTimerExpiry s
  | .retryTimerExpiry => Sys2Proof.Machine.execRetryTimerExpiry s
  | .measureTimerExpiry => Sys2Proof.Machine.execMeasureTimerExpiry s
  | .offerTimerExpiry => Sys2Proof.Machine.execOfferTimerExpiry s
  | .answerTimerExpiry => Sys2Proof.Machine.execAnswerTimerExpiry s
  | .marginTimerExpiry => Sys2Proof.Machine.execMarginTimerExpiry s
  | .stepUpTimerExpiry => Sys2Proof.Machine.execStepUpTimerExpiry s
  | .tallyHoldExpiry => Sys2Proof.Machine.execTallyHoldExpiry s
  | .carrierRise => Sys2Proof.Machine.execCarrierRise s
  | .carrierFall => Sys2Proof.Machine.execCarrierFall s
  | .marginWarningRise => Sys2Proof.Machine.execMarginWarningRise s
  | .marginWarningFall => Sys2Proof.Machine.execMarginWarningFall s
  | .measurementResult k => Sys2Proof.Machine.execMeasurementResult k s
  | .upstreamFrame bytes => Sys2Proof.Machine.execUpstreamFrame bytes s
  | .headCommandFrame bytes cutShort => Sys2Proof.Machine.execHeadCommandFrame bytes cutShort s
  | .fetch clocked => Sys2Proof.Machine.execFetch clocked s
  | .invalidTransaction kind clocked => Sys2Proof.Machine.execInvalidTransaction kind clocked s
  | .sidelineByteReceived line data parityBit stopBit => Sys2Proof.Machine.execSidelineByteReceived line data parityBit stopBit s
  | .sidelineByteSent line => Sys2Proof.Machine.execSidelineByteSent line s
  | .returnTileTake => Sys2Proof.Machine.execReturnTileTake s
  | .identify o tag => Sys2Proof.Machine.execIdentify o tag s
  | .partReset o tag => Sys2Proof.Machine.execPartReset o tag s
  | .laneSet o tag lane configured w h m allotment group => Sys2Proof.Machine.execLaneSet o tag lane configured w h m allotment group s
  | .laneStart o tag lane => Sys2Proof.Machine.execLaneStart o tag lane s
  | .laneStop o tag lane => Sys2Proof.Machine.execLaneStop o tag lane s
  | .laneGet o tag lane => Sys2Proof.Machine.execLaneGet o tag lane s
  | .groupSet o tag group skew => Sys2Proof.Machine.execGroupSet o tag group skew s
  | .planOpen o tag => Sys2Proof.Machine.execPlanOpen o tag s
  | .planPut o tag index lane q priority thinning drain => Sys2Proof.Machine.execPlanPut o tag index lane q priority thinning drain s
  | .planInsert o tag index lane q priority thinning drain => Sys2Proof.Machine.execPlanInsert o tag index lane q priority thinning drain s
  | .planRemove o tag index => Sys2Proof.Machine.execPlanRemove o tag index s
  | .planRead o tag bank start => Sys2Proof.Machine.execPlanRead o tag bank start s
  | .planCommit o tag => Sys2Proof.Machine.execPlanCommit o tag s
  | .planAbandon o tag => Sys2Proof.Machine.execPlanAbandon o tag s
  | .carryRead o tag start => Sys2Proof.Machine.execCarryRead o tag start s
  | .linkStatus o tag => Sys2Proof.Machine.execLinkStatus o tag s
  | .linkEnable o tag on => Sys2Proof.Machine.execLinkEnable o tag on s
  | .linkCriteria o tag set => Sys2Proof.Machine.execLinkCriteria o tag set s
  | .linkRetrain o tag => Sys2Proof.Machine.execLinkRetrain o tag s
  | .classRequest o tag direction => Sys2Proof.Machine.execClassRequest o tag direction s
  | .linkRestart o tag => Sys2Proof.Machine.execLinkRestart o tag s
  | .relaySend o tag message => Sys2Proof.Machine.execRelaySend o tag message s
  | .relayRead o tag => Sys2Proof.Machine.execRelayRead o tag s
  | .relayAck o tag => Sys2Proof.Machine.execRelayAck o tag s
  | .eventRead o tag => Sys2Proof.Machine.execEventRead o tag s
  | .eventMask o tag mask => Sys2Proof.Machine.execEventMask o tag mask s
  | .countersRead o tag group => Sys2Proof.Machine.execCountersRead o tag group s
  | .countersClear o tag group => Sys2Proof.Machine.execCountersClear o tag group s
  | .sidelineSet o tag line rate parity => Sys2Proof.Machine.execSidelineSet o tag line rate parity s
  | .sidelineStatus o tag line => Sys2Proof.Machine.execSidelineStatus o tag line s
  | .tallyRead o tag => Sys2Proof.Machine.execTallyRead o tag s
  | .testStart o tag mode countMode cls => Sys2Proof.Machine.execTestStart o tag mode countMode cls s
  | .testStop o tag => Sys2Proof.Machine.execTestStop o tag s
  | .testRead o tag clear => Sys2Proof.Machine.execTestRead o tag clear s
  | .selectFall => Sys2Proof.Machine.execSelectFall s

end Sys2Proof.Machine
end

