-- ==== Sys2Proof/Safety.lean ====
section
/-! DEFINITION. What a sound state is: the laws that the data book says the part keeps, block by block. Each is a
predicate of a whole state, and the claims about them say that every step keeps them. -/

namespace Sys2Proof.Machine

/-! ### Frames: what a step may change -/

/-- The parts of the state that a frame speaks of: the blocks, with the control-slot queues one by one. -/
inductive Part where
  | pins | lanes | poolFree | release | plan | builder | announce | responses | relayOut | notices | link | rx | port
  | events | counters | mailbox | sides | tally | ret | test | refWatch | lineOut | pending
  deriving DecidableEq, Repr

/-- One part is the same in two states. -/
def Same (p : Part) (s t : State) : Prop :=
  match p with
  | .pins => t.pins = s.pins
  | .lanes => t.lanes = s.lanes
  | .poolFree => t.poolFree = s.poolFree
  | .release => t.release = s.release
  | .plan => t.plan = s.plan
  | .builder => t.builder = s.builder
  | .announce => t.control.announce = s.control.announce
  | .responses => t.control.responses = s.control.responses
  | .relayOut => t.control.relayOut = s.control.relayOut
  | .notices => t.control.notices = s.control.notices
  | .link => t.link = s.link
  | .rx => t.rx = s.rx
  | .port => t.port = s.port
  | .events => t.events = s.events
  | .counters => t.counters = s.counters
  | .mailbox => t.mailbox = s.mailbox
  | .sides => t.sides = s.sides
  | .tally => t.tally = s.tally
  | .ret => t.ret = s.ret
  | .test => t.test = s.test
  | .refWatch => t.refWatch = s.refWatch
  | .lineOut => t.lineOut = s.lineOut
  | .pending => t.pending = s.pending

/-- Every part that is not listed is the same in two states. -/
def OnlyChanges (ps : List Part) (s t : State) : Prop := ∀ p, p ∉ ps → Same p s t

/-! ### Tile pool (R23, R24, R26, R27) -/

/-- The lines of a queue that intake still assembles. -/
def assemblingIn (q : List LineRecord) : List LineRecord := q.filter fun r => r.state == .assembling

/-- The place of a line in the queue order of R26: RELEASED, then COMPLETE, then the line in assembly. -/
def lineRank : LineState → Nat
  | .released => 0
  | .complete => 1
  | .assembling => 2

/-- The queue stands in the order of R26, with a line in assembly exactly when a line is open. Every line still holds a
tile; only a RELEASED line, and only the oldest of the queue, has sent any, so that a lane has at most one partly sent line
(R27). A STOPPED lane holds nothing (R11). -/
def LaneShape (x : Lane) : Prop :=
  (x.queue.map fun r => lineRank r.state).Pairwise (· ≤ ·) ∧
    (∀ r ∈ x.queue, r.carried < r.tiles.length ∧ (r.state ≠ .released → r.carried = 0)) ∧
    (∀ r ∈ x.queue.tail, r.carried = 0) ∧ (x.state = .stopped → x.queue = []) ∧
    match x.assembly with
    | .betweenLines => assemblingIn x.queue = []
    | .assembling _ _ => ∃ r, x.queue.getLast? = some r ∧ assemblingIn x.queue = [r]

/-- The law of R23: the free buffers and the buffers held by the four lanes number 1536. -/
def PoolConserved (s : State) : Prop :=
  (∀ l, LaneShape (s.lane l)) ∧
    s.poolFree + held s .l0 + held s .l1 + held s .l2 + held s .l3 = 1536

/-- What a configured lane counts for in the sum of the allotments (R4, check 5). -/
def allotted (d : Descriptor) : Nat := if d.configured then d.allotment else 0

/-- The law of R24: no lane holds more buffers than its allotment, and the allotments of the configured lanes never sum
to more than 1536. A STOPPED lane holds no line. -/
def AllotmentsKept (s : State) : Prop :=
  (∀ l, held s l ≤ (s.lane l).desc.allotment ∧ ((s.lane l).state = .stopped → (s.lane l).queue = [])) ∧
    allotted s.lanes.l0.desc + allotted s.lanes.l1.desc + allotted s.lanes.l2.desc + allotted s.lanes.l3.desc ≤ 1536

/-! ### Plan store (R56, R57, R61, R66, R116) -/

/-- The law of R57: at most 24 entries, no lane twice. -/
def BankLaw (b : Bank) : Prop := b.entries.length ≤ 24 ∧ (b.entries.map (·.lane)).Nodup

/-- One bank is ACTIVE. While the hold is FREE the other is FREE and emptied and no switch is on its way; while the hold
is HELD or COUNTING the other is PENDING at the next epoch; a countdown or a switch due is a COUNTING hold's (R56, R61,
R66, R116). -/
def PlanLaw (p : PlanStore) : Prop :=
  BankLaw p.bank0 ∧ BankLaw p.bank1 ∧ (bankGet p (activeId p)).role = .active ∧ p.countdown ≤ 16 ∧
    (p.due.isSome = true → p.countdown = 0) ∧
    match p.hold with
    | .free => bankGet p (otherId p) = .emptied ∧ p.countdown = 0 ∧ p.due = none
    | .held _ _ =>
      (bankGet p (otherId p)).role = .pending ∧ (bankGet p (otherId p)).epoch = (bankGet p (activeId p)).epoch + 1 ∧
        p.countdown = 0 ∧ p.due = none
    | .counting _ =>
      (bankGet p (otherId p)).role = .pending ∧ (bankGet p (otherId p)).epoch = (bankGet p (activeId p)).epoch + 1 ∧
        (0 < p.countdown ∨ p.due.isSome = true)

/-- The law of R59: every entry of the active plan, and of a bank that is counting down, names a configured lane and has a
share no smaller than that lane's demand. -/
def ShareLaw (s : State) : Prop :=
  ∀ e ∈ bindingEntries s, (s.lane e.lane).desc.configured = true ∧ demand (s.lane e.lane).desc ≤ e.share

/-! ### Carriage builder (R84, R104) -/

/-- A runtime beside its entry: the credit is at most the effective share plus 15, and 0 while SHED (R84); an entry of
priority 0 is never SHED (R104). -/
def RuntimeLaw (e : Entry) (r : Runtime) : Prop :=
  (if r.carry = .shed then r.credit = 0 else r.credit ≤ effShare e.share r.carry + 15) ∧
    (e.priority = 0 → r.carry ≠ .shed)

/-- Every entry of the active plan has a runtime that keeps its law. -/
def BuilderLaw (s : State) : Prop := List.Forall₂ RuntimeLaw (activeBank s).entries s.builder.runtimes

/-! ### Link controller (R129) -/

/-- A class that is the ceiling or worse; with no ceiling known, class 5 alone. -/
def Allowed (ceiling : Option RateClass) (k : RateClass) : Prop :=
  match ceiling with
  | none => k = .c5
  | some c => classNum c ≤ classNum k

/-- The class that a proposal would bring into force. -/
def proposalClass : Proposal → Option RateClass
  | .idle => none
  | .proposing k => some k
  | .counting _ k _ => some k

/-- The law of R129, with what keeps it: the class in force is 5 throughout a measurement, and no class beyond the ceiling
is selected, proposed or counted down to. -/
def ClassLaw (s : State) : Prop :=
  Allowed s.link.ceiling s.link.classInForce ∧ (s.link.state = .measure → s.link.classInForce = .c5) ∧
    (∀ k, s.link.selected = some k → Allowed s.link.ceiling k) ∧
    ∀ k, proposalClass s.link.proposal = some k → Allowed s.link.ceiling k

/-! ### Counters and queues (R120, R152, R153, R157, R158, R160, R170, R172) -/

/-- The law of R172. -/
def CountersBounded (s : State) : Prop := ∀ id, (s.counter id).count ≤ 65535

/-- Every queue is within its capacity. -/
def QueuesBounded (s : State) : Prop :=
  s.control.announce.length ≤ 8 ∧ s.control.responses.length ≤ 8 ∧ s.control.relayOut.length ≤ 4 ∧
    s.control.notices.length ≤ 8 ∧ s.events.queue.length ≤ 32 ∧ s.events.lost ≤ 255 ∧ s.ret.buffer.length ≤ 48 ∧
    (∀ i, (s.side i).inQueue.length ≤ 64 ∧ (s.side i).outQueue.length ≤ 64) ∧
    s.plan.bank0.entries.length ≤ 24 ∧ s.plan.bank1.entries.length ≤ 24

/-! ### Reset (R182) -/

/-- Every block holds its pin-reset value. -/
def HoldsReset (s : State) : Prop := s = { State.blank with pins := s.pins, pending := s.pending }

/-- While the reset input is low, every block holds its pin-reset values. -/
def ResetLaw (s : State) : Prop := s.pins.resetLow = true → HoldsReset s

end Sys2Proof.Machine
end

