-- ==== Sys2Proof/Certificates/Slice0/Obligations.lean ====
section
/-! DEFINITION. The statements for the provers. Every statement about a command says, on hypotheses on the state and the
operands alone, the next state that the command gives: as an equation, or by the parts that it changes and a list of the
only parts that it can change (`OnlyChanges`). -/

namespace Sys2Proof.Claims

open Sys2Proof.Machine

/-! ### Words of the statements -/

/-- The outcome of a command. -/
abbrev Result : Type := Host.Outcome State Fault Refusal

/-- The row of the table for a command of an origin with its tag. -/
def row (o : Origin) (tag : Byte) : Cmd → Instr
  | .identify => .identify o tag
  | .partReset => .partReset o tag
  | .laneSet l c w h m a g => .laneSet o tag l c w h m a g
  | .laneStart l => .laneStart o tag l
  | .laneStop l => .laneStop o tag l
  | .laneGet l => .laneGet o tag l
  | .groupSet g k => .groupSet o tag g k
  | .planOpen => .planOpen o tag
  | .planPut i l q p t d => .planPut o tag i l q p t d
  | .planInsert i l q p t d => .planInsert o tag i l q p t d
  | .planRemove i => .planRemove o tag i
  | .planRead b i => .planRead o tag b i
  | .planCommit => .planCommit o tag
  | .planAbandon => .planAbandon o tag
  | .carryRead i => .carryRead o tag i
  | .linkStatus => .linkStatus o tag
  | .linkEnable on => .linkEnable o tag on
  | .linkCriteria c => .linkCriteria o tag c
  | .linkRetrain => .linkRetrain o tag
  | .classRequest d => .classRequest o tag d
  | .linkRestart => .linkRestart o tag
  | .relaySend m => .relaySend o tag m
  | .relayRead => .relayRead o tag
  | .relayAck => .relayAck o tag
  | .eventRead => .eventRead o tag
  | .eventMask m => .eventMask o tag m
  | .countersRead g => .countersRead o tag g
  | .countersClear g => .countersClear o tag g
  | .sidelineSet i r p => .sidelineSet o tag i r p
  | .sidelineStatus i => .sidelineStatus o tag i
  | .tallyRead => .tallyRead o tag
  | .testStart m n k => .testStart o tag m n k
  | .testStop => .testStop o tag
  | .testRead c => .testRead o tag c

/-- A command of an origin is taken: reset is high; a head command finds the holding buffer empty (R164); a base command
arrives in a state that receives (R149) and finds fewer than 8 responses waiting (R152). -/
def Ready (o : Origin) (s : State) : Prop :=
  s.pins.resetLow = false ∧
    match o with
    | .head => s.port.holding = none
    | .base => receives s = true ∧ s.control.responses.length < 8

/-- The state with a response placed where its origin's responses go: the holding buffer, or the tail of the base response
queue. -/
def answered (o : Origin) (r : Response) (s : State) : State :=
  match o with
  | .head => { s with port := { s.port with holding := some r } }
  | .base => { s with control := { s.control with responses := s.control.responses ++ [r] } }

/-- The command completes with this response and with the rest of the state as given. -/
def replies (o : Origin) (opcode tag : Byte) (result : ResultCode) (data : List Byte) (s : State) : Result :=
  .next (answered o { opcode := opcode, tag := tag, result := result, data := data } s)

/-- The part that a response of an origin changes. -/
def answerPart : Origin → Part
  | .head => .port
  | .base => .responses

/-- The response that a command left for its origin. -/
def Answers (o : Origin) (opcode tag : Byte) (result : ResultCode) (data : List Byte) (s t : State) : Prop :=
  let r : Response := { opcode := opcode, tag := tag, result := result, data := data }
  match o with
  | .head => t.port = { s.port with holding := some r }
  | .base => t.control.responses = s.control.responses ++ [r]

/-- A plan edit of an origin is taken: as any command of the head port; from the base link in a state that receives, and in
the frame period of a loss of the link, with which it can fall together (R63, R79; log 10). -/
def EditReady (o : Origin) (s : State) : Prop :=
  s.pins.resetLow = false ∧
    match o with
    | .head => s.port.holding = none
    | .base => (receives s = true ∨ s.plan.lossTaken = true) ∧ s.control.responses.length < 8

/-- The event unit, the notice queue and the counters stand in t as they stand in u. -/
def SameRecords (u t : State) : Prop :=
  t.events = u.events ∧ t.control.notices = u.control.notices ∧ t.counters = u.counters

/-- An event is raised between two states: the event unit, the notice queue and the counters stand as one raise of it
leaves them (R170). -/
def Raises (k : EventKind) (subject detail : Nat) (s t : State) : Prop := SameRecords (s.raise k subject detail) t

/-- A counter is incremented, and nothing else of the counters changes but for the loss of a COUNTER_HALF notice. -/
def Counts (id : CounterId) (s t : State) : Prop := SameRecords (s.bump id) t

/-- The head event queue once a record has been passed to it: at its tail where the head mask holds its kind, or lost and
counted, up to 255, where 32 wait (R170). -/
def joinedHead (e : EventRecord) (u : EventUnit) : EventUnit :=
  if u.headMask.getLsbD (eventNum e.kind) = false then u
  else if u.queue.length < 32 then { u with queue := u.queue ++ [e] }
  else { u with lost := min 255 (u.lost + 1) }

/-- The base notice queue takes a record at its tail, or loses and counts it where 8 wait (R170). -/
def noticed (e : EventRecord) (s : State) : State :=
  if s.control.notices.length < 8 then { s with control := { s.control with notices := s.control.notices ++ [e] } }
  else s.bump (.link .noticesLost)

/-- Events raised one after another: kind, subject and detail of each (R170). -/
def raiseAll : List (EventKind × Nat × Nat) → State → State
  | [], s => s
  | (k, subject, detail) :: rest, s => raiseAll rest (s.raise k subject detail)

/-- A counter incremented n times (R172). -/
def bumps : Nat → CounterId → State → State
  | 0, _, s => s
  | n + 1, id, s => bumps n id (s.bump id)

/-- The state with another value for one lane. -/
def setLane (l : LaneId) (x : Lane) (s : State) : State := { s with lanes := s.lanes.set l x }

/-- The state that a row leaves; the state itself where the row does not complete. -/
def after (i : Instr) (s : State) : State :=
  match exec i s with
  | .next t => t
  | _ => s

/-- What evaluating a group can change. -/
def evaluationChanges : List Part := [.lanes, .poolFree, .release, .events, .notices, .counters]

/-- What a drop can change. -/
def dropChanges : List Part := [.link, .plan, .announce, .relayOut, .events, .notices, .counters]

/-- The commands that Table 10-3 permits from the head port alone. -/
def headOnly : Cmd → Bool
  | .partReset | .laneSet .. | .laneStart _ | .laneStop _ | .groupSet _ _ | .linkEnable _ | .linkCriteria _
  | .relaySend _ | .relayRead | .relayAck | .eventRead | .sidelineSet _ _ _ | .testStart _ _ _ | .testStop
  | .testRead _ => true
  | .identify | .laneGet _ | .planOpen | .planPut .. | .planInsert .. | .planRemove _ | .planRead _ _ | .planCommit
  | .planAbandon | .carryRead _ | .linkStatus | .linkRetrain | .classRequest _ | .linkRestart | .eventMask _
  | .countersRead _ | .countersClear _ | .sidelineStatus _ | .tallyRead => false

/-- The plan commands that meet the hold checks, other than PLAN_OPEN (R65). -/
def isEdit : Cmd → Bool
  | .planPut .. | .planInsert .. | .planRemove _ | .planCommit | .planAbandon => true
  | _ => false

/-- The number of tiles in a line of a lane (R3). -/
def tiles (d : Descriptor) : Nat := (d.w + 255) / 256

/-! ### LANE_SET (R4) -/

/-- Check 3 of Table 1-3. -/
def InRange (d : Descriptor) : Prop :=
  (256 ≤ d.w ∧ d.w ≤ 7680) ∧ (16 ≤ d.h ∧ d.h ≤ 4320) ∧ (1 ≤ d.m ∧ d.m ≤ 4) ∧ (16 ≤ d.allotment ∧ d.allotment ≤ 1536) ∧
    tiles d ≤ d.allotment

/-- Check 5 of Table 1-3: the new allotment and those of the other configured lanes are within the pool. -/
def SumFits (s : State) (l : LaneId) (d : Descriptor) : Prop :=
  d.allotment + ((laneIds.filter fun k => k != l).map fun k => allotted (s.lane k).desc).sum ≤ 1536

/-- Check 6 of Table 1-3: the other configured lanes of the same group have the same H and m. -/
def GroupFits (s : State) (l : LaneId) (d : Descriptor) : Prop :=
  ∀ g k, d.group = some g → k ≠ l → (s.lane k).desc.configured = true → (s.lane k).desc.group = some g →
    (s.lane k).desc.h = d.h ∧ (s.lane k).desc.m = d.m

/-- The entries that LANE_SET looks at: those of the active bank, and of a pending bank that is counting down (R59). -/
def Binds (s : State) (e : Entry) : Prop :=
  e ∈ (activeBank s).entries ∨ ((∃ o, s.plan.hold = .counting o) ∧ e ∈ (pendingBank s).entries)

/-- Check 7 of Table 1-3: no binding entry of the lane has a share below the new demand. -/
def SharesFit (s : State) (l : LaneId) (d : Descriptor) : Prop :=
  ∀ e, Binds s e → e.lane = l → 16 * tiles d * d.m ≤ e.share

/-- The descriptor that the arguments of LANE_SET carry. -/
def descriptor (configured : Bool) (w h : Word16) (m : Byte) (allotment : Word16) (g : Option GroupId) : Descriptor :=
  { configured := configured, w := w.toNat, h := h.toNat, m := m.toNat, allotment := allotment.toNat, group := g }

/-- The group that a descriptor makes its lane a member of (R38). -/
def groupNamed (d : Descriptor) : Option GroupId := if d.configured then d.group else none

/-- The evaluation of a group, if there is one (R44). -/
def evaluated : Option GroupId → State → State
  | none, s => s
  | some g, s => evaluate g s

/-- The state after an accepted LANE_SET (R4, R5, R38): the descriptor alone where the membership stays; else the lane joins
LAGGING or is without a standing, and the group it left and then the group it joined are evaluated. -/
def laneSet (l : LaneId) (d : Descriptor) (s : State) : State :=
  let old := groupNamed (s.lane l).desc
  let new := groupNamed d
  let placed := setLane l { s.lane l with desc := d } s
  if old = new then placed
  else evaluated new (evaluated old (placed.setStanding l (if new = none then none else some .lagging)))

/-- A lane as LANE_START or LANE_STOP leaves it: between lines with no last line and no drop mark, its silence count 0 and
its recovery flag clear (R6, R11). -/
def fresh (state : LaneState) (queue : List LineRecord) (x : Lane) : Lane :=
  { x with
    state := state, assembly := .betweenLines, lastLine := none, dropMark := none, silence := 0, recovery := false,
    queue := queue }

/-- The lane emptied and STOPPED (R11, R31): its buffers are back, a partly sent line is counted as cut. -/
def laneStopped (l : LaneId) (s : State) : State :=
  let s' : State := { setLane l (fresh .stopped [] (s.lane l)) s with poolFree := s.poolFree + held s l }
  if (s.lane l).queue.any partlySent then s'.bump (.lane l .cutLines) else s'

/-! ### The plan store -/

/-- The plan store with another entry list in the pending bank, and the hold timer restarted for its holder (R62). -/
def editedPlan (o : Origin) (es : List Entry) (s : State) : PlanStore :=
  { bankSet s.plan (otherId s.plan) { pendingBank s with entries := es } with hold := .held o 2000 }

/-- The timer alone is restarted. -/
def restarted (o : Origin) (s : State) : State := { s with plan := { s.plan with hold := .held o 2000 } }

/-- A bank passes the checks of a commit at a class (R74 to R76). -/
def Commits (s : State) (k : RateClass) : Prop :=
  let es := (pendingBank s).entries
  es ≠ [] ∧ (∀ e ∈ es, (s.lane e.lane).desc.configured = true) ∧
    (∀ e ∈ es, 16 * tiles (s.lane e.lane).desc * (s.lane e.lane).desc.m ≤ e.share) ∧
    ((es.filter fun e => e.priority == 0).map (·.share)).sum ≤ 16 * (slotsDown k - 2)

/-- The class of the priority-0 check (Table 4-7). -/
def checkClass (s : State) : RateClass := if s.link.state = .up then s.link.classInForce else .c1

/-- A switch was announced while the link was UP (R126). -/
abbrev Announced (s : State) : Prop := 0 < s.plan.countdown ∨ s.plan.due = some .counted

/-- The whole plan store after a loss of the link: the echo watch is idle (R124) and the loss is noted (log 10). A hold that
is FREE, one of the head port in HELD, and a switch committed while the link was not UP stand with the rest of the store; a
base hold in HELD is dropped with its pending bank (R63); an announced switch is cancelled, to HELD with its bank for the
head port, and dropped with its bank for the base (R126, R127). -/
def lostPlan (s : State) : PlanStore :=
  let stands : PlanStore := { s.plan with echo := .idle, lossTaken := true }
  let dropped : PlanStore := { bankSet stands (otherId s.plan) .emptied with hold := .free }
  match s.plan.hold with
  | .free => stands
  | .held .head _ => stands
  | .held .base _ => dropped
  | .counting .head =>
    if Announced s then { stands with hold := .held .head 2000, countdown := 0, due := none } else stands
  | .counting .base => if Announced s then { dropped with countdown := 0, due := none } else stands

/-- What the plan store, the announcement queue and the relay-out queue do at a loss of the link (R63, R121, R124, R126,
R127, R153). -/
def LinkLost (s t : State) : Prop :=
  t.control.announce = [] ∧ t.control.relayOut = [] ∧ t.plan = lostPlan s

/-- The records of the plan store at a loss of the link (R63, R126, R127). -/
def planLossEvents (s : State) : List (EventKind × Nat × Nat) :=
  let epoch := (pendingBank s).epoch.toNat
  let announced : Bool := decide (0 < s.plan.countdown) || s.plan.due == some .counted
  match s.plan.hold with
  | .free => []
  | .held .head _ => []
  | .held .base _ => [(.holdDropped, 2, epoch)]
  | .counting .head => if announced then [(.switchCancelled, 1, epoch)] else []
  | .counting .base => if announced then [(.switchCancelled, 2, epoch), (.holdDropped, 2, epoch)] else []

/-- RELAY_DISCARDED with the number of messages lost, if there is one (R153). -/
def relayEvents (s : State) : List (EventKind × Nat × Nat) :=
  if s.control.relayOut.length = 0 then [] else [(.relayDiscarded, 0, s.control.relayOut.length)]

/-- The records of a loss of the link, in the model's order (log 13). -/
def lossEvents (s : State) : List (EventKind × Nat × Nat) := planLossEvents s ++ relayEvents s

/-- The records of a drop: LINK_DOWN with the class in force and the cause (R138), then those of the loss (log 13). -/
def dropEvents (cause : Cause) (s : State) : List (EventKind × Nat × Nat) :=
  (.linkDown, classNum s.link.classInForce, causeNum cause) :: lossEvents s

/-- The records of the plan store at LINK_RESTART, which drops any hold (R64, R127). -/
def planRestartEvents (s : State) : List (EventKind × Nat × Nat) :=
  let epoch := (pendingBank s).epoch.toNat
  match s.plan.hold with
  | .free => []
  | .held o _ => [(.holdDropped, originNum o, epoch)]
  | .counting o => [(.switchCancelled, originNum o, epoch), (.holdDropped, originNum o, epoch)]

/-! ### The link controller -/

/-- The link controller measuring, with an attempt count (R131). -/
def measuring (attempts : Nat) (c : LinkCtl) : LinkCtl :=
  { c with
    state := .measure, classInForce := .c5, attempts := attempts, selected := none, trainFrames := 0, proposal := .idle,
    pendingRefusal := false, supervision := { syncRun := 0, beaconStall := 0, lastBeacon := none, window := [] },
    timers := { retry := .stopped, measure := some 400, offer := none, answer := none, margin := none, stepUp := none },
    measureRequests := c.measureRequests + 1 }

/-- The link controller outside the states that carry frames, with every timer but the retry timer stopped, no proposal and
no refusal (R138, R146). -/
def resting (state : LinkState) (retry : RetryTimer) (c : LinkCtl) : LinkCtl :=
  { c with
    state := state, selected := none, trainFrames := 0, proposal := .idle, pendingRefusal := false,
    supervision := { syncRun := 0, beaconStall := 0, lastBeacon := none, window := [] },
    timers := { retry := retry, measure := none, offer := none, answer := none, margin := none, stepUp := none } }

/-- The states that a drop leaves. -/
def Carrying (c : LinkState) : Prop := c = .measure ∨ c = .offer ∨ c = .trainSwitch ∨ c = .up

/-- The supervision counts once the verdict of the frame period has been taken (R136): the sync run, the beacon stall, the
last beacon and the verdicts of the last 256 periods. That the stall stands across a frame that is not VALID is the model's
reading (log 14). -/
def judged (s : State) : Supervision :=
  let c := s.link.supervision
  match s.rx.period with
  | .empty => { c with syncRun := c.syncRun + 1, window := (.missing :: c.window).take 256 }
  | .failed => { c with syncRun := c.syncRun + 1, window := (.failed :: c.window).take 256 }
  | .valid b =>
    { syncRun := 0, beaconStall := if c.lastBeacon = some b then c.beaconStall + 1 else 0, lastBeacon := some b,
      window := (.valid :: c.window).take 256 }

/-- The three criteria that a verdict can meet, each with its enable (R136). -/
abbrev SyncMet (s : State) : Prop := s.link.criteria.sync = true ∧ 4 ≤ (judged s).syncRun
abbrev BeaconMet (s : State) : Prop := s.link.criteria.beacon = true ∧ 64 ≤ (judged s).beaconStall
abbrev BurstMet (s : State) : Prop :=
  s.link.criteria.burst = true ∧ 16 ≤ ((judged s).window.filter fun v => v == .failed).length

/-- A drop into DOWN (R138): the cause, the drop count, the retry timer at 1000 ms; the class in force, the ceiling, the
enables and the attempts stand; and it is a loss of the link for the other blocks. -/
def Dropped (cause : Cause) (s t : State) : Prop :=
  t.link = { resting .down (.running 1000) s.link with
    lastCause := cause, dropCount := min 65535 (s.link.dropCount + 1) } ∧
  LinkLost s t

/-- A drop into DOWN with the records that it raises (R63, R126, R127, R138, R153). -/
def Drops (cause : Cause) (s t : State) : Prop :=
  Dropped cause s t ∧ SameRecords (raiseAll (dropEvents cause s) s) t

/-! ### The timebase -/

/-- The state with one millisecond gone from every timer that runs (log 3). -/
def counted (s : State) : State :=
  let less (t : Option Nat) : Option Nat := t.map fun ms => ms - 1
  { s with
    plan := { s.plan with
      hold := match s.plan.hold with
        | .held o ms => .held o (ms - 1)
        | h => h },
    link := { s.link with
      timers := {
        retry := match s.link.timers.retry with
          | .running ms => .running (ms - 1)
          | r => r,
        measure := less s.link.timers.measure, offer := less s.link.timers.offer, answer := less s.link.timers.answer,
        margin := less s.link.timers.margin, stepUp := less s.link.timers.stepUp } } }

/-- The seven timers, each with the test that it stands at 0 and the row of its expiry, in the model's order (log 3). -/
def timerRows : List ((State → Bool) × Instr) :=
  [(fun s => s.plan.hold == .held .head 0 || s.plan.hold == .held .base 0, .holdTimerExpiry),
   (fun s => s.link.timers.retry == .running 0, .retryTimerExpiry),
   (fun s => s.link.timers.measure == some 0, .measureTimerExpiry),
   (fun s => s.link.timers.offer == some 0, .offerTimerExpiry),
   (fun s => s.link.timers.answer == some 0, .answerTimerExpiry),
   (fun s => s.link.timers.margin == some 0, .marginTimerExpiry),
   (fun s => s.link.timers.stepUp == some 0, .stepUpTimerExpiry)]

/-- The rows of the timers that stand at 0, run one after another. -/
def expired : List ((State → Bool) × Instr) → State → State
  | [], s => s
  | (out, i) :: rest, s => expired rest (if out s then after i s else s)

/-- The reference watch sees a millisecond pass (R161; log 3). -/
def watched (s : State) : State :=
  match s.refWatch with
  | .armed => { s with refWatch := .quiet }
  | .quiet => { s.raise .referenceLost 0 0 with refWatch := .fired }
  | .fired => s

/-! ### Intake -/

/-- A new line in assembly, with its tiles (R15). -/
def openedLine (pos : Position) (ts : List Tile) : LineRecord :=
  { pos := pos, tiles := ts, truncated := false, mark := none, state := .assembling, carried := 0 }

/-- The tile of a burst whose check is right or wrong (R1, R14). -/
def arrived (b : Burst) : Tile :=
  { index := b.index, samples := storedSamples b, damaged := !b.ok, filled := false }

/-- A fill tile (R17). -/
def filler (index : Nat) : Tile :=
  { index := index, samples := List.replicate 256 0, damaged := false, filled := true }

/-- The fill tiles of the positions from one up to, not including, another. -/
def fillers (start stop : Nat) : List Tile := (List.range' start (stop - start)).map filler

/-- How many buffers the pool can still give a lane (R19, R25). -/
def room (s : State) (l : LaneId) : Nat := min ((s.lane l).desc.allotment - held s l) s.poolFree

/-- A line of a lane gets more tiles, each with a buffer of its own. -/
def withTiles (l : LaneId) (before : List LineRecord) (r : LineRecord) (assembly : Assembly) (s : State) (n : Nat) : State :=
  { setLane l { s.lane l with assembly := assembly, queue := before ++ [r] } s with poolFree := s.poolFree - n }

/-- The line in assembly is dropped (R19) after n of the tiles that it wanted have been placed: its buffers are back, the
drop mark stands, and it is counted. -/
def droppedLine (l : LaneId) (before : List LineRecord) (r : LineRecord) (fills : Nat) (s : State) : State :=
  (bumps fills (.lane l .fillTiles)
    { setLane l { s.lane l with assembly := .betweenLines, dropMark := some r.pos, queue := before } s with
      poolFree := s.poolFree + r.tiles.length }).bump (.lane l .lineDrops)

/-- The line in assembly is closed by fill tiles from an index on (R16, R9): TRUNCATED and COMPLETE, or dropped where a
buffer for one of them cannot be had. -/
def closedLine (l : LaneId) (before : List LineRecord) (r : LineRecord) (next : Nat) (s : State) : State :=
  let n := tiles (s.lane l).desc - next
  if n ≤ room s l then
    let closed := { r with
      tiles := r.tiles ++ fillers next (tiles (s.lane l).desc), truncated := true, state := LineState.complete }
    bumps n (.lane l .fillTiles)
      (withTiles l before closed .betweenLines (setLane l { s.lane l with dropMark := none } s) n)
  else droppedLine l before r (room s l) s

/-- A position follows another in a board of H lines a frame (R15). -/
def Follows (h : Nat) (last p : Position) : Prop :=
  (p.frame = last.frame ∧ p.line = last.line + 1) ∨ (last.line + 1 = h ∧ p.line = 0 ∧ p.frame = last.frame + 1)

/-- The state in which a burst on a RUNNING lane is assembled: the level of board-ready recorded and the silence count at 0
(R8; log 23). -/
def heard (l : LaneId) (ready : Bool) (s : State) : State :=
  setLane l { s.lane l with silence := 0 } { s with pins := { s.pins with boardReady := s.pins.boardReady.set l ready } }

/-! ### Groups -/

/-- The lines of a queue as a release alone of every COMPLETE one leaves them while they are carried (R42). -/
def releasedAlone (q : List LineRecord) : List LineRecord :=
  q.map fun r => if r.state = .complete then { r with state := .released, mark := some .outOfStep } else r

/-- A member's head is behind the cursor, or ahead of it: a hole (Table 3-3). -/
def HeadJudged (j : Judgement) (s : State) (c : Position) (l : LaneId) : Prop :=
  ∃ p, headOf s l = some p ∧ judge p c = j

/-- The first members of a group hold no line behind the cursor, and this one does (R46). -/
def FirstBehind (s : State) (g : GroupId) (c : Position) (l : LaneId) : Prop :=
  ∃ before rest, members s g = before ++ l :: rest ∧ HeadJudged .behind s c l ∧ ∀ k ∈ before, ¬ HeadJudged .behind s c k

/-- The members of a group whose head is at the cursor, in lane number order. -/
def presentAt (s : State) (g : GroupId) (c : Position) : List LaneId :=
  (members s g).filter fun l => headOf s l == some c

/-- The IN_STEP members of a group without a COMPLETE line: those that are waited for. -/
def waitedFor (s : State) (g : GroupId) : List LaneId :=
  (members s g).filter fun l => headOf s l == none && s.standing l == some .inStep

/-- A group release at the cursor (R43, R47, R48): every present line released, the present RUNNING members that lag
rejoined, the cursor one line on. -/
def groupReleased (mark : Option GroupMark) (g : GroupId) (c : Position) (s : State) : State :=
  let present := presentAt s g c
  let rejoins := present.filter fun l => s.standing l != some .inStep && (s.lane l).state == .running
  let h := match members s g with
    | [] => 0
    | l :: _ => (s.lane l).desc.h
  let next : Position := if c.line + 1 < h then { c with line := c.line + 1 } else { frame := c.frame + 1, line := 0 }
  let s := State.each (releaseOldest mark) present s
  let s := State.each (fun l s => (s.setStanding l (some .inStep)).raise .groupRejoin (laneNum l) (groupNum g)) rejoins s
  s.modGroup g fun x => { x with cursor := some next }

/-- The lag trigger (R49): the members that are waited for lag, each with GROUP_LAG. -/
def groupLagged (g : GroupId) (s : State) : State :=
  State.each (fun l s => (s.setStanding l (some .lagging)).raise .groupLag (laneNum l) (groupNum g)) (waitedFor s g) s

/-! ### Frames -/

/-- The released tiles of a lane, oldest first, each with its line (R27). -/
def releasedList (q : List LineRecord) : List (LineRecord × Tile) :=
  (q.filter fun r => r.state == .released).flatMap fun r => (r.tiles.drop r.carried).map fun t => (r, t)

/-- The label of a tile of a line for an entry (R94, R95). -/
def labelled (entry : Nat) (l : LaneId) (tpl : Nat) (x : LineRecord × Tile) : TileLabel :=
  { entry := entry, lane := l, pos := x.1.pos, index := x.2.index,
    marks := { damaged := x.2.damaged, filled := x.2.filled, truncated := x.1.truncated, group := x.1.mark,
               lastOfLine := x.2.index + 1 == tpl } }

/-- The lanes lose their released tiles (R30, R87, R106), in the order of a list: the RELEASED lines go, the buffers return,
and a partly sent line is counted as cut. -/
def cutReleased (ls : List LaneId) (s : State) : State :=
  State.each (fun l s' => if ((s.lane l).queue.filter fun r => r.state == .released).any partlySent then
    s'.bump (.lane l .cutLines) else s') ls s

/-- What the lanes and the pool are once some lanes have lost their released tiles. -/
def LoseReleased (Loses : LaneId → Prop) (s t : State) : Prop :=
  (∀ l, Loses l → t.lane l = { s.lane l with queue := (s.lane l).queue.filter fun r => r.state != .released }) ∧
    (∀ l, ¬ Loses l → t.lane l = s.lane l) ∧
    ∃ n : LaneId → Nat, (∀ l, Loses l → n l = releasedTiles s l) ∧ (∀ l, ¬ Loses l → n l = 0) ∧
      t.poolFree = s.poolFree + n .l0 + n .l1 + n .l2 + n .l3

/-- The steps of the ladder in their order (R104): at each level thinning, then shedding but for level 0, each over the
entries in reverse plan order. -/
def ladderSteps (es : List Entry) : List (Nat × CarryState) :=
  ([3, 2, 1, 0] : List (Fin 4)).flatMap fun p =>
    let level := (List.range es.length).reverse.filter fun i => (es[i]?).any fun e => e.priority == p
    ((level.filter fun i => (es[i]?).any fun e => e.thinning).map fun i => (i, CarryState.thinned)) ++
      if p = 0 then [] else level.map fun i => (i, CarryState.shed)

/-- The carry states after the first steps of the ladder. -/
def ladderAfter (es : List Entry) (n : Nat) : List CarryState :=
  ((ladderSteps es).take n).foldl (fun cs x => cs.set x.1 x.2) (es.map fun _ => .carried)

/-- The total of the effective shares under carry states (Table 5-2). -/
def totalUnder (es : List Entry) (cs : List CarryState) : Nat := ((es.zip cs).map fun x => effShare x.1.share x.2).sum

/-- The state in which a frame event begins: the frame count one higher (R81), in a new frame period (log 10). -/
def atFrame (s : State) : State :=
  { s with
    plan := { s.plan with lossTaken := false }, builder := { s.builder with frameCount := s.builder.frameCount + 1 } }

/-- A queue of the control slot holds something. -/
def CellWaits (s : State) : Prop :=
  s.control.announce ≠ [] ∨ s.control.responses ≠ [] ∨ s.control.relayOut ≠ [] ∨ s.control.notices ≠ []

/-- The control cell of a frame is that of R122, chosen from the queues as the tick finds them; with all of them empty, and
no notice of the tick itself, it is IDLE. -/
def CarriesCell (s : State) (f : Frame) : Prop :=
  s.plan.due = none →
    (CellWaits s → f.control = (chooseCell (atFrame s)).1) ∧
    (¬ CellWaits s → s.events.baseMask = 0 → f.control = { kind := 0, tag := 0, payload := [] })

/-- The chosen cell has left its queue, and no other cell has but by a loss of the link, an entry into UP or a repeated
announcement; the notices of the tick join at the tail. -/
def CellLeaves (s t : State) : Prop :=
  s.plan.due = none →
    let left := (chooseCell (atFrame s)).2.control
    t.control.responses = left.responses ∧ left.notices <+: t.control.notices ∧
    (t.link.state = s.link.state → t.control.relayOut = left.relayOut ∧
      ((∀ n r last, s.plan.echo = .running n r last → n < 63) → t.control.announce = left.announce))

/-- The header fields that every frame takes in the same way from the plan store and the builder (R98, R99, R116). -/
def CommonHeader (s t : State) (f : Frame) : Prop :=
  f.header.planCountdown = s.plan.countdown ∧
    (s.plan.due = none ∨ s.plan.countdown = 0 →
      f.header.pendingEpoch = if s.plan.countdown = 0 then none else some (pendingBank s).epoch) ∧
    f.header.activeEpoch = (match s.plan.due with
      | none => (activeBank s).epoch
      | some _ => (pendingBank s).epoch) ∧
    f.header.overcommit = t.builder.overcommit ∧
    (PlanLaw s.plan → BuilderLaw s →
      f.header.carry = (List.range 24).map fun i => (t.builder.runtimes[i]?).map fun r => r.carry)

/-- A slot of each kind. -/
def isData : DataSlot → Bool
  | .data _ _ => true
  | _ => false

def isDrain : DataSlot → Bool
  | .drain _ _ => true
  | _ => false

/-! ### Formats -/

/-- A byte of a sequence as a number, and two of them as a field sent most significant byte first; code zero beyond the
end. -/
def at1 (bytes : List Byte) (i : Nat) : Nat := (bytes.getD i 0).toNat
def at2 (bytes : List Byte) (i : Nat) : Nat := 256 * at1 bytes i + at1 bytes (i + 1)

/-- A number in two bytes, most significant first. -/
def two (n : Nat) : List Byte := [byteOf (n / 256), byteOf n]

/-- The 256 samples that stand in 384 bytes from a place on, two samples in three bytes: the first sample's 12 bits, then
the second's (Table 12-1). -/
def SamplesAt (bytes : List Byte) (start : Nat) (xs : List Sample) : Prop :=
  xs.length = 256 ∧
    ∀ (k : Nat) (x y : Sample), k < 128 → xs[2 * k]? = some x → xs[2 * k + 1]? = some y →
      let i := start + 3 * k
      x.toNat = 16 * at1 bytes i + at1 bytes (i + 1) / 16 ∧
        y.toNat = 256 * (at1 bytes (i + 1) % 16) + at1 bytes (i + 2)

/-- One bit fed into a check register whose generator has these terms below the highest (R180): every stage moves up, and
the highest exclusive-or the bit enters the stages of the terms. -/
def Fed {n : Nat} (terms : List Nat) (r : BitVec n) (bit : Bool) (r' : BitVec n) : Prop :=
  ∀ k, k < n → r'.getLsbD k =
    ((decide (0 < k) && r.getLsbD (k - 1)) ^^ (decide (k ∈ terms) && (r.getLsbD (n - 1) ^^ bit)))

/-- A check register after a sequence of bytes, each byte most significant bit first, from all ones on (R180). -/
def Checked {n : Nat} (terms : List Nat) (bytes : List Byte) (r : BitVec n) : Prop :=
  ∃ st : Nat → BitVec n, st 0 = BitVec.allOnes n ∧ st (8 * bytes.length) = r ∧
    ∀ (i k : Nat) (b : Byte), bytes[i]? = some b → k < 8 → Fed terms (st (8 * i + k)) (b.getLsbD (7 - k)) (st (8 * i + k + 1))

/-- The state of the pattern generator at each step, for a sequence number (R176): stage k is bit k - 1. -/
def PatternSteps (seq : Word16) (st : Nat → BitVec 15) : Prop :=
  (st 0).toNat = (if seq.toNat % 32768 = 0 then 1 else seq.toNat % 32768) ∧
    ∀ t, (st (t + 1)).getLsbD 0 = ((st t).getLsbD 13 ^^ (st t).getLsbD 14) ∧
      ∀ k, k < 14 → (st (t + 1)).getLsbD (k + 1) = (st t).getLsbD k

/-! ### Upstream -/

/-- The state with the frame of this period taken as valid (R149, R150). -/
def tookFrame (u : UpFrame) (s : State) : State :=
  { s with rx := { s.rx with lastBaseFrameCount := u.count, period := .valid u.beacon, upValid := isUp s } }

/-- The tile of a return slot (R160). -/
def returned (r : ReturnSlot) : ReturnTile :=
  { frame := r.frame, line := r.line, index := r.index, lastOfLine := r.lastOfLine, samples := r.samples }

/-- The header fields that the link controller and the tally take from a valid frame, by the link state (Table 9-1). -/
def headerTaken (u : UpFrame) (s : State) : State :=
  let echoed (s : State) : State := { s with link := { s.link with lastClassEcho := u.classEcho } }
  match s.link.state with
  | .up =>
    { echoed (takeClassField u.classField s) with
      tally := { program := u.program, preview := u.preview, call := u.call, hold := 32 } }
  | .trainSwitch => echoed s
  | .offer =>
    match u.select with
    | none => s
    | some k => if (takeSelect k s).link.state = .trainSwitch then echoed (takeSelect k s) else s
  | _ => s

/-- What the control cell of a valid frame does (R151, R152, R154, R168): none is a cell that fails. -/
def CellTaken (cell : Option Cell) (h c : State) : Prop :=
  match cell with
  | none => c = h.bump (.link .cellCheckFailures)
  | some x =>
    (x.kind = 0 → c = h) ∧
    (x.kind = 2 → c = relayArrives { tag := x.tag, bytes := x.payload } h) ∧
    (x.kind = 1 →
      (8 ≤ h.control.responses.length → c = h.bump (.link .baseCommandsLost)) ∧
      (h.control.responses.length < 8 →
        let bad (echo : Byte) : State := answered .base { opcode := echo, tag := x.tag, result := .badCommand, data := [] } h
        (x.payload = [] → ∃ echo, c = bad echo) ∧
        ∀ opcode args, x.payload = opcode :: args →
          (Cmd.decode opcode args = none → c = bad opcode) ∧
          ∀ cmd, Cmd.decode opcode args = some cmd → exec (row .base x.tag cmd) h = .next c))

/-- The link controller with its class proposal back at none (R140, R141, R142): the answer timer stops; the margin timer
starts if the warning is present; otherwise the step-up timer is set to 30 s when asked. -/
def withdrawn (warning setStepUp : Bool) (c : LinkCtl) : LinkCtl :=
  { c with
    proposal := .idle,
    timers :=
      if warning then { c.timers with answer := none, margin := some 100, stepUp := none }
      else { c.timers with answer := none, margin := none, stepUp := if setStepUp then some 30000 else c.timers.stepUp } }

/-- The class change that is due takes effect (R83 step 2, R144): the class in force, CLASS_CHANGED with the new and the
former class, and the proposal back at none with its timers. -/
def changedClass (s : State) : State :=
  match s.link.proposal with
  | .counting 0 k _ =>
    { s.raise .classChanged (classNum k) (classNum s.link.classInForce) with
      link := { withdrawn s.pins.marginWarning true s.link with classInForce := k } }
  | _ => s

/-- The state in which a frame event in UP fills its data slots (R83, steps 1 to 3): the switch that is due, the class
change that is due, the class as applied, and one assessment at a switch, a new class or the first frame in UP (R102). -/
def prepared (s : State) : State :=
  let u := changedClass (takeSwitch (atFrame s))
  let v : State := { u with builder := { u.builder with classApplied := u.link.classInForce } }
  let w := if s.plan.due ≠ none ∨ s.builder.classApplied ≠ u.link.classInForce ∨ s.builder.firstInUp = true then assess v
    else v
  { w with builder := { w.builder with firstInUp := false } }

/-- BASE_OUT_OF_STEP at a frame that brings the echo watch to 64 from IN_STEP; a watch that a switch starts within the frame
event does not count it (R124). -/
def echoRecorded (s u : State) : State :=
  match s.plan.due, s.plan.echo, s.plan.baseStanding with
  | none, .running n _ last, .inStep =>
    if 63 ≤ n then u.raise .baseOutOfStep (activeBank s).epoch.toNat (match last with
      | none => 256
      | some e => e.toNat)
    else u
  | _, _, _ => u

/-- The link controller counting down to an agreed class (R144). -/
def countingDown (k : RateClass) (byBase : Bool) (c : LinkCtl) : LinkCtl :=
  { c with
    proposal := .counting 8 k byBase, pendingRefusal := false, timers := { c.timers with answer := none, margin := none } }

/-- The state at the start of a transaction's body: select low, the flags of the status byte shown and cleared (R163,
R166). -/
def shown (frame : List Byte) (out : List Byte) (s : State) : State :=
  { s with
    pins := { s.pins with selectLow := true },
    port := { s.port with
      transaction := some (statusByte s), dataOut := statusByte s :: out, rxFrame := frame, rxDiscarded := false,
      ignored := false, frameError := false } }

/-- The state after the rise of select. -/
def risen (s : State) : State :=
  { s with
    pins := { s.pins with selectLow := false },
    port := { s.port with transaction := none, rxFrame := [], rxDiscarded := false } }

end Sys2Proof.Claims

section

open Sys2Proof Sys2Proof.Machine Sys2Proof.Claims

/-! ### The step -/

/-- The command at the front of the queue is run with the queue's rest. -/
def Obligations.StepRunsTheFrontCommand : Prop :=
  ∀ (c : Instr) (rest : List Instr) (s : State), s.pending = c :: rest → step s = exec c { s with pending := rest }

/-- With no command waiting a millisecond of the timebase passes (log 3): every running timer loses one, those that then
stand at 0 are run out by their own rows in a fixed order, and the reference watch goes from armed to quiet to fired. Only
what a timer can touch changes, and while reset is low nothing does. -/
def Obligations.IdleIsAMillisecond : Prop :=
  ∀ s : State, s.pending = [] →
    (s.pins.resetLow = true → step s = .next s) ∧
    (s.pins.resetLow = false →
      step s = .next (watched (expired timerRows (counted s))) ∧
      ∃ t, step s = .next t ∧ OnlyChanges (.refWatch :: dropChanges) s t ∧
        (∀ o n, s.plan.hold = .held o (n + 2) → t.plan.hold = .held o (n + 1) ∨ (o = .base ∧ t.plan.hold = .free)) ∧
        (∀ o n, n ≤ 1 → s.plan.hold = .held o n → t.plan.hold = .free) ∧
        (s.refWatch = .armed → t.refWatch = .quiet) ∧ (s.refWatch ≠ .armed → t.refWatch = .fired))

/-- Every command that the interfaces can deliver completes, in every state, and leaves the commands that wait. The
two rows with operands that no interface can deliver, a burst not of 392 bytes and an invalid kind byte that names a kind,
are refused by name: that is the model's choice (log 26), and so is that a RELAY_SEND row of any length completes, answered
BAD_COMMAND beyond 1 to 44 bytes (log 10). -/
def Obligations.EveryWellFormedCommandCompletes : Prop :=
  (∀ (c : Instr) (s : State), (c.wellFormed = true ∨ ∃ o tag m, c = .relaySend o tag m) →
     ∃ t, exec c s = .next t ∧ t.pending = s.pending) ∧
  ((∀ (l : LaneId) (b : Bool) (bytes : List Byte) (s : State), bytes.length ≠ 392 →
     exec (.tileBurst l b bytes) s = .refused .notABurst) ∧
   ∀ (k : Byte) (n : Nat) (s : State), k = 161 ∨ k = 178 →
     exec (.invalidTransaction (some k) n) s = .refused .notAnInvalidKind)

/-! ### Encodings -/

/-- Every command of Table 12-9 is read back from its opcode and argument bytes, and nothing else names it. Every command
frame is read back, and fails with any other check byte (R164, R180). Every good control cell is read back from its slot,
and fails with any other check (R151, R180). Two samples in three bytes: the samples of a tile are read back (Table
12-1). -/
def Obligations.CommandsFramesCellsAndSamplesReadBack : Prop :=
  (∀ c : Cmd, c.wellFormed = true → Cmd.decode c.opcode c.args = some c) ∧
  (∀ (opcode : Byte) (args : List Byte) (c : Cmd), Cmd.decode opcode args = some c →
    c.wellFormed = true ∧ c.opcode = opcode ∧ c.args = args) ∧
  (∀ (c : Cmd) (tag : Byte), c.wellFormed = true →
     commandFrameOf (commandFrameBytes c.opcode tag c.args) = some (c.opcode, tag, c.args) ∧
     (commandFrameBytes c.opcode tag c.args).length ≤ 48 ∧
     ∀ check : Byte, check ≠ sumCheck (c.opcode :: tag :: byteOf c.args.length :: c.args) →
       commandFrameOf (c.opcode :: tag :: byteOf c.args.length :: c.args ++ [check]) = none) ∧
  (∀ c : Cell, (c.kind = 0 ∨ c.kind = 1 ∨ c.kind = 2) → c.payload.length ≤ 44 →
     (c.kind = 2 → c.payload.length ≤ 42) →
     cellOf (padSlot (cellBytes c)) = some c ∧
     ∀ check : Word16, check ≠ crc16 (cellBody c) → cellOf (padSlot (cellBody c ++ wordBytes check)) = none) ∧
  (∀ xs : List Sample, xs.length % 2 = 0 →
     unpackSamples (packSamples xs) = xs ∧ 2 * (packSamples xs).length = 3 * xs.length)

/-- R180: the 16-bit check, the frame check and the head port check byte. Table 12-1, R1: the fields of a burst, and the
samples that are stored. Table 12-6, R151: a control cell that passes. Tables 12-3 to 12-5, R149, R181: the fields of an
upstream frame of the right length. Tables 12-2, 12-3, R82: the downstream header, a slot label, and the frame as sent.
Section 12.5, Tables 12-2, 12-6, R180: the control slot of a downstream frame holds the cell of any kind as kind, tag,
payload length, payload and 16-bit check, and code zero to its end.
Section 12.6, Tables 12-8, 12-10: a response frame, an event record and their codes. That the four bytes of the frame check
are sent most significant byte first is the model's choice (log 35). -/
def Obligations.FieldsStandInTheirBytes : Prop :=
  (∀ bytes : List Byte, Checked [0, 5, 12] bytes (crc16 bytes) ∧
     Checked [0, 1, 2, 4, 5, 7, 8, 10, 11, 12, 16, 22, 23, 26] bytes (~~~ crc32 bytes) ∧
     (∀ r : BitVec 32, (crc32Bytes r).length = 4 ∧ at2 (crc32Bytes r) 0 * 65536 + at2 (crc32Bytes r) 2 = r.toNat) ∧
     (sumCheck bytes).toNat + (bytes.map BitVec.toNat).sum % 256 = 255) ∧
  (∀ bytes : List Byte, bytes.length = 392 →
     let b := burstOf bytes
     let cut := b.last = true ∧ 1 ≤ at2 bytes 4 ∧ at2 bytes 4 ≤ 255
     b.pos.frame.toNat = at1 bytes 0 / 16 ∧ b.last = decide (at1 bytes 0 / 8 % 2 = 1) ∧ b.pos.line = at2 bytes 1 ∧
     b.index = at1 bytes 3 ∧ SamplesAt bytes 6 b.samples ∧ (b.ok = true ↔ (crc16 (bytes.take 390)).toNat = at2 bytes 390) ∧
     (¬ cut → storedSamples b = b.samples) ∧
     (cut → storedSamples b = b.samples.take (at2 bytes 4) ++ List.replicate (256 - at2 bytes 4) 0)) ∧
  (∀ (slot : List Byte) (c : Cell), slot.length = 400 →
     let n := at1 slot 2
     (cellOf slot = some c ↔
       n ≤ 44 ∧ (crc16 (slot.take (3 + n))).toNat = at2 slot (3 + n) ∧ at1 slot 0 ≤ 2 ∧ (at1 slot 0 = 2 → n ≤ 42) ∧
         c = { kind := slot.getD 0 0, tag := slot.getD 1 0, payload := (slot.drop 3).take n })) ∧
  (∀ (k : RateClass) (bytes : List Byte), bytes.length = 10 + 400 * slotsUp k + 4 →
     let u := upFrameOf k bytes
     let code := at1 bytes 4
     let named := at1 bytes 5
     u.count.toNat = at2 bytes 0 ∧ u.beacon = bytes.getD 2 0 ∧ u.echo = bytes.getD 3 0 ∧
     (∀ j, classNum j = named → (code = 1 → u.classField = .propose j) ∧ (code = 2 → u.classField = .agree j)) ∧
     (code = 3 → u.classField = .refuse) ∧ (code = 0 ∨ 3 < code → u.classField = .none) ∧
     (code ≠ 3 → named = 0 ∨ 5 < named → u.classField = .none) ∧
     (∀ j, at1 bytes 6 = 1 → classNum j = at1 bytes 7 → u.select = some j) ∧
     (at1 bytes 6 ≠ 1 ∨ at1 bytes 7 = 0 ∨ 5 < at1 bytes 7 → u.select = none) ∧ u.classEcho = bytes.getD 8 0 ∧
     u.program = decide (at1 bytes 9 % 2 = 1) ∧ u.preview = decide (at1 bytes 9 / 2 % 2 = 1) ∧
     u.call = decide (at1 bytes 9 / 4 % 2 = 1) ∧ u.cell = cellOf ((bytes.drop 10).take 400) ∧
     (∀ i : SideId,
       let start := 410 + 9 * sideNum i
       (u.aux.get i).length = min 4 (at1 bytes start) ∧
       ∀ (j : Nat) (r : ByteRecord), (u.aux.get i)[j]? = some r →
         let mark := at1 bytes (start + 2 + 2 * j)
         r.data = bytes.getD (start + 1 + 2 * j) 0 ∧
           r.mark = if mark = 0 then .clean else if mark = 2 then .framing else .parity) ∧
     u.returns.length = slotsUp k - 2 ∧
     ∀ (i : Nat) (r : ReturnSlot), u.returns[i]? = some r →
       let start := 810 + 400 * i
       r.kind = bytes.getD start 0 ∧ r.frame = bytes.getD (start + 3) 0 ∧ r.line.toNat = at2 bytes (start + 4) ∧
         r.index = bytes.getD (start + 6) 0 ∧ r.lastOfLine = decide (at1 bytes (start + 7) / 32 % 2 = 1) ∧
         r.seq.toNat = at2 bytes (start + 8) ∧ SamplesAt bytes (start + 16) r.samples) ∧
  (∀ h : Header, h.carry.length = 24 →
     let out := headerBytes h
     let field := match h.classField with
       | .none => (0, 0)
       | .propose k => (1, classNum k)
       | .agree k => (2, classNum k)
       | .refuse => (3, 0)
     out.length = 18 ∧ at2 out 0 = h.frameCount.toNat ∧ at1 out 2 = classNum h.cls ∧ out.getD 3 0 = h.activeEpoch ∧
     out.getD 4 0 = byteOf h.planCountdown ∧ out.getD 5 0 = h.pendingEpoch.getD 0 ∧
     out.getD 6 0 = byteOf h.classCountdown ∧ at1 out 7 = field.1 ∧ at1 out 8 = field.2 ∧
     at1 out 9 = boolNum h.training.isSome ∧ at1 out 10 = classOptNum h.training ∧
     at1 out 11 = 128 * boolNum h.overcommit + 64 * boolNum h.test ∧
     ∀ (i : Nat) (c : Option CarryState), h.carry[i]? = some c → at1 out (12 + i / 4) / 4 ^ (3 - i % 4) % 4 =
       match c with
       | none => 0
       | some .carried => 1
       | some .thinned => 2
       | some .shed => 3) ∧
  (∀ (x : TileLabel) (seq : Word16) (xs : List Sample),
     let marks := boolNum x.marks.damaged + 2 * boolNum x.marks.filled + 4 * boolNum x.marks.truncated
       + (match x.marks.group with
         | none => 0
         | some .outOfStep => 8
         | some .partialGroup => 16) + 32 * boolNum x.marks.lastOfLine
     let label (kind : Byte) : List Byte :=
       [kind, byteOf x.entry, byteOf (laneNum x.lane), byteOf x.pos.frame.toNat] ++ two x.pos.line
         ++ [byteOf x.index, byteOf marks, 0, 0] ++ List.replicate 6 0
     let bare (kind : Byte) (seq : Nat) : List Byte :=
       [kind, 255, 255, 255, 255, 255, 255, 0] ++ two seq ++ List.replicate 6 0
     dataSlotBytes (.data x xs) = label 1 ++ packSamples xs ∧ dataSlotBytes (.drain x xs) = label 2 ++ packSamples xs ∧
     dataSlotBytes (.pattern seq xs) = bare 3 seq.toNat ++ packSamples xs ∧
     dataSlotBytes .pad = bare 0 0 ++ List.replicate 384 0) ∧
  (∀ f : Frame, f.header.carry.length = 24 → f.control.payload.length ≤ 44 → (∀ i, (f.aux.get i).length ≤ 4) →
     let out := frameBytes f
     let slots := (f.slots.map fun x => (dataSlotBytes x).length).sum
     let n := f.control.payload.length
     let covered := [f.control.kind, f.control.tag, byteOf n] ++ f.control.payload
     out.length = 18 + 800 + slots + 4 ∧ out.take 18 = headerBytes f.header ∧
     (out.drop 18).take 400 = covered ++ two (crc16 covered).toNat ++ List.replicate (395 - n) 0 ∧
     cellOf ((out.drop 18).take 400) = (if f.control.kind.toNat ≤ 2 ∧ (f.control.kind = 2 → f.control.payload.length ≤ 42)
       then some f.control else none) ∧
     auxOf ((out.drop 418).take 400) = f.aux ∧ (out.drop 818).take slots = f.slots.flatMap dataSlotBytes ∧
     out.drop (818 + slots) = crc32Bytes (crc32 (out.take (818 + slots)))) ∧
  (∀ (r : Response) (e : EventRecord),
     let body := [r.opcode, r.tag, byteOf (resultNum r.result), byteOf r.data.length] ++ r.data
     responseBytes r = body ++ [sumCheck body] ∧
     eventBytes e = [byteOf (eventNum e.kind)] ++ two e.stamp.toNat ++ [e.subject] ++ two e.detail.toNat) ∧
  ([ResultCode.done, .accepted, .badCommand, .notPermitted, .range, .state, .held, .noHold, .busy, .full, .empty, .duplicate,
      .unknownLane, .shortShare, .over, .mismatch].map resultNum = List.range 16 ∧
    [EventKind.resetDone, .laneFault, .laneRecover, .groupLag, .groupRejoin, .holdExpired, .holdDropped, .planActive,
      .switchCancelled, .carryChanged, .overcommit, .linkUp, .linkDown, .classChanged, .marginLow, .baseOutOfStep,
      .baseInStep, .relayArrived, .relayOverrun, .relayDiscarded, .counterHalf, .referenceLost,
      .testWrap].map eventNum = List.range' 1 23)

/-! ### Laws that every step keeps -/

/-- R23: the free buffers and the held buffers number 1536. R26, R27: the queue of a lane stands in its order, RELEASED,
COMPLETE, the line in assembly, and its oldest RELEASED line alone can be partly sent. R24: no lane beyond its allotment,
the allotments within the pool. -/
def Obligations.EveryStepKeepsThePoolAndAllotmentLaws : Prop :=
  (∀ s t : State, PoolConserved s → step s = .next t → PoolConserved t) ∧
  (∀ s t : State, AllotmentsKept s → step s = .next t → AllotmentsKept t)

/-- R56, R57, R61, R66: one active bank, no lane twice, a pending bank exactly while the hold is not free, at the next
epoch. R59: every entry of the active plan, and of a bank that counts down, has a configured lane and a share no smaller
than its lane's demand. R84, R104: the bounds of the credits, and no entry of priority 0 SHED. -/
def Obligations.EveryStepKeepsThePlanAndCreditLaws : Prop :=
  (∀ s t : State, PlanLaw s.plan → step s = .next t → PlanLaw t.plan) ∧
  (∀ s t : State, PlanLaw s.plan → ShareLaw s → step s = .next t → ShareLaw t) ∧
  (∀ s t : State, BuilderLaw s → step s = .next t → BuilderLaw t)

/-- R129: the class in force is never better than the ceiling. R182: while reset is low every block holds its pin-reset
values; among them the idle side-line transmitters are the model's choice (log 8). -/
def Obligations.EveryStepKeepsTheClassAndResetLaws : Prop :=
  (∀ s t : State, ClassLaw s → step s = .next t → ClassLaw t) ∧
  (∀ s t : State, ResetLaw s → step s = .next t → ResetLaw t)

/-- R172: no counter exceeds 65535. Every queue stays within its capacity. -/
def Obligations.EveryStepKeepsTheCounterAndQueueLaws : Prop :=
  (∀ s t : State, CountersBounded s → step s = .next t → CountersBounded t) ∧
  (∀ s t : State, QueuesBounded s → step s = .next t → QueuesBounded t)

/-- The state after reset keeps every law. The levels of the input pins at reset are the model's (log 2); the laws
hold at any. -/
def Obligations.TheResetStateKeepsEveryLaw : Prop :=
  PoolConserved State.reset ∧ AllotmentsKept State.reset ∧ PlanLaw State.reset.plan ∧ ShareLaw State.reset ∧
    BuilderLaw State.reset ∧
    ClassLaw State.reset ∧ CountersBounded State.reset ∧ QueuesBounded State.reset ∧ ResetLaw State.reset

/-! ### Reset -/

/-- R182: every block takes its pin-reset value; the input levels and the commands that wait stand. R148, R169,
R174, R182: the rise of reset, and PART_RESET, start every block from its reset value with one RESET_DONE record;
with the carrier present the link is measuring at once. PART_RESET gives no response. These are the model's choices: that
it measures within the same event, read from R130 and R148 together (log 24); that the input levels stand, for which the
spec gives no value at reset (log 2); that the transmitter of every side line is idle after a reset, of which the spec says
nothing (log 8); and that a rise with reset high already changes nothing (log 23). -/
def Obligations.ResetsStartThePart : Prop :=
  (∀ s : State, exec .pinReset s =
     .next { State.blank with pins := { s.pins with resetLow := true }, pending := s.pending }) ∧
  (∀ s : State,
     let started (subject : Byte) : State :=
       { State.blank with
         pins := { s.pins with resetLow := false }, pending := s.pending,
         events := { EventUnit.reset with queue := [resetDone subject] },
         link := if s.pins.carrier then
             { LinkCtl.reset with
               state := .measure, measureRequests := 1, timers := { Timers.stopped with measure := some 400 } }
           else LinkCtl.reset }
     (s.pins.resetLow = true → exec .resetRelease s = .next (started 1)) ∧
     (s.pins.resetLow = false → exec .resetRelease s = .next s) ∧
     ∀ tag, Ready .head s → exec (.partReset .head tag) s = .next (started 2))

/-! ### The command unit -/

/-- R168, Table 10-3: a command that the base link may not send is refused and changes nothing else. R164 step 1,
R152, R149, R182: what happens to a command that is not taken. A head command that finds an unread response sets
IGNORED; a base command that finds 8 responses is counted as lost; no base command arrives while no frame is received, as
with the modem idle for PATTERN_LOOP (R177), but a plan edit in the frame period of a loss of the link, so that R63 and R79
can refuse it; while reset is low no command does anything. That a row given alone meets these gates, and the frame period
for a fall together with a loss, are the model's choices (log 10). -/
def Obligations.RefusedAndLostCommandsChangeNothing : Prop :=
  (∀ (c : Cmd) (tag : Byte) (s : State), headOnly c = true → c.wellFormed = true → Ready .base s →
     exec (row .base tag c) s = replies .base c.opcode tag .notPermitted [] s) ∧
  (∀ (c : Cmd) (tag : Byte) (s : State),
     (s.pins.resetLow = true → ∀ o, exec (row o tag c) s = .next s) ∧
     (s.pins.resetLow = false → s.port.holding ≠ none →
       exec (row .head tag c) s = .next { s with port := { s.port with ignored := true } }) ∧
     (s.pins.resetLow = false → receives s = false → isEdit c = false ∨ s.plan.lossTaken = false →
       exec (row .base tag c) s = .next s) ∧
     (s.pins.resetLow = false → receives s = true ∨ (isEdit c = true ∧ s.plan.lossTaken = true) →
       8 ≤ s.control.responses.length →
       ∃ t, exec (row .base tag c) s = .next t ∧ Counts (.link .baseCommandsLost) s t ∧
         OnlyChanges [.events, .notices, .counters] s t))

/-- R168, R181: a message of a length that RELAY_SEND does not accept, and the argument codes that Table 12-9 does
not list, are refused and change nothing else, from either origin for a command that both may send. That such an argument
is refused before any check of a state is the model's reading (log 19), and that a RELAY_SEND row of such a length arrives
at all is its choice (log 10). -/
def Obligations.UnlistedArgumentsAreRefused : Prop :=
  ∀ (tag : Byte) (x y z : Byte),
    (∀ s : State, Ready .head s →
      (∀ m : List Byte, m = [] ∨ 44 < m.length →
        exec (.relaySend .head tag m) s = replies .head 22 tag .badCommand [] s) ∧
      (3 < x.toNat →
        (∀ c w h m a g, exec (.laneSet .head tag x c w h m a g) s = replies .head 3 tag .range [] s) ∧
        exec (.laneStart .head tag x) s = replies .head 4 tag .range [] s ∧
        exec (.laneStop .head tag x) s = replies .head 5 tag .range [] s) ∧
      (∀ l w h m a, 1 < x.toNat ∨ 2 < y.toNat →
        exec (.laneSet .head tag l x w h m a y) s = replies .head 3 tag .range [] s) ∧
      (x ≠ 1 → x ≠ 2 → exec (.groupSet .head tag x y) s = replies .head 7 tag .range [] s) ∧
      (1 < x.toNat →
        exec (.linkEnable .head tag x) s = replies .head 17 tag .range [] s ∧
        exec (.testRead .head tag x) s = replies .head 34 tag .range [] s) ∧
      (2 < x.toNat ∨ 4 < y.toNat ∨ 2 < z.toNat →
        exec (.sidelineSet .head tag x y z) s = replies .head 29 tag .range [] s) ∧
      ((x ≠ 1 ∧ x ≠ 2) ∨ (y ≠ 1 ∧ y ≠ 2) ∨ z = 0 ∨ 5 < z.toNat →
        exec (.testStart .head tag x y z) s = replies .head 32 tag .range [] s)) ∧
    ∀ (o : Origin) (s : State), Ready o s →
      (3 < x.toNat → exec (.laneGet o tag x) s = replies o 6 tag .range [] s) ∧
      (x ≠ 1 → x ≠ 2 → exec (.classRequest o tag x) s = replies o 20 tag .range [] s) ∧
      (1 < x.toNat → exec (.planRead o tag x y) s = replies o 12 tag .range [] s) ∧
      (23 < x.toNat → exec (.carryRead o tag x) s = replies o 15 tag .range [] s) ∧
      (8 < x.toNat →
        exec (.countersRead o tag x) s = replies o 27 tag .range [] s ∧
        exec (.countersClear o tag x) s = replies o 28 tag .range [] s) ∧
      (2 < x.toNat → exec (.sidelineStatus o tag x) s = replies o 30 tag .range [] s)

/-! ### Commands that read -/

/-- R169: IDENTIFY answers part code 3260 and revision 1 and changes nothing else. R147: LINK_STATUS answers 17 bytes
and changes nothing else. R22: LANE_GET answers the lane's 37 bytes, from both origins, and changes nothing else; a lane
number above 3 is refused RANGE. A derived figure too large for its place, which only an unconfigured descriptor can give,
is sent as some value (log 20). -/
def Obligations.IdentifyLinkStatusAndLaneGetAnswer : Prop :=
  (∀ (o : Origin) (tag : Byte) (s : State), Ready o s →
     exec (.identify o tag) s = replies o 1 tag .done [12, 188, 1] s) ∧
  (∀ (o : Origin) (tag : Byte) (s : State), Ready o s →
     let c := s.link
     exec (.linkStatus o tag) s = replies o 16 tag .done
       ([byteOf (boolNum c.enable), byteOf (linkStateNum c.state), byteOf (classNum c.classInForce),
         byteOf (classOptNum c.ceiling)]
         ++ (match c.proposal with
           | .idle => [0, 0, 0]
           | .proposing k => [1, byteOf (classNum k), 0]
           | .counting n k _ => [2, byteOf (classNum k), byteOf n])
         ++ [c.lastClassEcho, byteOf (causeNum c.lastCause)] ++ bytes2 c.dropCount
         ++ [byteOf c.attempts, byteOf (criteriaNum c.criteria)] ++ bytes2 (s.counter (.link .baseCommandsLost)).count
         ++ wordBytes s.rx.lastBaseFrameCount) s) ∧
  (∀ (o : Origin) (tag x : Byte) (s : State), Ready o s → 3 < x.toNat →
    exec (.laneGet o tag x) s = replies o 6 tag .range [] s) ∧
  ∀ (o : Origin) (tag : Byte) (l : LaneId) (s : State), Ready o s →
    let d := (s.lane l).desc
    let count (c : LaneCounter) : List Byte := bytes2 (s.counter (.lane l c)).count
    ∃ (x : Byte) (y : Word16),
      (tiles d < 256 → x = byteOf (tiles d)) ∧ (16 * tiles d * d.m < 65536 → y = wordOf (16 * tiles d * d.m)) ∧
      exec (.laneGet o tag (byteOf (laneNum l))) s = replies o 6 tag .done
        ([byteOf (boolNum d.configured)] ++ bytes2 d.w ++ bytes2 d.h ++ [byteOf d.m] ++ bytes2 d.allotment
          ++ [byteOf (groupFieldNum d.group), x] ++ wordBytes y ++ [byteOf (laneStateNum (s.lane l).state)]
          ++ bytes2 (held s l) ++ bytes2 (s.lane l).queue.length
          ++ count .damagedTiles ++ count .fillTiles ++ count .lineDrops ++ count .lineGaps ++ count .excessTiles
          ++ count .preStartBursts ++ count .uncarriedLines ++ count .shedLines ++ count .thinnedLines
          ++ count .cutLines) s

/-- R72: PLAN_READ answers the bank header, the hold, and up to four entries from the start index, in every hold
state; a bank other than 0 and 1 is refused RANGE, and a FREE bank reads with entry count 0 and epoch 0. R113:
CARRY_READ answers the figures of the last assessment and up to eight entries from the start index, each with its carry
state, its credit and its lane's released tiles; a start index above 23 is refused RANGE. -/
def Obligations.PlanReadAndCarryReadAnswer : Prop :=
  (∀ (o : Origin) (tag x start : Byte) (s : State), Ready o s →
     (1 < x.toNat → exec (.planRead o tag x start) s = replies o 12 tag .range [] s) ∧
     (23 < start.toNat → exec (.carryRead o tag start) s = replies o 15 tag .range [] s)) ∧
  (∀ (b : BankId) (s : State), PlanLaw s.plan → (bankGet s.plan b).role = .free →
     (bankGet s.plan b).entries = [] ∧ (bankGet s.plan b).epoch = 0) ∧
  (∀ (o : Origin) (tag start : Byte) (b : BankId) (s : State), Ready o s →
     let bank := bankGet s.plan b
     let n := bank.entries.length
     let i := start.toNat
     exec (.planRead o tag (byteOf (bankNum b)) start) s = replies o 12 tag .done
       ([byteOf (bankNum b), byteOf (roleNum bank.role), bank.epoch, byteOf n, byteOf (holdNum s.plan.hold),
         byteOf (holderNum s.plan.hold)] ++ bytes2 (holdRemaining s.plan.hold)
         ++ [byteOf (if n ≤ i then n else min n (i + 4))]
         ++ (((bank.entries.mapIdx entryBytes).drop i).take 4).flatten) s) ∧
  (∀ (o : Origin) (tag start : Byte) (s : State), Ready o s → start.toNat ≤ 23 →
     let bank := activeBank s
     let n := bank.entries.length
     let i := start.toNat
     let entry (k : Nat) (x : Entry × Runtime) : List Byte :=
       [byteOf k, byteOf (laneNum x.1.lane), byteOf (carryNum x.2.carry)] ++ bytes2 x.2.credit
         ++ bytes2 (releasedTiles s x.1.lane)
     exec (.carryRead o tag start) s = replies o 15 tag .done
       ([byteOf (bankNum (activeId s.plan)), bank.epoch, byteOf n, byteOf (classNum s.builder.classApplied),
         byteOf (boolNum s.builder.overcommit)] ++ bytes2 s.builder.assessedTotal
         ++ [byteOf (if n ≤ i then n else min n (i + 8))]
         ++ ((((bank.entries.zip s.builder.runtimes).mapIdx entry).drop i).take 8).flatten) s)

/-- R156, R159: SIDELINE_STATUS and TALLY_READ answer from the state and change nothing else. R156: SIDELINE_SET sets
the rate and the parity and empties both queues of its line; the byte being shifted out and the other lines stand. -/
def Obligations.SideLineAndTallyCommands : Prop :=
  (∀ (o : Origin) (tag : Byte) (i : SideId) (s : State), Ready o s →
     exec (.sidelineStatus o tag (byteOf (sideNum i))) s = replies o 30 tag .done
       [byteOf (rateNum (s.side i).rate), byteOf (parityNum (s.side i).parity), byteOf (s.side i).inQueue.length,
        byteOf (s.side i).outQueue.length, byteOf (boolNum (s.side i).shifting.isSome)] s ∧
     exec (.tallyRead o tag) s = replies o 31 tag .done
       [byteOf (boolNum s.tally.program + 2 * boolNum s.tally.preview + 4 * boolNum s.tally.call),
        byteOf s.tally.hold] s) ∧
  (∀ (tag : Byte) (i : SideId) (r : SideRate) (p : Parity) (s : State), Ready .head s →
     ∃ t, exec (.sidelineSet .head tag (byteOf (sideNum i)) (byteOf (rateNum r)) (byteOf (parityNum p))) s = .next t ∧
       Answers .head 29 tag .done [] s t ∧ OnlyChanges [.port, .sides] s t ∧
       t.side i = { s.side i with rate := r, parity := p, inQueue := [], outQueue := [] } ∧
       ∀ j, j ≠ i → t.side j = s.side j)

/-! ### Lanes and groups -/

/-- R4, R5, Table 1-3: LANE_SET that passes its checks replaces the lane's descriptor and no other; no lane changes
its state or its assembly. R5, R38, R44: where the membership of a stitch group changes the lane joins LAGGING, or is left
without a standing, and each group concerned is evaluated; otherwise its standing stays and no group is evaluated; the
lanes of other groups, and the counters of the lane itself, stand. A lane is unconfigured only while no plan that binds
names it. R4, Table 1-3: the first check of LANE_SET that fails gives the result, and nothing else changes. That the group
left is evaluated before the group joined is the model's choice (log 28). -/
def Obligations.LaneSetChecksAndReplaces : Prop :=
  (∀ (tag m : Byte) (w h a : Word16) (l : LaneId) (c : Bool) (g : Option GroupId) (s : State), Ready .head s →
     (s.lane l).state = .stopped →
     let d := descriptor c w h m a g
     (c = true → InRange d ∧ SumFits s l d ∧ GroupFits s l d ∧ SharesFit s l d) →
     (c = false → ∀ e, Binds s e → e.lane ≠ l) →
     let old := groupNamed (s.lane l).desc
     let new := groupNamed d
     let t := laneSet l d s
     exec (.laneSet .head tag (byteOf (laneNum l)) (byteOf (boolNum c)) w h m a (byteOf (groupFieldNum g))) s =
       replies .head 3 tag .done [] t ∧
     OnlyChanges evaluationChanges s t ∧ (t.lane l).desc = d ∧
     (∀ k, (k ≠ l → (t.lane k).desc = (s.lane k).desc) ∧ (t.lane k).state = (s.lane k).state ∧
       (t.lane k).assembly = (s.lane k).assembly) ∧
     (old = new → t.standing l = s.standing l) ∧
     (old ≠ new → t.standing l = if new = none then none else some .lagging) ∧
     (∀ k, k ≠ l → (∀ j, groupNamed (s.lane k).desc = some j → old ≠ some j ∧ new ≠ some j) →
       t.lane k = s.lane k ∧ t.standing k = s.standing k) ∧
     ((s.lane l).queue = [] → (t.lane l).queue = [] ∧ ∀ n, t.counter (.lane l n) = s.counter (.lane l n))) ∧
  (∀ (tag m : Byte) (w h a : Word16) (l : LaneId) (c : Bool) (g : Option GroupId) (s : State), Ready .head s →
     let d := descriptor c w h m a g
     let done (r : ResultCode) : Prop :=
       exec (.laneSet .head tag (byteOf (laneNum l)) (byteOf (boolNum c)) w h m a (byteOf (groupFieldNum g))) s =
         replies .head 3 tag r [] s
     ((s.lane l).state ≠ .stopped → done .state) ∧
     ((s.lane l).state = .stopped →
       (c = false → (∃ e, Binds s e ∧ e.lane = l) → done .state) ∧
       (c = true → ¬ InRange d → done .range) ∧
       (c = true → InRange d → ¬ SumFits s l d → done .over) ∧
       (c = true → InRange d → SumFits s l d → ¬ GroupFits s l d → done .mismatch) ∧
       (c = true → InRange d → SumFits s l d → GroupFits s l d → ¬ SharesFit s l d → done .shortShare)))

/-- R6: LANE_START arms a STOPPED, configured lane afresh, and is refused STATE in any other case. R11, R31: LANE_STOP
empties a lane that is not STOPPED and stops it; the buffers of an ungrouped lane all return, and a partly sent line
is counted as cut. A STOPPED lane is left as it is. R39, R44: a member that is started keeps its standing, one that is
stopped becomes LAGGING without an event, and its group is then evaluated. Both are refused NOT_PERMITTED from the base
link, and RANGE for a lane number above 3. That the cut line is counted before the group is evaluated is the model's choice
(log 28). -/
def Obligations.LaneStartAndLaneStop : Prop :=
  (∀ (tag x : Byte) (s : State),
     (Ready .base s →
       exec (.laneStart .base tag x) s = replies .base 4 tag .notPermitted [] s ∧
       exec (.laneStop .base tag x) s = replies .base 5 tag .notPermitted [] s) ∧
     (Ready .head s → 3 < x.toNat →
       exec (.laneStart .head tag x) s = replies .head 4 tag .range [] s ∧
       exec (.laneStop .head tag x) s = replies .head 5 tag .range [] s)) ∧
  (∀ (tag : Byte) (l : LaneId) (s : State), Ready .head s →
     ((s.lane l).state = .stopped → (s.lane l).desc.configured = true →
       ∃ t, exec (.laneStart .head tag (byteOf (laneNum l))) s = .next t ∧ Answers .head 4 tag .done [] s t ∧
         OnlyChanges (.port :: evaluationChanges) s t ∧
         t.lane l = { s.lane l with
           state := .armed, assembly := .betweenLines, lastLine := none, dropMark := none, silence := 0,
           recovery := false, queue := (t.lane l).queue } ∧
         t = answered .head ⟨4, tag, .done, []⟩ (evaluated (groupNamed (s.lane l).desc)
           (setLane l (fresh .armed (s.lane l).queue (s.lane l)) s)) ∧
         ∀ k, k ≠ l → t.lane k = { s.lane k with queue := (t.lane k).queue }) ∧
     ((s.lane l).state ≠ .stopped ∨ (s.lane l).desc.configured = false →
       exec (.laneStart .head tag (byteOf (laneNum l))) s = replies .head 4 tag .state [] s)) ∧
  (∀ (tag : Byte) (l : LaneId) (s : State), Ready .head s →
     ((s.lane l).state = .stopped →
       exec (.laneStop .head tag (byteOf (laneNum l))) s = replies .head 5 tag .done [] s) ∧
     ((s.lane l).state ≠ .stopped →
       ∃ t, exec (.laneStop .head tag (byteOf (laneNum l))) s = .next t ∧ Answers .head 5 tag .done [] s t ∧
         OnlyChanges (.port :: evaluationChanges) s t ∧
         t.lane l = { s.lane l with
           state := .stopped, assembly := .betweenLines, lastLine := none, dropMark := none, silence := 0,
           recovery := false, queue := [] } ∧
         (∀ k, k ≠ l → t.lane k = { s.lane k with queue := (t.lane k).queue }) ∧
         (groupNamed (s.lane l).desc = none → t = answered .head ⟨5, tag, .done, []⟩ (laneStopped l s) ∧
           t.poolFree = s.poolFree + held s l) ∧
         (∀ g, groupNamed (s.lane l).desc = some g → t.standing l = some .lagging ∧
           t = answered .head ⟨5, tag, .done, []⟩ (evaluate g ((laneStopped l s).setStanding l (some .lagging)))) ∧
         t.counter (.lane l .cutLines) =
           if (s.lane l).queue.any partlySent then counterUp (s.counter (.lane l .cutLines))
           else s.counter (.lane l .cutLines)))

/-- R52, R44: GROUP_SET sets the skew limit of the group, clamped into 1 to 8, evaluates the group, and answers the limit
with the cursor and the members' standings as the evaluation leaves them; it does nothing else. R44 to R47: in a group of which no member lags behind, the line that
every RUNNING, IN_STEP member has at the cursor leaves every member's queue of waiting lines together, and the cursor
advances. Stated for two members with one waiting line each at the cursor. -/
def Obligations.GroupsReleaseTogether : Prop :=
  (∀ (tag skew : Byte) (g : GroupId) (s : State), Ready .head s →
     let skewed := if skew.toNat = 0 then 1 else if 8 < skew.toNat then 8 else skew.toNat
     let t := evaluate g (s.modGroup g fun x => { x with skew := skewed })
     exec (.groupSet .head tag (byteOf (groupNum g)) skew) s = replies .head 7 tag .done
       ([byteOf skewed]
         ++ (match (t.group g).cursor with
           | none => [255, 255, 255]
           | some p => [p.frame.setWidth 8] ++ bytes2 p.line)
         ++ [byteOf (members s g).length]
         ++ (members s g).flatMap fun l => [byteOf (laneNum l), byteOf (standingNum ((t.standing l).getD .lagging))]) t ∧
       OnlyChanges evaluationChanges s t ∧ (t.group g).skew = skewed ∧ (∀ h, h ≠ g → t.group h = s.group h)) ∧
  (∀ (g : GroupId) (l k : LaneId) (c : Position) (x y : LineRecord) (s : State), members s g = [l, k] →
     (s.lane l).state = .running → (s.lane k).state = .running → s.standing l = some .inStep → s.standing k = some .inStep →
     (s.group g).cursor = some c → s.link.state = .up → carryOf s l = some .carried → carryOf s k = some .carried →
     (s.lane l).queue = [x] → (s.lane k).queue = [y] → x.state = .complete → y.state = .complete → x.pos = c → y.pos = c →
     let t := evaluate g s
     (t.lane l).queue = [{ x with state := .released, mark := none }] ∧
     (t.lane k).queue = [{ y with state := .released, mark := none }] ∧
     (t.group g).cursor = some (if c.line + 1 < (s.lane l).desc.h then { c with line := c.line + 1 }
       else { frame := c.frame + 1, line := 0 }) ∧
     t.poolFree = s.poolFree ∧ t.events = s.events ∧ t.counters = s.counters)

/-! ### The plan commands -/

/-- R65, Table 4-4: the plan commands that a hold check refuses change nothing else. R63, R79: a plan edit or a commit of
the base, taken after a fall of the carrier that has cost the base its hold, is refused NO_HOLD. That it still comes to be
refused in the whole frame period of the loss, with the link in DOWN, DISABLED or a test, is the model's choice (log 10). -/
def Obligations.HoldChecksComeFirst : Prop :=
  (∀ (o : Origin) (tag : Byte) (c : Cmd) (s : State), EditReady o s → isEdit c = true →
     let answers (r : ResultCode) : Prop := exec (row o tag c) s = replies o c.opcode tag r [] s
     (s.plan.hold = .free → answers .noHold) ∧ (∀ h ms, s.plan.hold = .held h ms → h ≠ o → answers .noHold) ∧
     (∀ h, s.plan.hold = .counting h → answers .busy)) ∧
  (∀ (o : Origin) (tag : Byte) (s : State), Ready o s →
     (∀ h ms, s.plan.hold = .held h ms → h ≠ o → exec (.planOpen o tag) s = replies o 8 tag .held [] s) ∧
     (∀ h, s.plan.hold = .counting h → exec (.planOpen o tag) s = replies o 8 tag .busy [] s)) ∧
  (∀ (tag : Byte) (c : Cmd) (s : State), EditReady .base s → isEdit c = true → Carrying s.link.state →
     (∃ ms, s.plan.hold = .held .base ms) ∨ (s.plan.hold = .counting .base ∧ Announced s) →
     ∃ t, exec .carrierFall s = .next t ∧ t.link.state = .down ∧
       exec (row .base tag c) t = replies .base c.opcode tag .noHold [] t)

/-- R66: PLAN_OPEN in FREE copies the active entries into the other bank at the next epoch and takes the hold for 2000
ms; from the holder it restarts the timer alone. Both answer the pending bank's number, epoch and entry count. R71:
PLAN_ABANDON of the holder discards the pending bank and frees the hold, without an event. From the other origin in
HELD, PLAN_OPEN is refused HELD and PLAN_ABANDON NO_HOLD; PLAN_ABANDON in FREE is refused NO_HOLD; in COUNTING both are
refused BUSY. -/
def Obligations.PlanOpenAndPlanAbandon : Prop :=
  (∀ (o : Origin) (tag : Byte) (s : State), Ready o s →
     let opens (r : ResultCode) : Prop := exec (.planOpen o tag) s = replies o 8 tag r [] s
     let abandons (r : ResultCode) : Prop := exec (.planAbandon o tag) s = replies o 14 tag r [] s
     (s.plan.hold = .free → abandons .noHold) ∧
     (∀ h ms, s.plan.hold = .held h ms → h ≠ o → opens .held ∧ abandons .noHold) ∧
     (∀ h, s.plan.hold = .counting h → opens .busy ∧ abandons .busy)) ∧
  (∀ (o : Origin) (tag : Byte) (s : State), Ready o s →
     (s.plan.hold = .free →
       exec (.planOpen o tag) s = replies o 8 tag .done
         [byteOf (bankNum (otherId s.plan)), (activeBank s).epoch + 1, byteOf (activeBank s).entries.length]
         { s with plan :=
           { bankSet s.plan (otherId s.plan)
               { role := .pending, epoch := (activeBank s).epoch + 1, entries := (activeBank s).entries } with
             hold := .held o 2000 } }) ∧
     (∀ ms, s.plan.hold = .held o ms →
       exec (.planOpen o tag) s = replies o 8 tag .done
         [byteOf (bankNum (otherId s.plan)), (pendingBank s).epoch, byteOf (pendingBank s).entries.length]
         (restarted o s))) ∧
  (∀ (o : Origin) (tag : Byte) (ms : Nat) (s : State), Ready o s → s.plan.hold = .held o ms →
     exec (.planAbandon o tag) s = replies o 14 tag .done []
       { s with plan :=
         { bankSet s.plan (otherId s.plan) { role := .free, epoch := 0, entries := [] } with hold := .free } })

/-- R68, R69, R70: the three edits of the holder that pass their checks: the entry replaced, added or taken out, the
answer the entry count, the timer restarted. R62, R68, R69, R70, Table 4-5: the edits of the holder that a check of
their own refuses restart the timer and change nothing else. That a thinning or a drain byte above 1 is such a refusal, and
does not leave the timer as R181 would, is the model's choice (log 31). -/
def Obligations.PlanEditsCheckAndChangeThePendingBank : Prop :=
  (∀ (o : Origin) (tag index lane prio thin drain : Byte) (q : Word16) (ms : Nat) (s : State) (e : Entry), Ready o s →
     s.plan.hold = .held o ms →
     let es := (pendingBank s).entries
     let i := index.toNat
     (i < es.length →
       exec (.planRemove o tag index) s = replies o 11 tag .done [byteOf (es.length - 1)]
         { s with plan := editedPlan o (es.eraseIdx i) s }) ∧
     (lane = byteOf (laneNum e.lane) → q = wordOf e.share → prio = byteOf e.priority.val → thin = byteOf (boolNum e.thinning) →
       drain = byteOf (boolNum e.drain) → 16 ≤ e.share → e.share ≤ 1920 → (s.lane e.lane).desc.configured = true →
       (i < es.length → (∀ (j : Nat) (f : Entry), j ≠ i → es[j]? = some f → f.lane ≠ e.lane) →
         exec (.planPut o tag index lane q prio thin drain) s = replies o 9 tag .done [byteOf es.length]
           { s with plan := editedPlan o (es.set i e) s }) ∧
       (i ≤ es.length → es.length < 24 → (∀ f ∈ es, f.lane ≠ e.lane) →
         exec (.planInsert o tag index lane q prio thin drain) s = replies o 10 tag .done [byteOf (es.length + 1)]
           { s with plan := editedPlan o (es.insertIdx i e) s }))) ∧
  (∀ (o : Origin) (tag index lane prio thin drain : Byte) (q : Word16) (ms : Nat) (s : State), Ready o s →
     s.plan.hold = .held o ms →
     let es := (pendingBank s).entries
     let i := index.toNat
     let put (r : ResultCode) : Prop :=
       exec (.planPut o tag index lane q prio thin drain) s = replies o 9 tag r [] (restarted o s)
     let insert (r : ResultCode) : Prop :=
       exec (.planInsert o tag index lane q prio thin drain) s = replies o 10 tag r [] (restarted o s)
     let bad : Prop :=
       3 < lane.toNat ∨ q.toNat < 16 ∨ 1920 < q.toNat ∨ 3 < prio.toNat ∨ 1 < thin.toNat ∨ 1 < drain.toNat
     (es.length ≤ i →
       exec (.planRemove o tag index) s = replies o 11 tag .range [] (restarted o s) ∧ put .range) ∧
     (es.length < i → insert .range) ∧
     (i ≤ es.length → 24 ≤ es.length → insert .full) ∧
     (bad → (i < es.length → put .range) ∧ (i ≤ es.length → es.length < 24 → insert .range)) ∧
     (¬ bad → ∀ l, lane = byteOf (laneNum l) →
       ((s.lane l).desc.configured = false →
         (i < es.length → put .unknownLane) ∧ (i ≤ es.length → es.length < 24 → insert .unknownLane)) ∧
       ((s.lane l).desc.configured = true →
         (i < es.length → (∃ (j : Nat) (f : Entry), j ≠ i ∧ es[j]? = some f ∧ f.lane = l) → put .duplicate) ∧
         (i ≤ es.length → es.length < 24 → (∃ f ∈ es, f.lane = l) → insert .duplicate))))

/-- R73 to R78: a PLAN_COMMIT whose bank passes every check. In UP the announcement is queued whole, head cell first,
and the countdown is 16; otherwise the switch is due at once. Either way the hold is COUNTING. R73 to R77: the first
check of a commit that fails gives the result and its details, and the timer restarts. -/
def Obligations.PlanCommitChecksAndStartsTheSwitch : Prop :=
  (∀ (o : Origin) (tag : Byte) (ms : Nat) (s : State), Ready o s → PlanLaw s.plan → s.plan.hold = .held o ms →
     Commits s (checkClass s) →
     let n := (pendingBank s).entries.length
     (s.link.state = .up →
       ∃ cells, exec (.planCommit o tag) s = replies o 13 tag .accepted [(pendingBank s).epoch, 16]
           { s with
             plan := { s.plan with hold := .counting o, countdown := 16, echo := .idle },
             control := { s.control with announce := cells } } ∧
         cells.length = 2 + (n + 3) / 4 ∧
         ∀ (i : Nat) (c : AnnounceCell), cells[i]? = some c → c.kind = .switch ∧ c.tag = i ∧
           c.part = if i = 0 then .head else if i ≤ (n + 3) / 4 then .entries (i - 1) else .lanes) ∧
     (s.link.state ≠ .up →
       exec (.planCommit o tag) s = replies o 13 tag .accepted [(pendingBank s).epoch, 0]
         { s with plan := { s.plan with hold := .counting o, due := some .uncounted } })) ∧
  (∀ (o : Origin) (tag : Byte) (ms : Nat) (s : State), Ready o s → s.plan.hold = .held o ms →
     let es := (pendingBank s).entries
     let demandOf (e : Entry) : Nat := 16 * tiles (s.lane e.lane).desc * (s.lane e.lane).desc.m
     let refused (r : ResultCode) (data : List Byte) : Prop :=
       exec (.planCommit o tag) s = replies o 13 tag r data (restarted o s)
     let known (e : Entry) : Prop := (s.lane e.lane).desc.configured = true
     let sum := ((es.filter fun e => e.priority == 0).map (·.share)).sum
     let capacity := 16 * (slotsDown (checkClass s) - 2)
     (es = [] → refused .empty []) ∧
     (∀ (i : Nat) (e : Entry), es[i]? = some e → ¬ known e →
       (∀ (j : Nat) (f : Entry), j < i → es[j]? = some f → known f) → refused .unknownLane [byteOf i]) ∧
     (∀ (i : Nat) (e : Entry), es[i]? = some e → (∀ f ∈ es, known f) → e.share < demandOf e →
       (∀ (j : Nat) (f : Entry), j < i → es[j]? = some f → demandOf f ≤ f.share) →
       refused .shortShare ([byteOf i] ++ bytes2 e.share ++ bytes2 (demandOf e))) ∧
     (es ≠ [] → (∀ f ∈ es, known f) → (∀ f ∈ es, demandOf f ≤ f.share) → capacity < sum →
       refused .over (bytes2 sum ++ bytes2 capacity)))

/-! ### The link commands -/

/-- R146: LINK_ENABLE off takes the link to DISABLED, a loss but no drop; on takes it from DISABLED to DOWN with the
retry timer expired, and to MEASURE at once if the carrier is present. Otherwise it changes nothing. R63, R126, R127, R153:
the records of the loss. R179: a test ends and the modem is released. That leaving DOWN for DISABLED is a loss, that the
link measures within the same event, and the order of the records are the model's readings (logs 17, 24, 13). -/
def Obligations.LinkEnableSwitchesTheLink : Prop :=
  ∀ (tag : Byte) (s : State), Ready .head s →
    (s.link.state ≠ .disabled →
      exec (.linkEnable .head tag 1) s = replies .head 17 tag .done [] s ∧
      ∃ t, exec (.linkEnable .head tag 0) s = .next t ∧ Answers .head 17 tag .done [] s t ∧ LinkLost s t ∧
        SameRecords (raiseAll (lossEvents s) s) t ∧
        t.link = { resting .disabled .stopped s.link with enable := false } ∧
        t.test = { s.test with mode := .off, idle := false } ∧ OnlyChanges (.port :: .test :: dropChanges) s t) ∧
    (s.link.state = .disabled →
      exec (.linkEnable .head tag 0) s = replies .head 17 tag .done [] s ∧
      exec (.linkEnable .head tag 1) s = replies .head 17 tag .done []
        { s with link := { (if s.pins.carrier then measuring 0 s.link else resting .down .expired s.link) with
          enable := true } })

/-- R139: LINK_CRITERIA enables the criteria that its argument names and disables the others. R131, R134, R145:
LINK_RETRAIN is refused STATE in DISABLED and TEST; in DOWN without the carrier it sets the retry timer expired and the
attempt count to 0 (the latter is the model's reading of R134, log 18); in every other case the link measures afresh. R142,
R145: CLASS_REQUEST proposes the class one step up or down, is clamped at the ceiling and at class 5, and is refused
outside UP and while a proposal stands. -/
def Obligations.LinkCriteriaRetrainAndClassRequest : Prop :=
  (∀ (tag set : Byte) (s : State), Ready .head s →
     exec (.linkCriteria .head tag set) s = replies .head 18 tag .done [set &&& 15]
       { s with link := { s.link with criteria :=
         { sync := set.getLsbD 0, beacon := set.getLsbD 1, burst := set.getLsbD 2, classTimeout := set.getLsbD 3 } } }) ∧
  (∀ (o : Origin) (tag : Byte) (s : State), Ready o s →
     (s.link.state = .disabled ∨ s.link.state = .test →
       exec (.linkRetrain o tag) s = replies o 19 tag .state [] s) ∧
     (s.link.state = .down → s.pins.carrier = false →
       exec (.linkRetrain o tag) s = replies o 19 tag .accepted []
         { s with link := { s.link with attempts := 0, timers := { s.link.timers with retry := .expired } } }) ∧
     (Carrying s.link.state ∨ (s.link.state = .down ∧ s.pins.carrier = true) →
       exec (.linkRetrain o tag) s = replies o 19 tag .accepted [] { s with link := measuring 0 s.link })) ∧
  (∀ (o : Origin) (tag : Byte) (s : State), Ready o s →
    (s.link.state ≠ .up → ∀ d, d = 1 ∨ d = 2 → exec (.classRequest o tag d) s = replies o 20 tag .state [] s) ∧
    (s.link.state = .up → s.link.proposal ≠ .idle →
      ∀ d, d = 1 ∨ d = 2 → exec (.classRequest o tag d) s = replies o 20 tag .busy [] s) ∧
    (s.link.state = .up → s.link.proposal = .idle →
      let proposed (k : RateClass) : State :=
        { s with link := { s.link with
          proposal := .proposing k, pendingRefusal := false,
          timers := { s.link.timers with answer := some 200, margin := none } } }
      (s.link.classInForce = .c5 → exec (.classRequest o tag 2) s = replies o 20 tag .done [] s) ∧
      (∀ k, classNum k = classNum s.link.classInForce + 1 →
        exec (.classRequest o tag 2) s = replies o 20 tag .accepted [byteOf (classNum k)] (proposed k)) ∧
      (s.link.ceiling = none → exec (.classRequest o tag 1) s = replies o 20 tag .done [] s) ∧
      (∀ c, s.link.ceiling = some c →
        (classNum s.link.classInForce ≤ classNum c → exec (.classRequest o tag 1) s = replies o 20 tag .done [] s) ∧
        ∀ k, classNum c < classNum s.link.classInForce → classNum k + 1 = classNum s.link.classInForce →
          exec (.classRequest o tag 1) s = replies o 20 tag .accepted [byteOf (classNum k)] (proposed k))))

/-- R145, Table 8-5: what LINK_RESTART does in every block: link, lanes, pool, groups, builder, plan store, queues, mailbox,
side lines, tally, return port, test unit. R31: every buffer of the lanes that are not STOPPED returns, a partly sent
line is counted as cut, and a STOPPED lane, which holds no line, stands. R64, R127, R138, R153: its records, from the
emptied control-slot queues on. The subject of the LINK_DOWN and the order of the records, the cut lines after the others,
are the model's (logs 13, 16, 28). -/
def Obligations.LinkRestartClearsEveryBlock : Prop :=
  ∀ (o : Origin) (tag : Byte) (s : State), Ready o s →
    ∃ t, exec (.linkRestart o tag) s = .next t ∧
      OnlyChanges [.lanes, .poolFree, .release, .plan, .builder, .announce, .responses, .relayOut, .notices, .link, .events,
        .counters, .mailbox, .sides, .tally, .ret, .test, answerPart o] s t ∧
      (o = .head → t.port.holding = some ⟨21, tag, .done, []⟩ ∧ t.control.responses = []) ∧
      (o = .base → t.control.responses = [⟨21, tag, .done, []⟩]) ∧
      t.control.announce = [] ∧ t.control.relayOut = [] ∧
      t.link = { (if s.link.state = .disabled then resting .disabled .stopped s.link
                  else resting .down (.running 1000) s.link) with
        classInForce := .c5, attempts := 0, lastCause := .restart, lastClassEcho := 0, dropCount := t.link.dropCount } ∧
      (Carrying s.link.state → t.link.dropCount = min 65535 (s.link.dropCount + 1)) ∧
      (¬ Carrying s.link.state → t.link.dropCount = s.link.dropCount) ∧
      (∀ l, (s.lane l).state ≠ .stopped → t.lane l = { s.lane l with
        state := .armed, assembly := .betweenLines, lastLine := none, dropMark := none, silence := 0, recovery := false,
        queue := [] }) ∧
      ((∀ l, (s.lane l).state = .stopped → (s.lane l).queue = []) →
        (∀ l, (s.lane l).state = .stopped → t.lane l = s.lane l) ∧
        t.poolFree = s.poolFree + held s .l0 + held s .l1 + held s .l2 + held s .l3 ∧
        (let events : List (EventKind × Nat × Nat) := planRestartEvents s ++ relayEvents s
         let cut (l : LaneId) (u : State) : State :=
           if (s.lane l).queue.any partlySent then u.bump (.lane l .cutLines) else u
         let records (es : List (EventKind × Nat × Nat)) : State :=
           State.each cut laneIds (raiseAll es { s with control := ⟨[], [], [], []⟩ })
         (Carrying s.link.state → SameRecords
           (records ((.linkDown, classNum s.link.classInForce, causeNum .restart) :: events)) t) ∧
         (¬ Carrying s.link.state → SameRecords (records events) t))) ∧
      (∀ g, t.group g = { s.group g with cursor := none }) ∧
      (∀ l g, l ∈ members s g → t.standing l = some (if (s.lane l).state = .stopped then .lagging else .inStep)) ∧
      t.builder = { s.builder with runtimes := s.builder.runtimes.map fun r => { r with credit := 0 } } ∧
      t.plan.hold = .free ∧ t.plan.countdown = 0 ∧ t.plan.due = none ∧ t.plan.echo = .idle ∧
      t.plan.baseStanding = .inStep ∧
      t.plan.lossTaken = (s.plan.lossTaken || decide (s.link.state ≠ .down ∧ s.link.state ≠ .disabled)) ∧
      bankGet t.plan (activeId s.plan) = activeBank s ∧
      bankGet t.plan (otherId s.plan) = (if s.plan.hold = .free then pendingBank s else .emptied) ∧
      t.mailbox = .empty ∧ (∀ i, t.side i = { s.side i with inQueue := [], outQueue := [] }) ∧
      t.tally = { program := false, preview := false, call := false, hold := 0 } ∧
      t.ret = { s.ret with buffer := [] } ∧ t.test = { s.test with mode := .off, idle := false }

/-! ### Relay, events, side lines, test -/

/-- R153, R155: the relay commands; RELAY_READ and RELAY_ACK are refused NOT_PERMITTED from the base link. R154: a relay
message is stored in an empty or acknowledged mailbox and raised; against an unacknowledged one it is lost, counted, and
recorded in the head queue as the head mask selects and for the base whatever the base mask holds, where 8 notices lose and
count it (R170). That the COUNTER_HALF of an increment comes before the record, or after the one that was lost, is the
model's order (log 28). -/
def Obligations.RelayMessagesAndTheMailbox : Prop :=
  (∀ (tag : Byte) (s : State), Ready .base s →
     exec (.relayRead .base tag) s = replies .base 23 tag .notPermitted [] s ∧
     exec (.relayAck .base tag) s = replies .base 24 tag .notPermitted [] s) ∧
  (∀ (tag : Byte) (message : List Byte) (m : RelayMessage) (s : State), Ready .head s →
     (1 ≤ message.length → message.length ≤ 44 →
       (s.link.state ≠ .up → exec (.relaySend .head tag message) s = replies .head 22 tag .state [] s) ∧
       (s.link.state = .up → 4 ≤ s.control.relayOut.length →
         exec (.relaySend .head tag message) s = replies .head 22 tag .full [] s) ∧
       (s.link.state = .up → s.control.relayOut.length < 4 →
         exec (.relaySend .head tag message) s = replies .head 22 tag .done []
           { s with control := { s.control with relayOut := s.control.relayOut ++ [⟨tag, message⟩] } })) ∧
     (s.mailbox = .empty →
       exec (.relayRead .head tag) s = replies .head 23 tag .empty [] s ∧
       exec (.relayAck .head tag) s = replies .head 24 tag .empty [] s) ∧
     (s.mailbox = .unacked m →
       exec (.relayRead .head tag) s = replies .head 23 tag .done ([m.tag, 1] ++ m.bytes) s ∧
       exec (.relayAck .head tag) s = replies .head 24 tag .done [] { s with mailbox := .acked m }) ∧
     (s.mailbox = .acked m →
       exec (.relayRead .head tag) s = replies .head 23 tag .done ([m.tag, 2] ++ m.bytes) s ∧
       exec (.relayAck .head tag) s = replies .head 24 tag .empty [] s)) ∧
  (∀ (m held : RelayMessage) (s : State),
     (s.mailbox = .empty ∨ s.mailbox = .acked held →
       (relayArrives m s).mailbox = .unacked m ∧ Raises .relayArrived m.tag.toNat m.bytes.length s (relayArrives m s) ∧
         OnlyChanges [.mailbox, .events, .notices, .counters] s (relayArrives m s)) ∧
     (s.mailbox = .unacked held →
       OnlyChanges [.events, .notices, .counters] s (relayArrives m s) ∧
         (let e : EventRecord :=
            { kind := .relayOverrun, stamp := s.builder.frameCount, subject := m.tag, detail := wordOf held.tag.toNat }
          let u := s.bump .relayOverruns
          SameRecords (noticed e { u with events := joinedHead e u.events }) (relayArrives m s)) ∧
         ((s.counter .relayOverruns).count < 32767 →
           (relayArrives m s).counter .relayOverruns =
             { s.counter .relayOverruns with count := (s.counter .relayOverruns).count + 1 } ∧
           (s.control.notices.length < 8 →
             (relayArrives m s).control.notices = s.control.notices ++
               [{ kind := .relayOverrun, stamp := s.builder.frameCount, subject := byteOf m.tag.toNat,
                  detail := wordOf held.tag.toNat }]))))

/-- R146, R175: TEST_START takes its three arguments and starts the counts and the numbers afresh; from another
state it enters TEST, a loss, and a drop with cause TEST from a state that carries frames, with its records. In DISABLED it
is refused. R182: the idle hold is asserted in PATTERN_LOOP and in no other mode. A modem in a test that begins in
PATTERN_LOOP is idle at once; after a change from PATTERN_OUT to PATTERN_LOOP it delivers frames until the next frame event
(R175; the model's reading, log 22). R146, R178, R179: TEST_STOP ends the test in DOWN
without another drop; TEST_READ answers the test unit, and clears the two counts when asked. That TEST_STOP, and
TEST_START from DOWN, are losses, and the order of the records, are the model's reading (logs 17, 13). -/
def Obligations.TestCommands : Prop :=
  (∀ (tag : Byte) (m : TestMode) (n : CountMode) (k : RateClass) (s : State), Ready .head s → m ≠ .off →
     let run := exec (.testStart .head tag (byteOf (testModeNum m)) (byteOf (countModeNum n)) (byteOf (classNum k))) s
     let idle : Bool := m == .patternLoop && (s.test.mode == .off || s.test.idle)
     let loops : Bool := m == .patternLoop
     let test : TestUnit :=
       { mode := m, idle := idle, countMode := n, cls := k, nextSeq := 0, checked := 0, errored := 0 }
     (s.link.state = .disabled → run = replies .head 32 tag .state [] s) ∧
     (s.link.state = .test → run = replies .head 32 tag .done [] { s with test := test } ∧
       idleHold { s with test := test } = loops) ∧
     (s.link.state ≠ .disabled → s.link.state ≠ .test →
       ∃ t, run = .next t ∧ Answers .head 32 tag .done [] s t ∧ t.test = test ∧ LinkLost s t ∧ idleHold t = loops ∧
         t.link = { resting .test .stopped s.link with lastCause := .test, dropCount := t.link.dropCount } ∧
         (Carrying s.link.state → t.link.dropCount = min 65535 (s.link.dropCount + 1) ∧
           SameRecords (raiseAll (dropEvents .test s) s) t) ∧
         (¬ Carrying s.link.state → t.link.dropCount = s.link.dropCount ∧ SameRecords (raiseAll (lossEvents s) s) t) ∧
         OnlyChanges (.port :: .test :: dropChanges) s t)) ∧
  (∀ (tag : Byte) (s : State), Ready .head s →
     (s.link.state ≠ .test → exec (.testStop .head tag) s = replies .head 33 tag .state [] s) ∧
     (s.link.state = .test →
       ∃ t, exec (.testStop .head tag) s = .next t ∧ Answers .head 33 tag .done [] s t ∧ LinkLost s t ∧
         SameRecords (raiseAll (lossEvents s) s) t ∧ idleHold t = false ∧
         t.test = { s.test with mode := .off, idle := false } ∧ t.link = resting .down (.running 1000) s.link ∧
         OnlyChanges (.port :: .test :: dropChanges) s t) ∧
     ∀ clear : Bool,
       exec (.testRead .head tag (byteOf (boolNum clear))) s = replies .head 34 tag .done
         ([byteOf (testModeNum s.test.mode), byteOf (countModeNum s.test.countMode), byteOf (classNum s.test.cls)]
           ++ wordBytes s.test.nextSeq ++ bytes2 s.test.checked ++ bytes2 s.test.errored)
         { s with test := if clear then { s.test with checked := 0, errored := 0 } else s.test })

/-! ### Bursts and boards -/

/-- R2, R7, R10: a burst on a STOPPED lane does nothing; one that does not start a run is a pre-start burst, and with
board-ready high it arms a FAULTED lane. -/
def Obligations.BurstsOutsideARunAreCounted : Prop :=
  ∀ (l : LaneId) (ready : Bool) (bytes : List Byte) (s : State), bytes.length = 392 → s.pins.resetLow = false →
    let s0 : State := { s with pins := { s.pins with boardReady := s.pins.boardReady.set l ready } }
    let b := burstOf bytes
    ((s.lane l).state = .stopped → exec (.tileBurst l ready bytes) s = .next s0) ∧
    ((s.lane l).state = .armed → (ready = false ∨ b.pos.line ≠ 0 ∨ b.index ≠ 0) →
      ∃ t, exec (.tileBurst l ready bytes) s = .next t ∧ Counts (.lane l .preStartBursts) s t ∧
        OnlyChanges [.events, .notices, .counters] s0 t) ∧
    ((s.lane l).state = .faulted → ready = false →
      ∃ t, exec (.tileBurst l ready bytes) s = .next t ∧ Counts (.lane l .preStartBursts) s t ∧
        OnlyChanges [.events, .notices, .counters] s0 t) ∧
    ((s.lane l).state = .faulted → (s.lane l).desc.group = none → ready = true → (b.pos.line ≠ 0 ∨ b.index ≠ 0) →
      ∃ t, exec (.tileBurst l ready bytes) s = .next t ∧ Counts (.lane l .preStartBursts) s t ∧
        t.lane l = { s.lane l with state := .armed, lastLine := none, dropMark := none } ∧
        OnlyChanges [.lanes, .events, .notices, .counters] s0 t)

/-- R7, R15, R17: line 0 tile 0 with board-ready high starts the run of an ARMED lane that is in no group: the lane is
RUNNING and a line is open with that tile, whose buffer the pool has given. R17, R19, R25: the next tile of the line
in assembly joins it while the lane is below its allotment; at the allotment the line is dropped whole, its buffers
return, and the drop mark stands. That the next tile joins its line with board-ready low as well, and is then no fall of
it, is the model's choice (log 23). -/
def Obligations.TilesOpenAndJoinTheirLine : Prop :=
  (∀ (l : LaneId) (bytes : List Byte) (s : State), bytes.length = 392 → s.pins.resetLow = false →
     let x := s.lane l
     let b := burstOf bytes
     x.state = .armed → x.desc.group = none → x.recovery = false → x.assembly = .betweenLines → x.lastLine = none →
     x.dropMark = none → b.pos.line = 0 → b.index = 0 → b.last = false → 0 < x.desc.h → 2 ≤ tiles x.desc →
     held s l < x.desc.allotment → 0 < s.poolFree →
     ∃ t, exec (.tileBurst l true bytes) s = .next t ∧
       OnlyChanges [.pins, .lanes, .poolFree, .events, .notices, .counters] s t ∧
       t.lane l = { x with
         state := .running, silence := 0, assembly := .assembling b.pos 1, lastLine := some b.pos,
         queue := x.queue ++ [openedLine b.pos [arrived b]] } ∧
       (∀ k, k ≠ l → t.lane k = s.lane k) ∧ t.poolFree = s.poolFree - 1 ∧
       (b.ok = true → t.counters = s.counters ∧ t.events = s.events) ∧
       (b.ok = false → Counts (.lane l .damagedTiles) s t)) ∧
  (∀ (l : LaneId) (ready : Bool) (bytes : List Byte) (s : State) (before : List LineRecord) (r : LineRecord),
     bytes.length = 392 → s.pins.resetLow = false →
     let x := s.lane l
     let b := burstOf bytes
     x.state = .running → x.assembly = .assembling b.pos b.index → x.dropMark = none → x.queue = before ++ [r] →
     b.last = false → b.pos.line < x.desc.h → b.index + 1 < tiles x.desc →
     (held s l < x.desc.allotment → 0 < s.poolFree →
       ∃ t, exec (.tileBurst l ready bytes) s = .next t ∧
         OnlyChanges [.pins, .lanes, .poolFree, .events, .notices, .counters] s t ∧
         t.lane l = { x with
           silence := 0, assembly := .assembling b.pos (b.index + 1),
           queue := before ++ [{ r with tiles := r.tiles ++ [arrived b] }] } ∧
         t.poolFree = s.poolFree - 1 ∧ (b.ok = true → t.counters = s.counters)) ∧
     (x.desc.allotment ≤ held s l →
       ∃ t, exec (.tileBurst l ready bytes) s = .next t ∧
         OnlyChanges [.pins, .lanes, .poolFree, .events, .notices, .counters] s t ∧
         t.lane l = { x with
           silence := 0, assembly := .betweenLines, dropMark := some r.pos, queue := before } ∧
         t.poolFree = s.poolFree + (r.tiles.length - r.carried) ∧ Counts (.lane l .lineDrops) s t))

/-- R14, R20, R17: a burst on a RUNNING lane beyond the lane's tiles or lines is excess; one for the position of the drop
mark is discarded without a count; one for a tile that the line already has is excess. None of them changes anything else
but the silence count. R15: a burst between lines opens a line for its position at the tail of the queue, with no tile yet
and tile 0 expected; the position is the new last line, a gap is counted exactly where it does not follow the former one,
and the burst is then placed as one that joins that line (R17; MissingTilesAreFilled says how). R7, R10: a burst for line
0 tile 0 starts the run of an ARMED lane and is then assembled as on a RUNNING one; with the recovery flag set it raises
LANE_RECOVER as well, last (log 28); on a FAULTED lane it is handled as an arrival in ARMED, after the evaluation that
entering ARMED brings (R44). That a burst which carries board-ready low on a RUNNING lane is no fall and is screened and
placed as any other is the model's choice (log 23). -/
def Obligations.BurstsAreScreenedAndGapsAreCounted : Prop :=
  ∀ (l : LaneId) (ready : Bool) (bytes : List Byte) (s : State), bytes.length = 392 → s.pins.resetLow = false →
    let x := s.lane l
    let b := burstOf bytes
    let run (u : State) : Result := exec (.tileBurst l ready bytes) u
    let inRange : Prop := b.index < tiles x.desc ∧ b.pos.line < x.desc.h
    let silent : State := heard l ready s
    (x.state = .running →
      (¬ inRange → run s = .next (silent.bump (.lane l .excessTiles))) ∧
      (inRange → x.dropMark = some b.pos → run s = .next silent) ∧
      (∀ e, inRange → x.dropMark ≠ some b.pos → x.assembly = .assembling b.pos e → b.index < e →
        run s = .next (silent.bump (.lane l .excessTiles))) ∧
      (inRange → x.dropMark ≠ some b.pos → x.assembly = .betweenLines →
        (let opened := setLane l { x with
           silence := 0, assembly := .assembling b.pos 0, lastLine := some b.pos,
           queue := x.queue ++ [openedLine b.pos []] } silent
         ((x.lastLine = none ∨ ∃ p, x.lastLine = some p ∧ Follows x.desc.h p b.pos) → run s = run opened) ∧
         (∀ p, x.lastLine = some p → ¬ Follows x.desc.h p b.pos →
           run s = run (opened.bump (.lane l .lineGaps)))) ∧
        ∃ t, run s = .next t ∧ OnlyChanges (.pins :: evaluationChanges) s t ∧ (t.lane l).lastLine = some b.pos ∧
          ((x.lastLine = none ∨ ∃ p, x.lastLine = some p ∧ Follows x.desc.h p b.pos) →
            t.counter (.lane l .lineGaps) = s.counter (.lane l .lineGaps)) ∧
          (∀ p, x.lastLine = some p → ¬ Follows x.desc.h p b.pos →
            t.counter (.lane l .lineGaps) = counterUp (s.counter (.lane l .lineGaps))))) ∧
    (ready = true → b.pos.line = 0 → b.index = 0 →
      (x.state = .armed →
        (x.recovery = false →
          run s = run (evaluateLane l (setLane l { x with state := .running, silence := 0 }
            { s with pins := { s.pins with boardReady := s.pins.boardReady.set l true } }))) ∧
        (x.recovery = true →
          ∃ u, run (setLane l { x with recovery := false } s) = .next u ∧
            run s = .next (u.raise .laneRecover (laneNum l) b.pos.frame.toNat)))) ∧
    (ready = true → x.state = .faulted →
      run s = run (evaluateLane l (setLane l { x with state := .armed, lastLine := none, dropMark := none }
        { s with pins := { s.pins with boardReady := s.pins.boardReady.set l true } })))

/-- R17: where a burst skips tiles of its line, a fill tile is appended for each, then its own tile, each with a buffer and
each counted. R18: its last-tile mark, or the last index, completes the line; after an early mark the rest is filled, and
the line is not TRUNCATED. R16: a burst for another position first closes the line in assembly with fill tiles as
TRUNCATED, and then opens its own line. R19: where a buffer cannot be had at any of these the line is dropped whole. R18,
R34, R44: a completed line goes to the release unit (`lineCompleted`). That closing a line as TRUNCATED is a completion
that clears the drop mark, as R20 has it for a completion, is the model's reading (log 15); that the records follow the
order of the tiles is its choice (log 28), and so is that a burst which carries board-ready low on a RUNNING lane is no
fall and is assembled as any other (log 23). -/
def Obligations.MissingTilesAreFilled : Prop :=
  ∀ (l : LaneId) (ready : Bool) (bytes : List Byte) (s : State) (before : List LineRecord) (r : LineRecord)
    (p : Position) (e : Nat), bytes.length = 392 → s.pins.resetLow = false →
    let x := s.lane l
    let b := burstOf bytes
    let tpl := tiles x.desc
    let run (u : State) : Result := exec (.tileBurst l ready bytes) u
    let silent : State := heard l ready s
    x.state = .running → x.assembly = .assembling p e → x.queue = before ++ [r] → r.carried = 0 → r.pos = p →
    b.index < tpl → b.pos.line < x.desc.h → x.dropMark ≠ some b.pos →
    (b.pos = p → e ≤ b.index →
      let placed := r.tiles ++ fillers e b.index ++ [arrived b]
      let n := b.index - e + 1
      let ends : Prop := b.last = true ∨ b.index + 1 = tpl
      let tail := if b.last then fillers (b.index + 1) tpl else []
      let noted (u : State) : State :=
        let u := bumps (b.index - e) (.lane l .fillTiles) u
        if b.ok then u else u.bump (.lane l .damagedTiles)
      (n ≤ room s l → ¬ ends →
        run s = .next (noted (withTiles l before { r with tiles := placed } (.assembling p (b.index + 1)) silent n))) ∧
      (n + tail.length ≤ room s l → ends →
        let line := { r with tiles := placed ++ tail, truncated := false, state := LineState.complete }
        run s = .next (lineCompleted l (bumps tail.length (.lane l .fillTiles)
          (noted (withTiles l before line .betweenLines (setLane l { silent.lane l with dropMark := none } silent)
            (n + tail.length)))))) ∧
      (room s l < n → run s = .next (droppedLine l before r (room s l) silent)) ∧
      (n ≤ room s l → room s l < n + tail.length → ends →
        run s = .next (droppedLine l before r (room s l - n) (noted silent)))) ∧
    (b.pos ≠ p →
      let u := closedLine l before r e silent
      (tpl - e ≤ room s l → run s = run (lineCompleted l u)) ∧ (room s l < tpl - e → run s = run u))

/-- R18, R34, R35, R36, Table 3-1: the last tile of a line completes it, and a lane in no group releases it at once:
kept as RELEASED while the link is UP and the active plan carries its lane, discarded and counted otherwise. R44: the
completed line of a member waits, and its group is evaluated. That the tile does so with board-ready low as well, and is
then no fall of it, is the model's choice (log 23). -/
def Obligations.ACompleteLineIsReleasedOrWaits : Prop :=
  ∀ (l : LaneId) (ready : Bool) (bytes : List Byte) (s : State) (before : List LineRecord) (r : LineRecord),
    bytes.length = 392 → s.pins.resetLow = false →
    let x := s.lane l
    let b := burstOf bytes
    x.state = .running → x.assembly = .assembling b.pos b.index → x.dropMark = none →
    x.queue = before ++ [r] → r.pos = b.pos →
    b.pos.line < x.desc.h → b.index + 1 = tiles x.desc → b.ok = true → held s l < x.desc.allotment → 0 < s.poolFree →
    (x.desc.group = none → (∀ y ∈ before, y.state = .released) → r.mark = none →
      ∃ t, exec (.tileBurst l ready bytes) s = .next t ∧
      OnlyChanges [.pins, .lanes, .poolFree, .events, .notices, .counters] s t ∧
      (t.lane l).assembly = .betweenLines ∧
      (s.link.state = .up → (carryOf s l = some .carried ∨ (carryOf s l = some .thinned ∧ b.pos.line % 2 = 0)) →
        (t.lane l).queue = before ++ [{ r with
          tiles := r.tiles ++ [arrived b], truncated := false, state := .released, mark := none }] ∧
        t.poolFree = s.poolFree - 1) ∧
      (s.link.state ≠ .up ∨ carryOf s l = none →
        (t.lane l).queue = before ∧ t.poolFree = s.poolFree - 1 + (r.tiles.length + 1 - r.carried) ∧
        Counts (.lane l .uncarriedLines) s t) ∧
      (s.link.state = .up → carryOf s l = some .shed →
        (t.lane l).queue = before ∧ Counts (.lane l .shedLines) s t) ∧
      (s.link.state = .up → carryOf s l = some .thinned → b.pos.line % 2 = 1 →
        (t.lane l).queue = before ∧ Counts (.lane l .thinnedLines) s t)) ∧
    (∀ g, x.desc.configured = true → x.desc.group = some g →
      exec (.tileBurst l ready bytes) s = .next (evaluate g (withTiles l before
        { r with tiles := r.tiles ++ [arrived b], truncated := false, state := LineState.complete } .betweenLines
        (heard l ready s) 1)))

/-- R7, R8, R9: a RUNNING lane is faulted by a fall of board-ready, with detail 1, and by its eighth tick without a
burst, with detail 2; in any other case neither does anything but move the pin. R9: the line in assembly is closed by fill
tiles as TRUNCATED, or dropped where a buffer cannot be had; then LANE_FAULT is raised. R39, R44: a member of a group
becomes LAGGING without an event, and its group is evaluated; the line closed of a lane in no group is released, and one
between lines changes nothing but itself and the records. That a row
given alone does this part of a tick, and nothing where its trigger does not stand, is the model's choice (logs 1, 23), and
so is the order of the records (log 28). -/
def Obligations.ALostBoardFaultsTheLane : Prop :=
  ∀ (l : LaneId) (s : State), s.pins.resetLow = false →
    let x := s.lane l
    let s0 : State := { s with pins := { s.pins with boardReady := s.pins.boardReady.set l false } }
    let faulted (u t : State) (silence detail : Nat) : Prop :=
      OnlyChanges evaluationChanges u t ∧
        (t.lane l).state = .faulted ∧ (t.lane l).recovery = true ∧ (t.lane l).assembly = .betweenLines ∧
        (t.lane l).dropMark = none ∧ (t.lane l).silence = silence ∧ (t.lane l).desc = x.desc ∧
        (groupNamed x.desc = none → x.assembly = .betweenLines →
          (t.lane l).queue = x.queue ∧ t.poolFree = s.poolFree ∧ Raises .laneFault (laneNum l) detail s t)
    let raised (detail : Nat) (u : State) : State :=
      (setLane l { u.lane l with dropMark := none, recovery := true } u).raise .laneFault (laneNum l) detail
    let lost (u : State) (silence detail : Nat) (run : Result) : Prop :=
      let v := setLane l { x with state := .faulted, silence := silence } u
      let w : State := v.setStanding l (some .lagging)
      (∀ g, groupNamed x.desc = some g →
        (x.assembly = .betweenLines → run = .next (evaluate g (raised detail w))) ∧
        (∀ p e before r, x.assembly = .assembling p e → x.queue = before ++ [r] → r.carried = 0 →
          run = .next (evaluate g (raised detail (closedLine l before r e w))))) ∧
      (groupNamed x.desc = none →
        (x.assembly = .betweenLines → run = .next (raised detail v)) ∧
        (∀ p e before r, x.assembly = .assembling p e → x.queue = before ++ [r] → r.carried = 0 →
          (tiles x.desc - e ≤ room s l →
            run = .next (releaseOldest none l (raised detail (closedLine l before r e v)))) ∧
          (room s l < tiles x.desc - e → run = .next (raised detail (closedLine l before r e v)))))
    (x.state ≠ .running → exec (.boardReadyFall l) s = .next s0) ∧
    (x.state = .running → (∃ t, exec (.boardReadyFall l) s = .next t ∧ faulted s0 t x.silence 1) ∧
      lost s0 x.silence 1 (exec (.boardReadyFall l) s)) ∧
    (x.state ≠ .running ∨ x.silence < 7 → exec (.laneSilenceExpiry l) s = .next s) ∧
    (x.state = .running → 7 ≤ x.silence → (∃ t, exec (.laneSilenceExpiry l) s = .next t ∧ faulted s t 8 2) ∧
      lost s 8 2 (exec (.laneSilenceExpiry l) s))

/-! ### Groups, ladder, fill -/

/-- R40: the frame difference decides, and at no difference the line numbers. -/
def Obligations.PositionsAreJudgedByTheirDifference : Prop :=
  ∀ p c : Position,
    let d := (p.frame - c.frame).toNat
    (1 ≤ d ∧ d ≤ 7 → judge p c = .ahead) ∧ (8 ≤ d → judge p c = .behind) ∧
    (d = 0 → c.line < p.line → judge p c = .ahead) ∧ (d = 0 → p.line < c.line → judge p c = .behind) ∧
    (d = 0 → p.line = c.line → judge p c = .equal) ∧
    (d ≠ 8 → (judge p c = .ahead ↔ judge c p = .behind))

/-- R35, R36, Table 3-1: a release takes the oldest COMPLETE line of a lane with its group mark, or discards and counts it.
R42: without a RUNNING member the cursor is unset and every COMPLETE line is released alone, OUT_OF_STEP, lane after lane and
oldest first, whatever a release does with it. R41: an unset cursor is set by
the lowest RUNNING member that holds a COMPLETE line. R44: with the cursor set an evaluation goes pass by pass: R46, a line
behind is released alone, OUT_OF_STEP; R47, R48, R43, with nobody waited for the present lines are released together,
PARTIAL_GROUP where an IN_STEP member is a hole, the present RUNNING members rejoin, and the cursor moves on; R49, the lag
trigger sets those waited for LAGGING; R50, with nobody present the cursor skips to the nearest head. Otherwise nothing
changes. The order of a release's records against GROUP_REJOIN is the model's (log 28). -/
def Obligations.AGroupIsEvaluatedPassByPass : Prop :=
  (∀ (mark : Option GroupMark) (l : LaneId) (s : State),
     ((∀ r ∈ (s.lane l).queue, r.state ≠ .complete) → releaseOldest mark l s = s) ∧
     ∀ before r rest, (s.lane l).queue = before ++ r :: rest → (∀ y ∈ before, y.state ≠ .complete) → r.state = .complete →
       let kept := setLane l { s.lane l with queue := before ++ { r with state := .released, mark := mark } :: rest } s
       let gone (c : LaneCounter) : State :=
         State.bump (.lane l c) { setLane l { s.lane l with queue := before ++ rest } s with
           poolFree := s.poolFree + (r.tiles.length - r.carried) }
       (s.link.state ≠ .up ∨ carryOf s l = none → releaseOldest mark l s = gone .uncarriedLines) ∧
       (s.link.state = .up →
         (carryOf s l = some .shed → releaseOldest mark l s = gone .shedLines) ∧
         (carryOf s l = some .thinned → r.pos.line % 2 = 1 → releaseOldest mark l s = gone .thinnedLines) ∧
         (carryOf s l = some .carried ∨ (carryOf s l = some .thinned ∧ r.pos.line % 2 = 0) →
           releaseOldest mark l s = kept))) ∧
  (∀ (g : GroupId) (s : State), (∀ l ∈ members s g, (s.lane l).state ≠ .running) →
     let t := evaluate g s
     t = State.each (releaseOldest (some .outOfStep))
       ((members s g).flatMap fun l => List.replicate (completeIn (s.lane l).queue) l)
       (s.modGroup g fun x => { x with cursor := none }) ∧
     (t.group g).cursor = none ∧ t.release.standing = s.release.standing ∧
     ∀ l, l ∈ members s g →
       (s.link.state = .up → carryOf s l = some .carried → (t.lane l).queue = releasedAlone (s.lane l).queue) ∧
       (s.link.state ≠ .up ∨ carryOf s l = none →
         (t.lane l).queue = (s.lane l).queue.filter fun r => r.state != .complete)) ∧
  (∀ (g : GroupId) (s : State), (∃ l ∈ members s g, (s.lane l).state = .running) → (s.group g).cursor = none →
     ((∀ l ∈ members s g, (s.lane l).state = .running → headOf s l = none) → evaluate g s = s) ∧
     ∀ before l rest p, members s g = before ++ l :: rest → (s.lane l).state = .running → headOf s l = some p →
       (∀ k ∈ before, (s.lane k).state = .running → headOf s k = none) →
       evaluate g s = evaluate g (s.modGroup g fun x => { x with cursor := some p })) ∧
  ∀ (g : GroupId) (c : Position) (s : State), (∃ l ∈ members s g, (s.lane l).state = .running) →
    (s.group g).cursor = some c →
    let noneBehind : Prop := ∀ l ∈ members s g, ¬ HeadJudged .behind s c l
    let hole (l : LaneId) : Prop := l ∈ members s g ∧ HeadJudged .ahead s c l
    let triggered : Prop := ∃ l ∈ presentAt s g c, (s.group g).skew ≤ completeIn (s.lane l).queue
    (∀ l, FirstBehind s g c l → evaluate g s = evaluate g (releaseOldest (some .outOfStep) l s)) ∧
    (noneBehind → waitedFor s g = [] → presentAt s g c ≠ [] →
      ((∃ l, hole l ∧ s.standing l = some .inStep) →
        evaluate g s = evaluate g (groupReleased (some .partialGroup) g c s)) ∧
      ((∀ l, hole l → s.standing l ≠ some .inStep) → evaluate g s = evaluate g (groupReleased none g c s))) ∧
    (noneBehind → waitedFor s g ≠ [] →
      (triggered → evaluate g s = evaluate g (groupLagged g s)) ∧ (¬ triggered → evaluate g s = s)) ∧
    (noneBehind → waitedFor s g = [] → presentAt s g c = [] →
      ((∀ l, ¬ hole l) → evaluate g s = s) ∧
      ((∃ l, hole l) →
        ∃ l p, hole l ∧ headOf s l = some p ∧ (∀ k q, hole k → headOf s k = some q → judge p q ≠ .ahead) ∧
          evaluate g s = evaluate g (s.modGroup g fun x => { x with cursor := some p })))

/-- R104: the ladder. Its steps are, level by level from 3 to 0, thinning and then, but for level 0, shedding, each over the
entries in reverse plan order; it takes them from the first and stops as soon as the total is within the capacity, or when
all are taken. The total is the sum of the effective shares; priority 0 is never SHED; a level is given up whole before a
better one is touched; and a plan that fits is CARRIED whole. -/
def Obligations.TheLadderGivesUpWholeLevels : Prop :=
  ∀ (es : List Entry) (c16 : Nat),
    let cs := (ladder es c16).1
    let total := (ladder es c16).2
    cs.length = es.length ∧ total = totalUnder es cs ∧
    (∃ n, n ≤ (ladderSteps es).length ∧ cs = ladderAfter es n ∧ (∀ m, m < n → c16 < totalUnder es (ladderAfter es m)) ∧
      (total ≤ c16 ∨ n = (ladderSteps es).length)) ∧
    (∀ x ∈ es.zip cs, x.1.priority = 0 → x.2 ≠ .shed) ∧
    (total ≤ c16 ∨ ∀ x ∈ es.zip cs, (x.1.priority ≠ 0 → x.2 = .shed) ∧
      (x.1.priority = 0 → x.1.thinning = true → x.2 = .thinned)) ∧
    (∀ x ∈ es.zip cs, ∀ y ∈ es.zip cs, x.1.priority < y.1.priority → x.2 ≠ .carried → y.2 = .shed) ∧
    ((es.map (·.share)).sum ≤ c16 → ∀ c ∈ cs, c = .carried)

/-- R105 to R109: the assessment sets each entry's carry state to the ladder's and bounds its credit, 0 when SHED; sets the
overcommit flag exactly where the total exceeds the capacity, and keeps the total; discards the released tiles of the lanes
newly SHED; raises CARRY_CHANGED with the number of entries that differ, if any does, and then OVERCOMMIT if the flag was
clear. The records of the cut lines come before these two, lane after lane in plan order (log 28). -/
def Obligations.TheAssessmentSettlesAndRaises : Prop :=
  ∀ s : State,
    let es := (activeBank s).entries
    let rs := s.builder.runtimes
    let k := s.builder.classApplied
    let cs := (ladder es (16 * (slotsDown k - 2))).1
    let total := (ladder es (16 * (slotsDown k - 2))).2
    let exceeds : Bool := decide (16 * (slotsDown k - 2) < total)
    let news := (es.zip (cs.zip rs)).filter fun x => x.2.1 == .shed && x.2.2.carry != .shed
    let changed := ((cs.zip rs).filter fun x => x.1 != x.2.carry).length
    rs.length = es.length → (es.map fun e => e.lane).Nodup →
    let t := assess s
    OnlyChanges [.builder, .lanes, .poolFree, .events, .notices, .counters] s t ∧
    t.builder = { s.builder with runtimes := t.builder.runtimes, overcommit := exceeds, assessedTotal := total } ∧
    t.builder.runtimes.length = es.length ∧
    (∀ (i : Nat) (e : Entry) (r : Runtime) (c : CarryState), es[i]? = some e → rs[i]? = some r → cs[i]? = some c →
      t.builder.runtimes[i]? = some
        { carry := c, credit := if c = .shed then 0 else min r.credit (effShare e.share c + 15) }) ∧
    LoseReleased (fun l => l ∈ news.map fun x => x.1.lane) s t ∧
    SameRecords
      (raiseAll ((if changed = 0 then [] else [(.carryChanged, classNum k, changed)])
          ++ if exceeds && !s.builder.overcommit then [(.overcommit, classNum k, total)] else [])
        (cutReleased (news.map fun x => x.1.lane) s)) t

/-- R83 step 1, R86, R87, R111, R118: the switch that is due makes the pending bank ACTIVE and empties the other, frees the
hold and raises PLAN_ACTIVE with its former holder and the new epoch. Each new entry takes the credit and carry state of the
old entry of its lane, or 0 and CARRIED; outside UP they are bounded at once, with priority 0 never SHED. A lane that the
new plan does not name loses its released tiles. In UP the echo watch starts, with an IN_FORCE announcement if none went
before; outside UP it is idle. A reference tick in UP takes the switch and builds its frame under the new plan. These are
the model's choices: that the cut lines are recorded before PLAN_ACTIVE, in the order of the old plan (log 28), and that the tick takes the switch before
the verdict of the same tick, which can drop the link (log 4). -/
def Obligations.ASwitchMakesThePendingBankActive : Prop :=
  (∀ (s : State) (d : Due) (o : Origin), PlanLaw s.plan → s.plan.due = some d → s.plan.hold = .counting o →
     let old := activeBank s
     let new := pendingBank s
     let absent := (old.entries.map fun e => e.lane).filter fun l => !(new.entries.any fun e => e.lane == l)
     let t := takeSwitch s
     OnlyChanges [.plan, .builder, .lanes, .poolFree, .announce, .events, .notices, .counters] s t ∧
     activeBank t = { new with role := .active } ∧ bankGet t.plan (activeId s.plan) = { role := .free, epoch := 0, entries := [] } ∧
     t.plan.hold = .free ∧ t.plan.due = none ∧ t.plan.countdown = 0 ∧ t.plan.baseStanding = s.plan.baseStanding ∧
     t.builder = { s.builder with runtimes := t.builder.runtimes } ∧ t.builder.runtimes.length = new.entries.length ∧
     (∀ (i : Nat) (e : Entry), new.entries[i]? = some e →
       ∃ r : Runtime,
         (∀ (j : Nat) (f : Entry) (x : Runtime), old.entries[j]? = some f → s.builder.runtimes[j]? = some x →
           f.lane = e.lane → r = x) ∧
         ((∀ f ∈ old.entries, f.lane ≠ e.lane) → r = { credit := 0, carry := .carried }) ∧
         (s.link.state = .up → t.builder.runtimes[i]? = some r) ∧
         (s.link.state ≠ .up →
           let c := if e.priority = 0 ∧ r.carry = .shed then CarryState.carried else r.carry
           t.builder.runtimes[i]? = some
             { carry := c, credit := if c = .shed then 0 else min r.credit (effShare e.share c + 15) })) ∧
     LoseReleased (fun l => l ∈ absent) s t ∧
     SameRecords ((cutReleased absent s).raise .planActive (originNum o) new.epoch.toNat) t ∧
     (s.link.state = .up → t.plan.echo = .running 0 0 none ∧
       t.control.announce = if d = .uncounted then announcement .inForce new.entries.length else s.control.announce) ∧
     (s.link.state ≠ .up → t.plan.echo = .idle ∧ t.control.announce = s.control.announce)) ∧
  (∀ s : State, s.pins.resetLow = false → s.link.state = .up → PlanLaw s.plan → s.plan.due ≠ none →
     ∃ t f, exec .referenceTick s = .next t ∧ t.lineOut = some f ∧ activeBank t = { pendingBank s with role := .active } ∧
       t.plan.hold = .free ∧ t.plan.due = none ∧ t.plan.countdown = 0 ∧
       f.header.activeEpoch = (pendingBank s).epoch ∧ f.header.planCountdown = 0 ∧ f.header.pendingEpoch = none ∧
       t.plan.echo = if t.link.state = .up then .running 0 0 none else .idle)

/-- R88, R89, R90, R92, R93, R94, R95: the fill of a plan. In plan order each entry that is not SHED adds its effective share
under the cap and is granted whole slots, no more than its lane's released tiles and the slots still free; then, in the same
order, drain takes what is left of both; the rest is PAD. The slots of an entry carry its lane's released tiles from the
front on, with their labels and samples. R28: each tile sent returns its buffer, and a line that has been sent whole
leaves. -/
def Obligations.TheFillGrantsWholeSlots : Prop :=
  ∀ s : State,
    let es := (activeBank s).entries
    let rs := s.builder.runtimes
    let cap := slotsDown s.builder.classApplied - 2
    let share (e : Entry) (r : Runtime) : Nat := if r.carry = .thinned then (e.share + 1) / 2 else e.share
    let tilesOf (u : State) (l : LaneId) : List (LineRecord × Tile) := releasedList (u.lane l).queue
    rs.length = es.length → (es.map fun e => e.lane).Nodup →
    let slots := (fill s).1
    let t := (fill s).2
    ∃ ns ms : List Nat, ns.length = es.length ∧ ms.length = es.length ∧
      (∀ (i : Nat) (e : Entry) (r : Runtime) (n m : Nat), es[i]? = some e → rs[i]? = some r → ns[i]? = some n → ms[i]? = some m →
        let credit := min (r.credit + share e r) (share e r + 15)
        let waiting := (tilesOf s e.lane).length
        let free := cap - ns.sum - (ms.take i).sum
        (r.carry = .shed → n = 0 ∧ m = 0 ∧ t.builder.runtimes[i]? = some r) ∧
        (r.carry ≠ .shed →
          n = min (credit / 16) (min waiting (cap - (ns.take i).sum)) ∧
          m = (if e.drain then min (waiting - n) free else 0) ∧
          t.builder.runtimes[i]? = some { r with credit := credit - 16 * n }) ∧
        (let label (x : LineRecord × Tile) : TileLabel := labelled i e.lane (tiles (s.lane e.lane).desc) x
         (slots.drop (ns.take i).sum).take n = ((tilesOf s e.lane).take n).map (fun x => .data (label x) x.2.samples) ∧
         (slots.drop (ns.sum + (ms.take i).sum)).take m =
           (((tilesOf s e.lane).drop n).take m).map fun x => .drain (label x) x.2.samples) ∧
        (tilesOf t e.lane).map (·.2) = ((tilesOf s e.lane).drop (n + m)).map (·.2)) ∧
      slots.length = cap ∧ ns.sum + ms.sum ≤ cap ∧ (∀ x ∈ slots.drop (ns.sum + ms.sum), x = .pad) ∧
      t.poolFree = s.poolFree + ns.sum + ms.sum ∧
      t.builder = { s.builder with runtimes := t.builder.runtimes } ∧ t.builder.runtimes.length = es.length ∧
      OnlyChanges [.lanes, .poolFree, .builder] s t ∧
      ∀ l, t.lane l = { s.lane l with queue := (t.lane l).queue } ∧
        ((t.lane l).queue.filter fun r => r.state != .released) = ((s.lane l).queue.filter fun r => r.state != .released) ∧
        ((∀ e ∈ es, e.lane ≠ l) → (t.lane l).queue = (s.lane l).queue) ∧
        ((∀ r ∈ (s.lane l).queue, r.state = .released → r.carried < r.tiles.length) →
          ∀ r ∈ (t.lane l).queue, r.state = .released → r.carried < r.tiles.length)

/-! ### Reference ticks -/

/-- R80, R81, R82, R83, R91, R98, R99, R116, R142, R143, R144: a tick in UP hands a carriage frame to the line: the frame
count one higher, the class the class in force once a due change has taken effect, the plan and class countdowns, the class
field, the carry vector and the overcommit flag as they stand, and as many data slots as the class has, none of them
PATTERN. R83, R88 to R93: the slots are those of the fill (TheFillGrantsWholeSlots) over the state that the switch, the class
change and the assessment leave (`prepared`), with its lanes and pool; R144: a class countdown that ends raises CLASS_CHANGED
there and sets the margin or the step-up timer. R102: the carry states are assessed at a switch, a new class or the first
frame in UP, and at no other frame. R122, R157: the control cell and the auxiliary records leave their queues. R116, R143,
R144: the hand-over counts down. R124: a running echo watch counts the frame, unless it began within it, and the 64th repeats
the announcement. Where no lane falls silent and the link stays up, the tick records just this. The order of the parts of a
tick is the model's (log 4), and so is the MISSING count after the verdict (log 28). -/
def Obligations.ATickInUpBuildsACarriageFrame : Prop :=
  ∀ s : State, s.pins.resetLow = false → s.link.state = .up →
    ∃ t f, exec .referenceTick s = .next t ∧ t.lineOut = some f ∧ t.rx.expected = f.header.cls ∧
      t.builder.frameCount = s.builder.frameCount + 1 ∧ f.header.frameCount = s.builder.frameCount + 1 ∧
      f.header.cls = (match s.link.proposal with
        | .counting 0 k _ => k
        | _ => s.link.classInForce) ∧
      f.header.classCountdown = (match s.link.proposal with
        | .counting n _ _ => n
        | _ => 0) ∧
      f.header.classField = (match s.link.proposal with
        | .proposing k => .propose k
        | .counting (_ + 1) k true => .agree k
        | .counting (_ + 1) _ false => .none
        | _ => if s.link.pendingRefusal then .refuse else .none) ∧
      CommonHeader s t f ∧ CarriesCell s f ∧ CellLeaves s t ∧
      f.slots.length = dataSlots f.header.cls ∧ (∀ seq x, DataSlot.pattern seq x ∉ f.slots) ∧
      (∃ n m, (∀ x ∈ f.slots.take n, isData x = true) ∧ (∀ x ∈ (f.slots.drop n).take m, isDrain x = true) ∧
        ∀ x ∈ f.slots.drop (n + m), x = .pad) ∧
      f.header.training = none ∧ f.header.test = false ∧
      f.aux = ⟨(s.side .s0).inQueue.take 4, (s.side .s1).inQueue.take 4, (s.side .s2).inQueue.take 4⟩ ∧
      (∀ i, t.side i = { s.side i with inQueue := (s.side i).inQueue.drop 4 }) ∧
      t.builder.classApplied = f.header.cls ∧ t.builder.firstInUp = false ∧
      (let assesses : Prop := s.plan.due ≠ none ∨ s.builder.classApplied ≠ f.header.cls ∨ s.builder.firstInUp = true
       let es := (activeBank t).entries
       let c16 := 16 * (slotsDown f.header.cls - 2)
       (¬ assesses → t.builder.overcommit = s.builder.overcommit ∧ t.builder.assessedTotal = s.builder.assessedTotal ∧
         t.builder.runtimes.map (fun r => r.carry) = s.builder.runtimes.map fun r => r.carry) ∧
       (assesses → t.builder.assessedTotal = (ladder es c16).2 ∧ t.builder.overcommit = decide (c16 < (ladder es c16).2) ∧
         (PlanLaw s.plan → BuilderLaw s → t.builder.runtimes.map (fun r => r.carry) = (ladder es c16).1))) ∧
      (t.link.state = .up →
        t.link.classInForce = f.header.cls ∧ t.link.pendingRefusal = false ∧
        t.link.proposal = (match s.link.proposal with
          | .counting 0 _ _ => .idle
          | .counting (n + 1) k b => .counting n k b
          | p => p) ∧
        t.plan.countdown = s.plan.countdown - 1 ∧ (t.plan.due = if s.plan.countdown = 1 then some .counted else none) ∧
        t.link.timers = (prepared s).link.timers ∧
        (s.plan.due = none →
          (s.plan.echo = .idle → t.plan.echo = .idle) ∧
          ∀ n repeats last, s.plan.echo = .running n repeats last →
            (n < 63 → t.plan.echo = .running (n + 1) repeats last ∧ t.plan.baseStanding = s.plan.baseStanding) ∧
            (63 ≤ n → t.plan.echo = .running 0 (min 65535 (repeats + 1)) last ∧ t.plan.baseStanding = .lagging ∧
              t.control.announce = announcement .inForce (activeBank s).entries.length))) ∧
      (let filled := fill (prepared s)
       f.slots = filled.1 ∧ t.builder = filled.2.builder ∧
       ((∀ l, (s.lane l).state = .running → (s.lane l).silence < 7) →
         t.poolFree = filled.2.poolFree ∧ t.release = s.release ∧
         (∀ l, t.lane l = { filled.2.lane l with
           silence := if (s.lane l).state = .running then (s.lane l).silence + 1 else (s.lane l).silence }) ∧
         (t.link.state = .up →
           let handed := echoRecorded s (chooseCell filled.2).2
           SameRecords (if s.rx.period = .empty then handed.bump (.link .framesMissing) else handed) t))) ∧
      t.refWatch = .armed ∧ t.rx.period = .empty ∧ t.pins = s.pins ∧ t.pending = s.pending

/-- R98, R99, R116, R117, R131, R132, R133: a tick in a training state hands over a frame of class 5, all PAD, without
auxiliary bytes, with the plan countdown, the carry vector and the control cell as in any frame; a training switch frame
carries AGREE and, from the ninth on, its countdown. R80, R118: a tick in DOWN or DISABLED builds no frame and chooses no
cell; a switch that is due is still taken. The order of the parts of a tick is the model's (log 4). -/
def Obligations.TicksOutsideUp : Prop :=
  (∀ s : State, s.pins.resetLow = false →
     s.link.state = .measure ∨ s.link.state = .offer ∨ s.link.state = .trainSwitch →
     ∃ t f, exec .referenceTick s = .next t ∧ t.lineOut = some f ∧ t.builder.frameCount = s.builder.frameCount + 1 ∧
       f.header.frameCount = s.builder.frameCount + 1 ∧ f.header.cls = .c5 ∧ f.slots = List.replicate 22 .pad ∧
       f.aux = ⟨[], [], []⟩ ∧ t.sides = s.sides ∧ f.header.test = false ∧ t.rx.expected = .c5 ∧
       CommonHeader s t f ∧ CarriesCell s f ∧ CellLeaves s t ∧
       (t.link.state = s.link.state →
         t.plan.countdown = s.plan.countdown - 1 ∧ t.plan.due = (if s.plan.countdown = 1 then some .counted else none) ∧
         t.link.trainFrames = if s.link.state = .trainSwitch then s.link.trainFrames + 1 else s.link.trainFrames) ∧
       (s.link.state = .trainSwitch → 15 ≤ s.link.trainFrames → t.link.state = .up ∨ t.link.state = .down) ∧
       (s.link.state = .offer → f.header.training = s.link.ceiling ∧ f.header.classField = .none) ∧
       (s.link.state ≠ .offer → f.header.training = none) ∧
       (s.link.state ≠ .trainSwitch → f.header.classCountdown = 0 ∧ f.header.classField = .none ∧
         t.link = s.link) ∧
       (∀ k, s.link.state = .trainSwitch → s.link.selected = some k →
         f.header.classField = .agree k ∧
         f.header.classCountdown = if s.link.trainFrames < 8 then 0 else 16 - s.link.trainFrames)) ∧
  (∀ s : State, s.pins.resetLow = false → s.link.state = .down ∨ s.link.state = .disabled →
     ∃ t, exec .referenceTick s = .next t ∧ t.lineOut = s.lineOut ∧ t.builder.frameCount = s.builder.frameCount ∧
       t.link = s.link ∧ t.control.responses = s.control.responses ∧ t.control.announce = s.control.announce ∧
       t.control.relayOut = s.control.relayOut ∧ t.sides = s.sides ∧ t.refWatch = .armed ∧
       (s.plan.due = none → t.plan = { s.plan with lossTaken := false } ∧ t.builder = s.builder) ∧
       (s.plan.due ≠ none → activeBank t = { pendingBank s with role := .active } ∧ pendingBank t = .emptied ∧
         t.plan.hold = .free ∧ t.plan.due = none ∧ t.plan.echo = .idle))

/-- R80, R176, R177: a tick in TEST builds a frame at the test class, all PATTERN in consecutive numbers;
PATTERN_OUT hands it to the line, and PATTERN_LOOP to the checker, which finds every one of its own tiles right. R98, R99,
R122: its header and its control cell are as in any frame, with no class message and no auxiliary bytes. R176: the 256
samples of a pattern come from the generator of 15 stages, seeded from the low 15 bits of the number or 1, with the output
bit of stage 15 and the feedback of stages 14 and 15, 12 output bits a sample, the first its most significant. R182: the
idle hold is asserted exactly in PATTERN_LOOP; that the modem delivers no frame from this frame event on is the model's
reading of R175 (log 22). The order of the parts of a tick is the model's (log 4). -/
def Obligations.ATickInTestBuildsAPatternFrame : Prop :=
  (∀ s : State, s.pins.resetLow = false → s.link.state = .test →
    let c := dataSlots s.test.cls
    ∃ t, exec .referenceTick s = .next t ∧ t.builder.frameCount = s.builder.frameCount + 1 ∧
      t.test.nextSeq = s.test.nextSeq + wordOf c ∧ t.test.mode = s.test.mode ∧ t.test.errored = s.test.errored ∧
      t.link = s.link ∧ t.sides = s.sides ∧ t.test.idle = decide (s.test.mode = .patternLoop) ∧
      idleHold t = decide (s.test.mode = .patternLoop) ∧ CellLeaves s t ∧
      (s.test.mode = .patternLoop → t.lineOut = s.lineOut ∧ (s.test.checked ≤ 65535 →
        t.test.checked = min 65535 (s.test.checked + c))) ∧
      (s.test.mode ≠ .patternLoop → t.test.checked = s.test.checked ∧
        ∃ f, t.lineOut = some f ∧ f.header.cls = s.test.cls ∧ f.header.test = true ∧ f.slots.length = c ∧
          f.header.frameCount = s.builder.frameCount + 1 ∧ f.header.training = none ∧ f.header.classField = .none ∧
          f.header.classCountdown = 0 ∧ f.aux = ⟨[], [], []⟩ ∧ CommonHeader s t f ∧ CarriesCell s f ∧
          t.rx.expected = s.test.cls ∧
          ∀ (i : Nat) (x : DataSlot), f.slots[i]? = some x →
            x = .pattern (s.test.nextSeq + wordOf i) (patternSamples (s.test.nextSeq + wordOf i)))) ∧
  ∀ seq : Word16, ∃ st : Nat → BitVec 15, PatternSteps seq st ∧ (patternSamples seq).length = 256 ∧
    ∀ (i j : Nat) (x : Sample), (patternSamples seq)[i]? = some x → j < 12 → x.getLsbD (11 - j) = (st (12 * i + j)).getLsbD 14

/-- R159: the tally hold falls by 1 at a tick whose period brought no valid frame in UP, and at 0 the lamps go off. R8: a
RUNNING lane's silence count rises by 1, and its eighth tick faults it. R136, R149: in TRAIN_SWITCH and UP the verdict of
the period goes into the sync run, the beacon stall and the window, a criterion met drops the link with its cause, and a
MISSING verdict is counted; in any other state no verdict is taken. The period begins anew. That the stall stands across a
gap, and that the MISSING count follows the verdict, are the model's readings (logs 14, 28). -/
def Obligations.CountsAreKeptByTheTick : Prop :=
  ∀ s : State, s.pins.resetLow = false →
    ∃ t, exec .referenceTick s = .next t ∧ t.rx.period = .empty ∧ t.rx.upValid = false ∧
      (s.rx.upValid = true ∨ s.tally.hold = 0 → t.tally = s.tally) ∧
      (s.rx.upValid = false → s.tally.hold = 1 →
        t.tally = { program := false, preview := false, call := false, hold := 0 }) ∧
      (∀ n, s.rx.upValid = false → s.tally.hold = n + 2 → t.tally = { s.tally with hold := n + 1 }) ∧
      (∀ l, ((s.lane l).state ≠ .running → (t.lane l).silence = (s.lane l).silence ∧ (t.lane l).state = (s.lane l).state) ∧
        ((s.lane l).state = .running → (s.lane l).silence < 7 →
          (t.lane l).silence = (s.lane l).silence + 1 ∧ (t.lane l).state = .running) ∧
        ((s.lane l).state = .running → 7 ≤ (s.lane l).silence →
          (t.lane l).silence = 8 ∧ (t.lane l).state = .faulted)) ∧
      (let supervised : Prop := s.link.state = .trainSwitch ∨ s.link.state = .up
       let drops (k : Cause) : Prop :=
         t.link.state = .down ∧ t.link.lastCause = k ∧ t.link.dropCount = min 65535 (s.link.dropCount + 1) ∧
           t.control.announce = [] ∧ t.control.relayOut = [] ∧ t.plan.lossTaken = true
       (¬ supervised → t.link = s.link ∧ t.plan.lossTaken = false ∧
         t.counter (.link .framesMissing) = s.counter (.link .framesMissing)) ∧
       (supervised →
         (s.rx.period = .empty →
           t.counter (.link .framesMissing) = counterUp (s.counter (.link .framesMissing))) ∧
         (s.rx.period ≠ .empty → t.counter (.link .framesMissing) = s.counter (.link .framesMissing)) ∧
         (SyncMet s → drops .sync) ∧ (¬ SyncMet s → BeaconMet s → drops .beacon) ∧
         (¬ SyncMet s → ¬ BeaconMet s → BurstMet s → drops .burst) ∧
         (¬ SyncMet s → ¬ BeaconMet s → ¬ BurstMet s →
           (t.link.state = s.link.state ∨ (s.link.state = .trainSwitch ∧ t.link.state = .up)) ∧ t.plan.lossTaken = false ∧
           t.link.supervision = judged s)))

/-- R122: the control cell of a frame comes from the first queue that is not empty, in the order announcement,
response, relay, notice, and leaves it; with every queue empty it is IDLE. R119, Tables 7-1, 7-2, 12-6: the cells of an
announcement and their tags, and the payload of each: a SWITCH announcement reads the pending bank and an IN_FORCE one the
active bank; the head cell gives its kind, epoch, entry count, cells and, for SWITCH, the frame count of the switch frame;
the k-th entry cell the entries 4k to 4k + 3 that exist; the lane cell each lane that the plan names, in lane number order,
with its W, H and m. That a queued cell keeps its part and its tag where the active plan has changed since is the model's
choice (log 34). -/
def Obligations.TheControlSlotServesInOrder : Prop :=
  (∀ (kind : AnnounceKind) (n : Nat),
    (announcement kind n).length = 2 + (n + 3) / 4 ∧
    ∀ (i : Nat) (c : AnnounceCell), (announcement kind n)[i]? = some c → c.kind = kind ∧ c.tag = i ∧
      c.part = if i = 0 then .head else if i ≤ (n + 3) / 4 then .entries (i - 1) else .lanes) ∧
  (∀ (s : State) (kind : AnnounceKind) (tag k : Nat),
    let bank := match kind with
      | .switch => pendingBank s
      | .inForce => activeBank s
    let es := bank.entries
    let named : List Byte := [match kind with
      | .switch => 1
      | .inForce => 2, bank.epoch]
    let cell (part : AnnouncePart) : Cell := announceCellOf s { kind := kind, tag := tag, part := part }
    cell .head = { kind := 16, tag := byteOf tag, payload := named ++ [byteOf es.length, byteOf (2 + (es.length + 3) / 4)] ++
      match kind with
      | .switch => two (s.builder.frameCount.toNat + s.plan.countdown)
      | .inForce => [] } ∧
    (∃ rows : List (List Byte), rows.length = min 4 (es.length - 4 * k) ∧
      cell (.entries k) = { kind := 17, tag := byteOf tag, payload := named ++ rows.flatten } ∧
      ∀ (j : Nat) (row : List Byte) (e : Entry), rows[j]? = some row → es[4 * k + j]? = some e →
        row = [byteOf (4 * k + j), byteOf (laneNum e.lane)] ++ two e.share ++
          [byteOf e.priority.val, byteOf (boolNum e.thinning), byteOf (boolNum e.drain)]) ∧
    cell .lanes = { kind := 18, tag := byteOf tag, payload := named ++
      (laneIds.filter fun l => es.any fun e => e.lane == l).flatMap fun l =>
        [byteOf (laneNum l)] ++ two (s.lane l).desc.w ++ two (s.lane l).desc.h ++ [byteOf (s.lane l).desc.m] }) ∧
  ∀ s : State,
    (∀ c rest, s.control.announce = c :: rest →
      chooseCell s = (announceCellOf s c, { s with control := { s.control with announce := rest } })) ∧
    (s.control.announce = [] →
      (∀ r rest, s.control.responses = r :: rest →
        chooseCell s = ({ kind := 19, tag := r.tag, payload := r.opcode :: byteOf (resultNum r.result) :: r.data },
          { s with control := { s.control with responses := rest } })) ∧
      (s.control.responses = [] →
        (∀ m rest, s.control.relayOut = m :: rest →
          chooseCell s = ({ kind := 20, tag := m.tag, payload := m.bytes },
            { s with control := { s.control with relayOut := rest } })) ∧
        (s.control.relayOut = [] →
          (∀ e rest, s.control.notices = e :: rest →
            chooseCell s = ({ kind := 21, tag := byteOf (eventNum e.kind), payload := eventBytes e },
              { s with control := { s.control with notices := rest } })) ∧
          (s.control.notices = [] → chooseCell s = ({ kind := 0, tag := 0, payload := [] }, s)))))

/-! ### What ends at a tick -/

/-- R116, R144: the hand-over of the frame that carries countdown 1 leaves a switch, or a class change, due. R159,
R161: the hold count that runs out puts the lamps off; a missing reference is raised once. These are the model's
choices: that a countdown row with any other count, and TALLY_HOLD_EXPIRY where the hold count is not 1 or the period
brought a valid frame, does nothing (log 1); and that REFERENCE_LOST is raised in every state of the watch in which it
has not been raised since the last tick, whatever time has passed (log 5). R133, R135: the hand-over of the sixteenth
training switch frame takes the link to UP at the selected class. LINK_UP is raised, the active bank is announced
whole, the echo watch starts, and the margin or the step-up timer is set. R124: the frame that brings the echo watch
to 64 repeats the announcement, counts the repeat and, from IN_STEP, raises BASE_OUT_OF_STEP with the last echo, or
256. That either row given alone does this part of a hand-over or a frame event, and nothing before it is due, is the
model's choice (log 1). -/
def Obligations.CountsHoldsAndWatchesRunOut : Prop :=
  (∀ s : State, s.pins.resetLow = false →
     (s.plan.countdown = 1 →
       exec .switchCountdownEnd s = .next { s with plan := { s.plan with countdown := 0, due := some .counted } }) ∧
     (s.plan.countdown ≠ 1 → exec .switchCountdownEnd s = .next s) ∧
     (∀ k b, s.link.proposal = .counting 1 k b →
       exec .classCountdownEnd s = .next { s with link := { s.link with proposal := .counting 0 k b } }) ∧
     ((∀ k b, s.link.proposal ≠ .counting 1 k b) → exec .classCountdownEnd s = .next s)) ∧
  (∀ s : State, s.pins.resetLow = false →
     (s.tally.hold = 1 → s.rx.upValid = false →
       exec .tallyHoldExpiry s = .next { s with tally := { program := false, preview := false, call := false, hold := 0 } }) ∧
     (s.tally.hold ≠ 1 ∨ s.rx.upValid = true → exec .tallyHoldExpiry s = .next s) ∧
     (s.refWatch ≠ .fired →
       ∃ t, exec .referenceLost s = .next t ∧ t.refWatch = .fired ∧ Raises .referenceLost 0 0 s t ∧
         OnlyChanges [.refWatch, .events, .notices, .counters] s t) ∧
     (s.refWatch = .fired → exec .referenceLost s = .next s)) ∧
  (∀ s : State, s.pins.resetLow = false →
    (∀ k, s.link.state = .trainSwitch → 15 ≤ s.link.trainFrames → s.link.selected = some k →
      ∃ t, exec .trainSwitchEnd s = .next t ∧ OnlyChanges [.link, .builder, .plan, .announce, .events, .notices, .counters] s t ∧
        t.link = { s.link with
          state := .up, classInForce := k, selected := none, trainFrames := 0, attempts := 0,
          timers := {
            retry := .stopped, measure := none, offer := none, answer := none,
            margin := if s.pins.marginWarning then some 100 else none,
            stepUp := if s.pins.marginWarning then none else some 30000 } } ∧
        t.builder = { s.builder with firstInUp := true } ∧ t.plan = { s.plan with echo := .running 0 0 none } ∧
        t.control.announce = announcement .inForce (activeBank s).entries.length ∧
        Raises .linkUp (classNum k) (classOptNum s.link.ceiling) s t) ∧
    (s.link.state ≠ .trainSwitch ∨ s.link.trainFrames < 15 → exec .trainSwitchEnd s = .next s)) ∧
  (∀ s : State, s.pins.resetLow = false →
    (∀ n repeats last, s.plan.echo = .running n repeats last → s.link.state = .up → 63 ≤ n →
      ∃ t, exec .echoWatchExpiry s = .next t ∧ OnlyChanges [.plan, .announce, .events, .notices, .counters] s t ∧
        t.plan = { s.plan with baseStanding := .lagging, echo := .running 0 (min 65535 (repeats + 1)) last } ∧
        t.control.announce = announcement .inForce (activeBank s).entries.length ∧
        (s.plan.baseStanding = .inStep →
          Raises .baseOutOfStep (activeBank s).epoch.toNat (match last with
            | none => 256
            | some e => e.toNat) s t) ∧
        (s.plan.baseStanding = .lagging → t.events = s.events)) ∧
    (s.plan.echo = .idle ∨ s.link.state ≠ .up ∨ (∃ n repeats last, s.plan.echo = .running n repeats last ∧ n < 63) →
      exec .echoWatchExpiry s = .next s))

/-- R136, R138: in TRAIN_SWITCH and UP a verdict that leaves the sync run at 4 or more, the beacon stall at 64 or more, or 16
or more FAILED verdicts among 256, with that criterion enabled, drops the link; the cause is the first of SYNC, BEACON and
BURST that is met, also where its count stood at the threshold before. It has the records of a drop (R63, R126, R127, R153;
log 13), after which a MISSING verdict is counted (R149, log 28). With no enabled criterion met, and in any other state, the
row is not that verdict and does nothing (the model's choice, log 1). That the beacon stall stands across a missing frame is
its reading (log 14). -/
def Obligations.ALossCriterionDropsTheLink : Prop :=
  ∀ s : State, s.pins.resetLow = false →
    let drops (cause : Cause) : Prop :=
      ∃ t, exec .lossCriterionMet s = .next t ∧ Dropped cause s t ∧ OnlyChanges dropChanges s t ∧
        (s.rx.period ≠ .empty → SameRecords (raiseAll (dropEvents cause s) s) t) ∧
        (s.rx.period = .empty → SameRecords ((raiseAll (dropEvents cause s) s).bump (.link .framesMissing)) t)
    (s.link.state = .up ∨ s.link.state = .trainSwitch →
      (SyncMet s → drops .sync) ∧ (¬ SyncMet s → BeaconMet s → drops .beacon) ∧
      (¬ SyncMet s → ¬ BeaconMet s → BurstMet s → drops .burst) ∧
      (¬ SyncMet s → ¬ BeaconMet s → ¬ BurstMet s → exec .lossCriterionMet s = .next s)) ∧
    (s.link.state ≠ .up → s.link.state ≠ .trainSwitch → exec .lossCriterionMet s = .next s)

/-! ### Timers -/

/-- R62: the hold timer runs out in HELD: the pending bank is discarded, the hold is free, and HOLD_EXPIRED names
the holder and the epoch. R130, R131: in DOWN the expiry of the retry timer measures if the carrier is present and
waits for it otherwise; the rise of the carrier measures if the timer has expired. These are the model's choices: that a
row of a timer is its expiry whatever time is left, and nothing where it is stopped (log 5); and that CARRIER_RISE with the
carrier already present is taken as the level that it names (log 23). -/
def Obligations.HoldAndRetryTimersRunOut : Prop :=
  (∀ s : State, s.pins.resetLow = false →
     (∀ o ms, s.plan.hold = .held o ms →
       ∃ t, exec .holdTimerExpiry s = .next t ∧
         t.plan = { bankSet s.plan (otherId s.plan) { role := .free, epoch := 0, entries := [] } with hold := .free } ∧
         Raises .holdExpired (match o with
           | .head => 1
           | .base => 2) (pendingBank s).epoch.toNat s t ∧
         OnlyChanges [.plan, .events, .notices, .counters] s t) ∧
     ((∀ o ms, s.plan.hold ≠ .held o ms) → exec .holdTimerExpiry s = .next s)) ∧
  (∀ s : State, s.pins.resetLow = false →
     let risen : State := { s with pins := { s.pins with carrier := true } }
     (s.link.state = .down → s.pins.carrier = true →
       exec .retryTimerExpiry s = .next { s with link := measuring 0 s.link }) ∧
     (s.link.state = .down → s.pins.carrier = false →
       exec .retryTimerExpiry s = .next
         { s with link := { s.link with timers := { s.link.timers with retry := .expired } } }) ∧
     (s.link.state ≠ .down → exec .retryTimerExpiry s = .next s) ∧
     (s.link.state = .down → s.link.timers.retry = .expired →
       exec .carrierRise s = .next { risen with link := measuring 0 s.link }) ∧
     (s.link.state ≠ .down ∨ s.link.timers.retry ≠ .expired → exec .carrierRise s = .next risen))

/-- R131, R134: the modem's result takes MEASURE to OFFER at its ceiling; the expiry of the measure timer or of the
offer timer is a training failure, which measures again up to the fourth, and that drops the link. A row of a timer
is its expiry whatever time is left, and nothing where it is stopped (the model's choice, log 5), and the order of the
records of a drop is the model's (log 13). -/
def Obligations.TrainingEndsOrFails : Prop :=
  ∀ s : State, s.pins.resetLow = false →
    let fails (i : Instr) : Prop :=
      (s.link.attempts + 1 < 4 → exec i s = .next { s with link := measuring (s.link.attempts + 1) s.link }) ∧
      (4 ≤ s.link.attempts + 1 →
        ∃ t, exec i s = .next t ∧ Drops .trainingFailed { s with link := { s.link with attempts := 4 } } t ∧
          OnlyChanges dropChanges s t)
    (s.link.state = .measure → fails .measureTimerExpiry) ∧
    (s.link.state ≠ .measure → exec .measureTimerExpiry s = .next s) ∧
    (s.link.state = .offer → fails .offerTimerExpiry) ∧
    (s.link.state ≠ .offer → exec .offerTimerExpiry s = .next s) ∧
    ∀ k,
      (s.link.state = .measure → exec (.measurementResult k) s = .next { s with link := { resting .offer .stopped s.link with
        ceiling := some k,
        timers := { Timers.stopped with offer := some 500 } } }) ∧
      (s.link.state ≠ .measure → exec (.measurementResult k) s = .next s)

/-- R142: the answer timer runs out. A step up is abandoned; a step down drops the link with CLASS_TIMEOUT, or is
abandoned when that criterion is disabled. R140, R141, R142: the margin timer raises MARGIN_LOW and proposes the next worse
class, if there is one; the step-up timer proposes the next better class below the ceiling, or is set again. A row of a
timer is its expiry whatever time is left, and nothing where it is stopped or outside UP (the model's choice, log 5); the order of the
records of a drop is the model's (log 13). -/
def Obligations.AnswerMarginAndStepUpTimersRunOut : Prop :=
  (∀ s : State, s.pins.resetLow = false →
    (∀ k, s.link.state = .up → s.link.proposal = .proposing k →
      (classNum k < classNum s.link.classInForce →
        exec .answerTimerExpiry s = .next { s with link := withdrawn s.pins.marginWarning true s.link }) ∧
      (classNum s.link.classInForce ≤ classNum k → s.link.criteria.classTimeout = true →
        ∃ t, exec .answerTimerExpiry s = .next t ∧ Drops .classTimeout s t ∧ OnlyChanges dropChanges s t) ∧
      (classNum s.link.classInForce ≤ classNum k → s.link.criteria.classTimeout = false →
        exec .answerTimerExpiry s = .next { s with link := withdrawn s.pins.marginWarning false s.link })) ∧
    (s.link.state ≠ .up ∨ (∀ k, s.link.proposal ≠ .proposing k) → exec .answerTimerExpiry s = .next s)) ∧
  (∀ (s : State) (ms : Nat), s.pins.resetLow = false → s.link.state = .up →
    let proposing (k : RateClass) : LinkCtl :=
      { s.link with
        proposal := .proposing k, pendingRefusal := false,
        timers := { s.link.timers with answer := some 200, margin := none } }
    (s.link.timers.margin = some ms →
      ∃ t, exec .marginTimerExpiry s = .next t ∧ OnlyChanges [.link, .events, .notices, .counters] s t ∧
        Raises .marginLow (classNum s.link.classInForce) (classOptNum s.link.ceiling) s t ∧
        (s.link.classInForce = .c5 → t.link = { s.link with timers := { s.link.timers with margin := none } }) ∧
        ∀ k, classNum k = classNum s.link.classInForce + 1 → t.link = proposing k) ∧
    (s.link.timers.stepUp = some ms →
      (∀ k c, s.link.ceiling = some c → classNum c < classNum s.link.classInForce → s.link.proposal = .idle →
        classNum k + 1 = classNum s.link.classInForce →
        exec .stepUpTimerExpiry s = .next { s with link := { proposing k with
          timers := { s.link.timers with answer := some 200, margin := none, stepUp := none } } }) ∧
      ((s.link.proposal ≠ .idle ∨ s.link.ceiling = none ∨
          ∃ c, s.link.ceiling = some c ∧ classNum s.link.classInForce ≤ classNum c) →
        exec .stepUpTimerExpiry s = .next { s with link := { s.link with
          timers := { s.link.timers with stepUp := some 30000 } } }))) ∧
  (∀ s : State, s.pins.resetLow = false →
    (s.link.state ≠ .up ∨ s.link.timers.margin = none → exec .marginTimerExpiry s = .next s) ∧
    (s.link.state ≠ .up ∨ s.link.timers.stepUp = none → exec .stepUpTimerExpiry s = .next s))

/-! ### The modem -/

/-- R137, R138: a fall of the carrier drops the link from the states that carry frames, and does nothing in the
others. R140, R141: the margin warning in UP. Its rise stops the step-up timer, withdraws a step up that the part
has proposed, and starts the margin timer when no proposal stands; its fall stops the margin timer and sets the
step-up timer. An edge of a level that already stands is the model's (log 23), and so is the order of the records of
a drop (log 13). -/
def Obligations.CarrierAndMarginWarningMoveTheLink : Prop :=
  (∀ s : State, s.pins.resetLow = false →
     let fallen : State := { s with pins := { s.pins with carrier := false } }
     (Carrying s.link.state →
       ∃ t, exec .carrierFall s = .next t ∧ Drops .carrier s t ∧ OnlyChanges dropChanges fallen t) ∧
     (¬ Carrying s.link.state → exec .carrierFall s = .next fallen)) ∧
  (∀ s : State, s.pins.resetLow = false →
     let pins (b : Bool) : State := { s with pins := { s.pins with marginWarning := b } }
     let starts : LinkCtl := { s.link with timers := { s.link.timers with margin := some 100, stepUp := none } }
     let stops : LinkCtl := { s.link with timers := { s.link.timers with stepUp := none } }
     (s.pins.marginWarning = false →
       (s.link.state ≠ .up → exec .marginWarningRise s = .next (pins true)) ∧
       (s.link.state = .up →
         (s.link.proposal = .idle → exec .marginWarningRise s = .next { pins true with link := starts }) ∧
         (∀ k, s.link.proposal = .proposing k → classNum k < classNum s.link.classInForce →
           exec .marginWarningRise s = .next { pins true with link := withdrawn true false s.link }) ∧
         (∀ k, s.link.proposal = .proposing k → classNum s.link.classInForce ≤ classNum k →
           exec .marginWarningRise s = .next { pins true with link := stops }) ∧
         (∀ n k b, s.link.proposal = .counting n k b →
           exec .marginWarningRise s = .next { pins true with link := stops })) ∧
       exec .marginWarningFall s = .next s) ∧
     (s.pins.marginWarning = true →
       exec .marginWarningRise s = .next s ∧
       (s.link.state ≠ .up → exec .marginWarningFall s = .next (pins false)) ∧
       (s.link.state = .up → exec .marginWarningFall s = .next { pins false with link := { s.link with
         timers := { s.link.timers with margin := none, stepUp := some 30000 } } })))

/-- R149: the receiver takes frames in MEASURE, OFFER, TRAIN_SWITCH, UP and TEST, but not while the modem is idle for
PATTERN_LOOP (R177); that it still takes them between a change from PATTERN_OUT and the next frame event is the model's
choice (log 22). A frame that arrives while none is received does nothing; a second frame of the period, and one that fails
its length or its check, are counted, and the failed first frame gives the verdict. R150, R151, R152: the command in
a valid frame taken in MEASURE is the same command sent by the base link, after the header; its tally, auxiliary and
return slots are discarded there. The class that gives the length, and the order header, cell, slots, are the model's
readings (logs 9, 12), and the order of the four bytes of the frame check is its choice (log 35). -/
def Obligations.UpstreamFramesAreCheckedAndTheirCommandTaken : Prop :=
  (∀ s : State, receives s = true ↔
     (s.link.state = .measure ∨ s.link.state = .offer ∨ s.link.state = .trainSwitch ∨ s.link.state = .up) ∨
       (s.link.state = .test ∧ s.test.idle = false)) ∧
  (∀ (bytes : List Byte) (s : State), s.pins.resetLow = false →
     (receives s = false → exec (.upstreamFrame bytes) s = .next s) ∧
     (receives s = true → s.rx.period ≠ .empty →
       ∃ t, exec (.upstreamFrame bytes) s = .next t ∧ Counts (.link .frameCheckFailures) s t ∧
         OnlyChanges [.events, .notices, .counters] s t) ∧
     (receives s = true → s.rx.period = .empty →
       bytes.length ≠ 10 + 400 * slotsUp s.rx.expected + 4 ∨
         (bytes.drop (10 + 400 * slotsUp s.rx.expected)).take 4 ≠
           crc32Bytes (crc32 (bytes.take (10 + 400 * slotsUp s.rx.expected))) →
       ∃ t, exec (.upstreamFrame bytes) s = .next t ∧ t.rx = { s.rx with period := .failed } ∧
         Counts (.link .frameCheckFailures) s t ∧ OnlyChanges [.rx, .events, .notices, .counters] s t)) ∧
  (∀ (bytes : List Byte) (tag opcode : Byte) (args : List Byte) (c : Cmd) (s : State), s.pins.resetLow = false →
     s.link.state = .measure → s.rx.period = .empty → s.plan.echo = .idle →
     upFramePasses s.rx.expected bytes = true →
     let u := upFrameOf s.rx.expected bytes
     u.cell = some { kind := 1, tag := tag, payload := opcode :: args } → Cmd.decode opcode args = some c →
     ∃ t, exec (.upstreamFrame bytes) s = .next t ∧ exec (row .base tag c) (tookFrame u s) = .next t)

/-- R149, R150, Table 9-1: a valid frame taken in a receiving state goes part by part to its owners, in the link state as
each part finds it: the echo to the echo compare; the class field in UP; SELECT in OFFER; the class countdown echo in
TRAIN_SWITCH and UP; the tally in UP; then the control cell; then in UP the auxiliary records to the out queues and the
return slots to the return port; in TEST the return slots to the checker. R151, R152, R168: a bad cell is counted; a COMMAND
cell is the base link's command, BAD_COMMAND where it names none, and lost where 8 responses wait; a RELAY_TO_HEAD cell goes
to the mailbox. R125: what the echo compare does. R158, R160, R177, R178: what one auxiliary record and one return slot do.
The order after the cell is the model's (log 12), the echo of an empty COMMAND cell is some byte (log 21). These are the
model's too: the class that gives the length of the frame (log 9) and the order of the four bytes of its check (log 35);
what even and odd parity mean (log 25); that a mark not carried is counted as its byte starts (log 37); that
returns are checked in PATTERN_LOOP until the modem is idle (log 22); that the beacon of the frame whose SELECT is taken is
kept (log 33); and that a class countdown echo above 8 is kept as it came (log 32). -/
def Obligations.EachPartOfAFrameReachesItsOwner : Prop :=
  (∀ (bytes : List Byte) (s : State), s.pins.resetLow = false → receives s = true → s.rx.period = .empty →
     upFramePasses s.rx.expected bytes = true →
     let u := upFrameOf s.rx.expected bytes
     let h := headerTaken u (echoCompare u.echo (tookFrame u s))
     ∃ c, CellTaken u.cell h c ∧
       (c.link.state = .up → exec (.upstreamFrame bytes) s = .next (State.each takeReturn u.returns
         (State.each (sideOut .s2) u.aux.s2 (State.each (sideOut .s1) u.aux.s1 (State.each (sideOut .s0) u.aux.s0 c))))) ∧
       (c.link.state = .test → exec (.upstreamFrame bytes) s = .next (State.each checkReturn u.returns c)) ∧
       (c.link.state ≠ .up → c.link.state ≠ .test → exec (.upstreamFrame bytes) s = .next c)) ∧
  (∀ (echo : Byte) (s : State),
     let epoch := (activeBank s).epoch
     (s.plan.echo = .idle → echoCompare echo s = s) ∧
     ∀ n repeats last, s.plan.echo = .running n repeats last →
       (echo ≠ epoch →
         echoCompare echo s = { s with plan := { s.plan with echo := .running n repeats (some echo) } }) ∧
       (echo = epoch → s.plan.baseStanding = .inStep →
         echoCompare echo s = { s with plan := { s.plan with echo := .idle } }) ∧
       (echo = epoch → s.plan.baseStanding = .lagging →
         echoCompare echo s =
           { s with plan := { s.plan with echo := .idle, baseStanding := .inStep } }.raise .baseInStep epoch.toNat repeats)) ∧
  (∀ (i : SideId) (r : ByteRecord) (s : State),
     let x := s.side i
     let odd := decide (((List.range 8).countP fun k => r.data.getLsbD k) % 2 = 1)
     let bit : Option Bool := match x.parity with
       | .none => none
       | .even => some (if r.mark = .clean then odd else !odd)
       | .odd => some (if r.mark = .clean then !odd else odd)
     let queued : State := { s with sides := s.sides.set i { x with outQueue := x.outQueue ++ [r] } }
     let sent : State := { s with sides := s.sides.set i { x with shifting := some ⟨r.data, bit, x.rate⟩ } }
     (64 ≤ x.outQueue.length → sideOut i r s = s.bump (.side i .outOverruns)) ∧
     (x.outQueue.length < 64 → x.shifting ≠ none → sideOut i r s = queued) ∧
     (x.shifting = none → x.outQueue = [] →
       (x.parity ≠ .none ∨ r.mark = .clean → sideOut i r s = sent) ∧
       (x.parity = .none → r.mark ≠ .clean → sideOut i r s = sent.bump (.side i .marksNotCarried)))) ∧
  (∀ (r : ReturnSlot) (s : State),
     (r.kind ≠ 1 → takeReturn r s = s) ∧ (r.kind ≠ 3 → checkReturn r s = s) ∧
     (r.kind = 1 →
       (s.ret.buffer.length < 48 →
         takeReturn r s = { s with ret := { s.ret with buffer := s.ret.buffer ++ [returned r] } }) ∧
       (48 ≤ s.ret.buffer.length → takeReturn r s = s.bump (.link .returnTilesLost))) ∧
     (r.kind = 3 →
       let n := min 65535 (s.test.checked + 1)
       let counts (e : Nat) : State := { s with test := { s.test with checked := n, errored := e } }
       (r.samples = patternSamples r.seq → checkReturn r s = counts s.test.errored) ∧
       (r.samples ≠ patternSamples r.seq →
         (s.test.errored < 65535 → checkReturn r s = counts (s.test.errored + 1)) ∧
         (65535 ≤ s.test.errored → s.test.countMode = .stopAtMax → checkReturn r s = counts s.test.errored) ∧
         (65535 ≤ s.test.errored → s.test.countMode = .wrap →
           checkReturn r s = (counts 0).raise .testWrap (classNum s.test.cls) n))))

/-- R150, R158, R159, R160: a valid frame taken in UP with no command, no class field and no return tile beyond the
buffer's room sets the tally outputs and their hold, and its DATA return slots join the return buffer in order. The
class that gives the length, and the order header, cell, slots, are the model's readings (logs 9, 12); that a class countdown
echo above 8 is kept as it came (R144), and the order of the four bytes of the frame check, are its choices (logs 32, 35). -/
def Obligations.AFrameInUpServesTallyAndReturns : Prop :=
  ∀ (bytes : List Byte) (s : State), s.pins.resetLow = false → s.link.state = .up → s.rx.period = .empty →
    s.plan.echo = .idle → upFramePasses s.rx.expected bytes = true →
    let u := upFrameOf s.rx.expected bytes
    let tiles := (u.returns.filter fun r => r.kind == 1).map returned
    ∀ (tag : Byte) (payload : List Byte), u.cell = some { kind := 0, tag := tag, payload := payload } →
    u.classField = .none → u.aux = ⟨[], [], []⟩ →
    s.ret.buffer.length + tiles.length ≤ 48 →
    exec (.upstreamFrame bytes) s = .next { tookFrame u s with
      link := { s.link with lastClassEcho := u.classEcho },
      tally := { program := u.program, preview := u.preview, call := u.call, hold := 32 },
      ret := { s.ret with buffer := s.ret.buffer ++ tiles } }

/-- R132, R142, R143: what a SELECT in OFFER and the class field of a valid frame in UP do to the link controller.
The class that gives the length, and the order header, cell, slots, are the model's readings (logs 9, 12). -/
def Obligations.TheBaseSelectsAgreesAndProposes : Prop :=
  ∀ (s : State) (j k c : RateClass), s.link.ceiling = some c →
    let now := s.link.classInForce
    let after (u : State) (v : LinkCtl) : Prop := u = { s with link := v }
    (s.link.state = .offer → classNum c ≤ classNum k →
      after (takeSelect k s) { resting .trainSwitch .stopped s.link with selected := some k }) ∧
    (s.link.state ≠ .offer ∨ classNum k < classNum c → takeSelect k s = s) ∧
    (s.link.proposal = .idle →
      takeClassField (.agree k) s = s ∧ takeClassField .refuse s = s ∧
      (classNum c ≤ classNum k → k ≠ now → after (takeClassField (.propose k) s) (countingDown k true s.link)) ∧
      (classNum k < classNum c ∨ k = now →
        after (takeClassField (.propose k) s) { s.link with pendingRefusal := true })) ∧
    (s.link.proposal = .proposing j →
      (k = j → after (takeClassField (.agree k) s) (countingDown j false s.link) ∧
        after (takeClassField (.propose k) s) (countingDown j false s.link)) ∧
      (k ≠ j → takeClassField (.agree k) s = s) ∧
      (classNum k < classNum j → takeClassField (.propose k) s = s) ∧
      (classNum j < classNum k → k ≠ now → after (takeClassField (.propose k) s) (countingDown k true s.link)) ∧
      (classNum j < classNum k → k = now →
        after (takeClassField (.propose k) s)
          { withdrawn s.pins.marginWarning (decide (classNum j < classNum now)) s.link with pendingRefusal := true }) ∧
      after (takeClassField .refuse s) (withdrawn s.pins.marginWarning (decide (classNum j < classNum now)) s.link)) ∧
    (∀ n b, s.link.proposal = .counting n j b →
      takeClassField (.agree k) s = s ∧ takeClassField .refuse s = s ∧ takeClassField (.propose k) s = s)

/-! ### The head port -/

/-- R163, R164, R166: a COMMAND transaction whose frame is right is its command from the head port, between a fall
and a rise of select; R168: one whose opcode and argument bytes are those of no command, the opcode unknown or the length
unsuited, is refused BAD_COMMAND with its own opcode echo and changes no more; a second command before the response is fetched sets IGNORED, and a frame that fails sets
FRAME_ERROR. A transaction given without its fall of select is the model's (log 11). -/
def Obligations.ACommandTransactionIsItsCommand : Prop :=
  ∀ (s : State), s.pins.resetLow = false → s.pins.selectLow = false →
    (∀ (c : Cmd) (tag : Byte), c.wellFormed = true → s.port.holding = none →
      let frame := commandFrameBytes c.opcode tag c.args
      ∃ u, exec (row .head tag c) (shown frame (List.replicate frame.length 0) s) = .next u ∧
        exec (.headCommandFrame frame false) s = .next (risen u)) ∧
    (∀ (opcode tag : Byte) (args : List Byte), args.length ≤ 44 → s.port.holding = none →
      (∀ c : Cmd, c.wellFormed = true → c.opcode = opcode → c.args ≠ args) →
      let frame := commandFrameBytes opcode tag args
      let u := risen (shown frame (List.replicate frame.length 0) s)
      exec (.headCommandFrame frame false) s = .next { u with port := { u.port with
        holding := some { opcode := opcode, tag := tag, result := .badCommand, data := [] } } }) ∧
    (∀ (frame : List Byte) (cut : Bool), s.port.holding ≠ none →
      let u := risen (shown frame (List.replicate frame.length 0) s)
      exec (.headCommandFrame frame cut) s = .next { u with port := { u.port with ignored := true } }) ∧
    (∀ (frame : List Byte) (cut : Bool), s.port.holding = none →
      cut = true ∨ 48 < frame.length ∨ commandFrameOf frame = none →
      let u := risen (shown frame (List.replicate frame.length 0) s)
      exec (.headCommandFrame frame cut) s = .next { u with port := { u.port with frameError := true } })

/-- R163, R165, R166: a FETCH shifts out the response frame and then code zero, and empties the buffer once the
whole frame has gone; an unknown kind byte sets FRAME_ERROR, and so does a transaction without a whole first byte,
which clears no flag. R163, R166, R174: a fall of select takes the snapshot and opens a transaction, which the rise
that follows ends as if the fall were its own; a rise without an open transaction ends none; a select that is low
does not fall. R166, R167, Table 12-7: the status byte shows the six flags in their places, and the interrupt
follows two of them. R182: while reset is low the interrupt is released, the data out is not driven, the tally outputs
are low and the idle hold is asserted; with reset high the data out is driven exactly while select is low, each tally
output follows its flag, and the idle hold follows PATTERN_LOOP. A transaction without a fall of select before it, and a fall on a low select, are the model's
(log 11), and so is that dataOut holds the whole status byte where select rises within it (log 36). -/
def Obligations.FetchAndSelect : Prop :=
  (∀ (s : State), s.pins.resetLow = false → s.pins.selectLow = false →
     (∀ r n, s.port.holding = some r →
       let frame := responseBytes r
       (frame.length ≤ n →
         let u := risen (shown [] (frame ++ List.replicate (n - frame.length) 0) s)
         exec (.fetch n) s = .next { u with port := { u.port with holding := none } }) ∧
       (n < frame.length → exec (.fetch n) s = .next (risen (shown [] (frame.take n) s)))) ∧
     (∀ n, s.port.holding = none →
       exec (.fetch n) s = .next (risen (shown [] (([0, 0, 0, 0, 255] ++ List.replicate (n - 5) 0).take n) s))) ∧
     (∀ k n, k ≠ 161 → k ≠ 178 →
       let u := risen (shown [] (List.replicate n 0) s)
       exec (.invalidTransaction (some k) n) s = .next { u with port := { u.port with frameError := true } }) ∧
     (∀ n, exec (.invalidTransaction none n) s = .next
       { s with port := { s.port with
         transaction := none, dataOut := [statusByte s], rxFrame := [], rxDiscarded := false, frameError := true } })) ∧
  (∀ (s : State), s.pins.resetLow = false →
     (s.pins.selectLow = true → exec .selectFall s = .next s) ∧
     (s.pins.selectLow = false →
       ∃ u, exec .selectFall s = .next u ∧
         u = { s with
           pins := { s.pins with selectLow := true },
           port := { s.port with
             transaction := some (statusByte s), dataOut := [statusByte s], rxFrame := [], rxDiscarded := false } } ∧
         (∀ n, exec (.fetch n) u = exec (.fetch n) s) ∧
         (∀ kind n, exec (.invalidTransaction kind n) u = exec (.invalidTransaction kind n) s) ∧
         ∀ frame cut, exec (.headCommandFrame frame cut) u = exec (.headCommandFrame frame cut) s) ∧
     (s.pins.selectLow = true → s.port.transaction = none →
       (∀ n frame cut, exec (.fetch n) s = .next (risen s) ∧ exec (.headCommandFrame frame cut) s = .next (risen s)) ∧
       ∀ kind n, kind ≠ some 161 → kind ≠ some 178 → exec (.invalidTransaction kind n) s = .next (risen s))) ∧
  (∀ s : State,
     (statusByte s).getLsbD 7 = s.port.holding.isSome ∧ (statusByte s).getLsbD 6 = !s.events.queue.isEmpty ∧
     (statusByte s).getLsbD 5 = s.port.ignored ∧ (statusByte s).getLsbD 4 = s.port.frameError ∧
     (statusByte s).getLsbD 3 = (s.link.state == .up) ∧
     (statusByte s).getLsbD 2 = (holderOf s.plan.hold == some .head) ∧
     (statusByte s).getLsbD 1 = false ∧ (statusByte s).getLsbD 0 = false ∧
     (s.pins.resetLow = true →
       interruptAsserted s = false ∧ dataOutDriven s = false ∧ tallyPins s = (false, false, false) ∧ idleHold s = true) ∧
     (s.pins.resetLow = false →
       interruptAsserted s = (s.port.holding.isSome || !s.events.queue.isEmpty) ∧ dataOutDriven s = s.pins.selectLow ∧
         tallyPins s = (s.tally.program, s.tally.preview, s.tally.call) ∧
         (idleHold s = true ↔ s.test.mode = .patternLoop)))

/-! ### Events and services -/

/-- R170: an event is recorded with the frame count of the moment under each mask, in the head queue and then in the base
notice queue, and lost and counted at a full one; a COUNTER_HALF of that count comes after it (log 28). R171: EVENT_READ
takes up to four records, oldest first, and clears the lost count, and is refused NOT_PERMITTED from the base link;
EVENT_MASK sets the mask of its origin to the kinds that Table 10-6 gives. -/
def Obligations.EventsAreRecordedReadAndMasked : Prop :=
  (∀ (k : EventKind) (subject detail : Nat) (s : State),
     let e : EventRecord :=
       { kind := k, stamp := s.builder.frameCount, subject := byteOf subject, detail := wordOf detail }
     let t := s.raise k subject detail
     let inHead := s.events.headMask.getLsbD (eventNum k)
     let inBase := s.events.baseMask.getLsbD (eventNum k)
     (inBase = false → t = { s with events := joinedHead e s.events }) ∧
     (inBase = true → t = noticed e { s with events := joinedHead e s.events }) ∧
     (inHead = false → inBase = false → t = s) ∧
     (inBase = false → inHead = true → s.events.queue.length < 32 →
       t = { s with events := { s.events with queue := s.events.queue ++ [e] } }) ∧
     (inBase = false → inHead = true → 32 ≤ s.events.queue.length →
       t = { s with events := { s.events with lost := min 255 (s.events.lost + 1) } }) ∧
     (inBase = true → inHead = false → s.control.notices.length < 8 →
       t = { s with control := { s.control with notices := s.control.notices ++ [e] } }) ∧
     (inBase = true → 8 ≤ s.control.notices.length → (s.counter (.link .noticesLost)).count ≠ 32767 →
       t.control = s.control ∧
         t.counter (.link .noticesLost) = counterUp (s.counter (.link .noticesLost)) ∧
         OnlyChanges [.events, .counters] s t)) ∧
  (∀ (tag : Byte) (s : State), Ready .base s →
     exec (.eventRead .base tag) s = replies .base 25 tag .notPermitted [] s) ∧
  ((∀ (tag : Byte) (s : State), Ready .head s →
     exec (.eventRead .head tag) s = replies .head 25 tag .done
       ([byteOf (min 4 s.events.queue.length), byteOf s.events.lost] ++ (s.events.queue.take 4).flatMap eventBytes)
       { s with events := { s.events with queue := s.events.queue.drop 4, lost := 0 } }) ∧
   ∀ (o : Origin) (tag : Byte) (mask : EventBits) (s : State), Ready o s →
     ∃ m : EventBits, (∀ i, m.getLsbD i = (mask.getLsbD i && decide (1 ≤ i ∧ i ≤ 23))) ∧
       exec (.eventMask o tag mask) s = replies o 26 tag .done
         [m.extractLsb' 16 8, m.extractLsb' 8 8, m.extractLsb' 0 8]
         { s with events :=
           match o with
           | .head => { s.events with headMask := m }
           | .base => { s.events with baseMask := m } })

/-- R172: an increment adds one to its counter, and nothing at 65535; on the way from 32767 to 32768 an armed half
flag is spent and COUNTER_HALF is raised; no other counter moves, but for a notice lost with it, whose count can come to
its own half way by that and raises COUNTER_HALF too (log 28 for the order). R173: COUNTERS_READ
answers the group code and the group's counters; COUNTERS_CLEAR sets every counter of the group to 0 with its half
flag armed, and no other; a group code above 8 is refused RANGE. -/
def Obligations.CountersCountAreReadAndCleared : Prop :=
  (∀ (id : CounterId) (s : State),
     let c := s.counter id
     let t := s.bump id
     (65535 ≤ c.count → t = s) ∧
     (c.count < 65535 → (c.count ≠ 32767 ∨ c.armed = false) →
       t.counter id = { c with count := c.count + 1 } ∧ (∀ k, k ≠ id → t.counter k = s.counter k) ∧
         OnlyChanges [.counters] s t) ∧
     (c.count = 32767 → c.armed = true →
       let half (k : CounterId) : EventRecord :=
         { kind := .counterHalf, stamp := s.builder.frameCount, subject := byteOf (counterNum k), detail := 0 }
       let noticed : Bool := s.events.baseMask.getLsbD (eventNum .counterHalf)
       let lost : Prop := noticed = true ∧ 8 ≤ s.control.notices.length
       let lostAtHalf : Prop :=
         lost ∧ id ≠ .link .noticesLost ∧ s.counter (.link .noticesLost) = { count := 32767, armed := true }
       OnlyChanges [.counters, .events, .notices] s t ∧
       (∀ k, k ≠ id → k ≠ .link .noticesLost → t.counter k = s.counter k) ∧
       (id ≠ .link .noticesLost → t.counter id = { count := 32768, armed := false }) ∧
       (¬ lost → t.counter id = { count := 32768, armed := false } ∧
         (id ≠ .link .noticesLost → t.counter (.link .noticesLost) = s.counter (.link .noticesLost)) ∧
         t.control.notices = if noticed then s.control.notices ++ [half id] else s.control.notices) ∧
       (lost → t.control.notices = s.control.notices ∧
         (id = .link .noticesLost → t.counter id = { count := 32769, armed := false }) ∧
         (id ≠ .link .noticesLost → ¬ lostAtHalf →
           t.counter (.link .noticesLost) = counterUp (s.counter (.link .noticesLost)))) ∧
       (lostAtHalf → t.counter (.link .noticesLost) = { count := 32769, armed := false }) ∧
       (maskHolds s.events.headMask .counterHalf = true → s.events.queue.length < 31 →
         (¬ lostAtHalf → t.events = { s.events with queue := s.events.queue ++ [half id] }) ∧
         (lostAtHalf → t.events =
           { s.events with queue := s.events.queue ++ [half id, half (.link .noticesLost)] })))) ∧
  (∀ (o : Origin) (tag code : Byte) (s : State), Ready o s → 8 < code.toNat →
     exec (.countersRead o tag code) s = replies o 27 tag .range [] s ∧
     exec (.countersClear o tag code) s = replies o 28 tag .range [] s) ∧
  (∀ (o : Origin) (tag code : Byte) (g : CounterGroup) (s : State), Ready o s → counterGroupOf code.toNat = some g →
     exec (.countersRead o tag code) s = replies o 27 tag .done
       (code :: (countersOf g).flatMap fun id => bytes2 (s.counter id).count) s ∧
     ∃ t, exec (.countersClear o tag code) s = .next t ∧ Answers o 28 tag .done [] s t ∧
       OnlyChanges [.counters, answerPart o] s t ∧
       ∀ id, t.counter id = if id ∈ countersOf g then { count := 0, armed := true } else s.counter id)

/-- R157: a byte from a side-line device joins the in queue with its mark, FRAMING for a low stop bit, PARITY for a
parity bit that does not match, and each mark is counted; at 64 records the byte is lost and counted. That a lost byte with a
mark is counted under its mark first, and then as an in overrun, is the model's choice (log 29). R158, R160,
Table 9-2: when a byte has gone the transmitter starts the next record, its parity bit inverted for a marked one, or
with parity none counts a mark not carried; and the viewfinder board takes the front tile of the return buffer. What even
and odd parity mean is the model's (log 25), and so is that a mark not carried is counted as its byte starts (log 37). -/
def Obligations.SideLineBytesAndReturnTilesMove : Prop :=
  (∀ (i : SideId) (data : Byte) (parityBit stopBit : Bool) (s : State), s.pins.resetLow = false →
     let x := s.side i
     let ones := (List.range 8).countP fun k => data.getLsbD k
     let wrong : Prop := (x.parity = .even ∧ parityBit ≠ decide (ones % 2 = 1)) ∨
       (x.parity = .odd ∧ parityBit ≠ decide (ones % 2 = 0))
     let run := exec (.sidelineByteReceived i data parityBit stopBit) s
     let joins (t : State) (m : ByteMark) : Prop :=
       t.side i = { x with inQueue := x.inQueue ++ [⟨data, m⟩] } ∧ (∀ k, k ≠ i → t.side k = s.side k) ∧
         OnlyChanges [.sides, .events, .notices, .counters] s t
     (x.inQueue.length < 64 →
       (stopBit = false → ∃ t, run = .next t ∧ joins t .framing ∧ Counts (.side i .framingMarks) s t) ∧
       (stopBit = true → wrong → ∃ t, run = .next t ∧ joins t .parity ∧ Counts (.side i .parityMarks) s t) ∧
       (stopBit = true → ¬ wrong → ∃ t, run = .next t ∧ joins t .clean ∧ t.counters = s.counters)) ∧
     (64 ≤ x.inQueue.length →
       (stopBit = false → run = .next ((s.bump (.side i .framingMarks)).bump (.side i .inOverruns))) ∧
       (stopBit = true → wrong → run = .next ((s.bump (.side i .parityMarks)).bump (.side i .inOverruns))) ∧
       (stopBit = true → ¬ wrong → run = .next (s.bump (.side i .inOverruns))))) ∧
  (∀ (i : SideId) (s : State), s.pins.resetLow = false →
     let x := s.side i
     let starts (r : ByteRecord) (rest : List ByteRecord) (bit : Option Bool) (t : State) : Prop :=
       t.side i = { x with outQueue := rest, shifting := some { data := r.data, rate := x.rate, parityBit := bit } } ∧
         (∀ k, k ≠ i → t.side k = s.side k) ∧ OnlyChanges [.sides, .events, .notices, .counters] s t
     let run := exec (.sidelineByteSent i) s
     (x.shifting = none → run = .next s) ∧
     (x.shifting ≠ none →
       (x.outQueue = [] → ∃ t, run = .next t ∧ t.side i = { x with shifting := none } ∧
         (∀ k, k ≠ i → t.side k = s.side k) ∧ OnlyChanges [.sides] s t) ∧
       ∀ r rest, x.outQueue = r :: rest →
         let odd := decide (((List.range 8).countP fun k => r.data.getLsbD k) % 2 = 1)
         (x.parity = .none → r.mark = .clean →
           ∃ t, run = .next t ∧ starts r rest none t ∧ SameRecords s t) ∧
         (x.parity = .none → r.mark ≠ .clean →
           ∃ t, run = .next t ∧ starts r rest none t ∧ Counts (.side i .marksNotCarried) s t) ∧
         (x.parity = .even →
           ∃ t, run = .next t ∧ starts r rest (some (if r.mark = .clean then odd else !odd)) t ∧ SameRecords s t) ∧
         (x.parity = .odd →
           ∃ t, run = .next t ∧ starts r rest (some (if r.mark = .clean then !odd else odd)) t ∧ SameRecords s t)) ∧
     (s.ret.buffer = [] → exec .returnTileTake s = .next s) ∧
     (∀ tile rest, s.ret.buffer = tile :: rest →
       exec .returnTileTake s = .next { s with ret := { buffer := rest, taken := some tile } }))

end
end

