-- ==== Sys2Proof/Laws/State.lean ====
section
/-! SUPPORT. One lemma for each field of State under each block update, true by definition: what an update writes and
that it leaves every other block alone. -/

namespace Sys2Proof.Machine

/-! `State.modPins` -/

@[simp] theorem modPins_pins (f : Pins → Pins) (s : State) : (s.modPins f).pins = f s.pins := rfl
@[simp] theorem modPins_lanes (f : Pins → Pins) (s : State) : (s.modPins f).lanes = s.lanes := rfl
@[simp] theorem modPins_poolFree (f : Pins → Pins) (s : State) : (s.modPins f).poolFree = s.poolFree := rfl
@[simp] theorem modPins_release (f : Pins → Pins) (s : State) : (s.modPins f).release = s.release := rfl
@[simp] theorem modPins_plan (f : Pins → Pins) (s : State) : (s.modPins f).plan = s.plan := rfl
@[simp] theorem modPins_builder (f : Pins → Pins) (s : State) : (s.modPins f).builder = s.builder := rfl
@[simp] theorem modPins_control (f : Pins → Pins) (s : State) : (s.modPins f).control = s.control := rfl
@[simp] theorem modPins_link (f : Pins → Pins) (s : State) : (s.modPins f).link = s.link := rfl
@[simp] theorem modPins_rx (f : Pins → Pins) (s : State) : (s.modPins f).rx = s.rx := rfl
@[simp] theorem modPins_port (f : Pins → Pins) (s : State) : (s.modPins f).port = s.port := rfl
@[simp] theorem modPins_events (f : Pins → Pins) (s : State) : (s.modPins f).events = s.events := rfl
@[simp] theorem modPins_counters (f : Pins → Pins) (s : State) : (s.modPins f).counters = s.counters := rfl
@[simp] theorem modPins_mailbox (f : Pins → Pins) (s : State) : (s.modPins f).mailbox = s.mailbox := rfl
@[simp] theorem modPins_sides (f : Pins → Pins) (s : State) : (s.modPins f).sides = s.sides := rfl
@[simp] theorem modPins_tally (f : Pins → Pins) (s : State) : (s.modPins f).tally = s.tally := rfl
@[simp] theorem modPins_ret (f : Pins → Pins) (s : State) : (s.modPins f).ret = s.ret := rfl
@[simp] theorem modPins_test (f : Pins → Pins) (s : State) : (s.modPins f).test = s.test := rfl
@[simp] theorem modPins_refWatch (f : Pins → Pins) (s : State) : (s.modPins f).refWatch = s.refWatch := rfl
@[simp] theorem modPins_lineOut (f : Pins → Pins) (s : State) : (s.modPins f).lineOut = s.lineOut := rfl
@[simp] theorem modPins_pending (f : Pins → Pins) (s : State) : (s.modPins f).pending = s.pending := rfl

/-! `State.modRelease` -/

@[simp] theorem modRelease_pins (f : ReleaseUnit → ReleaseUnit) (s : State) : (s.modRelease f).pins = s.pins := rfl
@[simp] theorem modRelease_lanes (f : ReleaseUnit → ReleaseUnit) (s : State) : (s.modRelease f).lanes = s.lanes := rfl
@[simp] theorem modRelease_poolFree (f : ReleaseUnit → ReleaseUnit) (s : State) :
    (s.modRelease f).poolFree = s.poolFree := rfl
@[simp] theorem modRelease_release (f : ReleaseUnit → ReleaseUnit) (s : State) :
    (s.modRelease f).release = f s.release := rfl
@[simp] theorem modRelease_plan (f : ReleaseUnit → ReleaseUnit) (s : State) : (s.modRelease f).plan = s.plan := rfl
@[simp] theorem modRelease_builder (f : ReleaseUnit → ReleaseUnit) (s : State) :
    (s.modRelease f).builder = s.builder := rfl
@[simp] theorem modRelease_control (f : ReleaseUnit → ReleaseUnit) (s : State) :
    (s.modRelease f).control = s.control := rfl
@[simp] theorem modRelease_link (f : ReleaseUnit → ReleaseUnit) (s : State) : (s.modRelease f).link = s.link := rfl
@[simp] theorem modRelease_rx (f : ReleaseUnit → ReleaseUnit) (s : State) : (s.modRelease f).rx = s.rx := rfl
@[simp] theorem modRelease_port (f : ReleaseUnit → ReleaseUnit) (s : State) : (s.modRelease f).port = s.port := rfl
@[simp] theorem modRelease_events (f : ReleaseUnit → ReleaseUnit) (s : State) :
    (s.modRelease f).events = s.events := rfl
@[simp] theorem modRelease_counters (f : ReleaseUnit → ReleaseUnit) (s : State) :
    (s.modRelease f).counters = s.counters := rfl
@[simp] theorem modRelease_mailbox (f : ReleaseUnit → ReleaseUnit) (s : State) :
    (s.modRelease f).mailbox = s.mailbox := rfl
@[simp] theorem modRelease_sides (f : ReleaseUnit → ReleaseUnit) (s : State) : (s.modRelease f).sides = s.sides := rfl
@[simp] theorem modRelease_tally (f : ReleaseUnit → ReleaseUnit) (s : State) : (s.modRelease f).tally = s.tally := rfl
@[simp] theorem modRelease_ret (f : ReleaseUnit → ReleaseUnit) (s : State) : (s.modRelease f).ret = s.ret := rfl
@[simp] theorem modRelease_test (f : ReleaseUnit → ReleaseUnit) (s : State) : (s.modRelease f).test = s.test := rfl
@[simp] theorem modRelease_refWatch (f : ReleaseUnit → ReleaseUnit) (s : State) :
    (s.modRelease f).refWatch = s.refWatch := rfl
@[simp] theorem modRelease_lineOut (f : ReleaseUnit → ReleaseUnit) (s : State) :
    (s.modRelease f).lineOut = s.lineOut := rfl
@[simp] theorem modRelease_pending (f : ReleaseUnit → ReleaseUnit) (s : State) :
    (s.modRelease f).pending = s.pending := rfl

/-! `State.modPlan` -/

@[simp] theorem modPlan_pins (f : PlanStore → PlanStore) (s : State) : (s.modPlan f).pins = s.pins := rfl
@[simp] theorem modPlan_lanes (f : PlanStore → PlanStore) (s : State) : (s.modPlan f).lanes = s.lanes := rfl
@[simp] theorem modPlan_poolFree (f : PlanStore → PlanStore) (s : State) : (s.modPlan f).poolFree = s.poolFree := rfl
@[simp] theorem modPlan_release (f : PlanStore → PlanStore) (s : State) : (s.modPlan f).release = s.release := rfl
@[simp] theorem modPlan_plan (f : PlanStore → PlanStore) (s : State) : (s.modPlan f).plan = f s.plan := rfl
@[simp] theorem modPlan_builder (f : PlanStore → PlanStore) (s : State) : (s.modPlan f).builder = s.builder := rfl
@[simp] theorem modPlan_control (f : PlanStore → PlanStore) (s : State) : (s.modPlan f).control = s.control := rfl
@[simp] theorem modPlan_link (f : PlanStore → PlanStore) (s : State) : (s.modPlan f).link = s.link := rfl
@[simp] theorem modPlan_rx (f : PlanStore → PlanStore) (s : State) : (s.modPlan f).rx = s.rx := rfl
@[simp] theorem modPlan_port (f : PlanStore → PlanStore) (s : State) : (s.modPlan f).port = s.port := rfl
@[simp] theorem modPlan_events (f : PlanStore → PlanStore) (s : State) : (s.modPlan f).events = s.events := rfl
@[simp] theorem modPlan_counters (f : PlanStore → PlanStore) (s : State) : (s.modPlan f).counters = s.counters := rfl
@[simp] theorem modPlan_mailbox (f : PlanStore → PlanStore) (s : State) : (s.modPlan f).mailbox = s.mailbox := rfl
@[simp] theorem modPlan_sides (f : PlanStore → PlanStore) (s : State) : (s.modPlan f).sides = s.sides := rfl
@[simp] theorem modPlan_tally (f : PlanStore → PlanStore) (s : State) : (s.modPlan f).tally = s.tally := rfl
@[simp] theorem modPlan_ret (f : PlanStore → PlanStore) (s : State) : (s.modPlan f).ret = s.ret := rfl
@[simp] theorem modPlan_test (f : PlanStore → PlanStore) (s : State) : (s.modPlan f).test = s.test := rfl
@[simp] theorem modPlan_refWatch (f : PlanStore → PlanStore) (s : State) : (s.modPlan f).refWatch = s.refWatch := rfl
@[simp] theorem modPlan_lineOut (f : PlanStore → PlanStore) (s : State) : (s.modPlan f).lineOut = s.lineOut := rfl
@[simp] theorem modPlan_pending (f : PlanStore → PlanStore) (s : State) : (s.modPlan f).pending = s.pending := rfl

/-! `State.modBuilder` -/

@[simp] theorem modBuilder_pins (f : Builder → Builder) (s : State) : (s.modBuilder f).pins = s.pins := rfl
@[simp] theorem modBuilder_lanes (f : Builder → Builder) (s : State) : (s.modBuilder f).lanes = s.lanes := rfl
@[simp] theorem modBuilder_poolFree (f : Builder → Builder) (s : State) :
    (s.modBuilder f).poolFree = s.poolFree := rfl
@[simp] theorem modBuilder_release (f : Builder → Builder) (s : State) : (s.modBuilder f).release = s.release := rfl
@[simp] theorem modBuilder_plan (f : Builder → Builder) (s : State) : (s.modBuilder f).plan = s.plan := rfl
@[simp] theorem modBuilder_builder (f : Builder → Builder) (s : State) : (s.modBuilder f).builder = f s.builder := rfl
@[simp] theorem modBuilder_control (f : Builder → Builder) (s : State) : (s.modBuilder f).control = s.control := rfl
@[simp] theorem modBuilder_link (f : Builder → Builder) (s : State) : (s.modBuilder f).link = s.link := rfl
@[simp] theorem modBuilder_rx (f : Builder → Builder) (s : State) : (s.modBuilder f).rx = s.rx := rfl
@[simp] theorem modBuilder_port (f : Builder → Builder) (s : State) : (s.modBuilder f).port = s.port := rfl
@[simp] theorem modBuilder_events (f : Builder → Builder) (s : State) : (s.modBuilder f).events = s.events := rfl
@[simp] theorem modBuilder_counters (f : Builder → Builder) (s : State) :
    (s.modBuilder f).counters = s.counters := rfl
@[simp] theorem modBuilder_mailbox (f : Builder → Builder) (s : State) : (s.modBuilder f).mailbox = s.mailbox := rfl
@[simp] theorem modBuilder_sides (f : Builder → Builder) (s : State) : (s.modBuilder f).sides = s.sides := rfl
@[simp] theorem modBuilder_tally (f : Builder → Builder) (s : State) : (s.modBuilder f).tally = s.tally := rfl
@[simp] theorem modBuilder_ret (f : Builder → Builder) (s : State) : (s.modBuilder f).ret = s.ret := rfl
@[simp] theorem modBuilder_test (f : Builder → Builder) (s : State) : (s.modBuilder f).test = s.test := rfl
@[simp] theorem modBuilder_refWatch (f : Builder → Builder) (s : State) :
    (s.modBuilder f).refWatch = s.refWatch := rfl
@[simp] theorem modBuilder_lineOut (f : Builder → Builder) (s : State) : (s.modBuilder f).lineOut = s.lineOut := rfl
@[simp] theorem modBuilder_pending (f : Builder → Builder) (s : State) : (s.modBuilder f).pending = s.pending := rfl

/-! `State.modControl` -/

@[simp] theorem modControl_pins (f : ControlQueues → ControlQueues) (s : State) :
    (s.modControl f).pins = s.pins := rfl
@[simp] theorem modControl_lanes (f : ControlQueues → ControlQueues) (s : State) :
    (s.modControl f).lanes = s.lanes := rfl
@[simp] theorem modControl_poolFree (f : ControlQueues → ControlQueues) (s : State) :
    (s.modControl f).poolFree = s.poolFree := rfl
@[simp] theorem modControl_release (f : ControlQueues → ControlQueues) (s : State) :
    (s.modControl f).release = s.release := rfl
@[simp] theorem modControl_plan (f : ControlQueues → ControlQueues) (s : State) :
    (s.modControl f).plan = s.plan := rfl
@[simp] theorem modControl_builder (f : ControlQueues → ControlQueues) (s : State) :
    (s.modControl f).builder = s.builder := rfl
@[simp] theorem modControl_control (f : ControlQueues → ControlQueues) (s : State) :
    (s.modControl f).control = f s.control := rfl
@[simp] theorem modControl_link (f : ControlQueues → ControlQueues) (s : State) :
    (s.modControl f).link = s.link := rfl
@[simp] theorem modControl_rx (f : ControlQueues → ControlQueues) (s : State) : (s.modControl f).rx = s.rx := rfl
@[simp] theorem modControl_port (f : ControlQueues → ControlQueues) (s : State) :
    (s.modControl f).port = s.port := rfl
@[simp] theorem modControl_events (f : ControlQueues → ControlQueues) (s : State) :
    (s.modControl f).events = s.events := rfl
@[simp] theorem modControl_counters (f : ControlQueues → ControlQueues) (s : State) :
    (s.modControl f).counters = s.counters := rfl
@[simp] theorem modControl_mailbox (f : ControlQueues → ControlQueues) (s : State) :
    (s.modControl f).mailbox = s.mailbox := rfl
@[simp] theorem modControl_sides (f : ControlQueues → ControlQueues) (s : State) :
    (s.modControl f).sides = s.sides := rfl
@[simp] theorem modControl_tally (f : ControlQueues → ControlQueues) (s : State) :
    (s.modControl f).tally = s.tally := rfl
@[simp] theorem modControl_ret (f : ControlQueues → ControlQueues) (s : State) : (s.modControl f).ret = s.ret := rfl
@[simp] theorem modControl_test (f : ControlQueues → ControlQueues) (s : State) :
    (s.modControl f).test = s.test := rfl
@[simp] theorem modControl_refWatch (f : ControlQueues → ControlQueues) (s : State) :
    (s.modControl f).refWatch = s.refWatch := rfl
@[simp] theorem modControl_lineOut (f : ControlQueues → ControlQueues) (s : State) :
    (s.modControl f).lineOut = s.lineOut := rfl
@[simp] theorem modControl_pending (f : ControlQueues → ControlQueues) (s : State) :
    (s.modControl f).pending = s.pending := rfl

/-! `State.modLink` -/

@[simp] theorem modLink_pins (f : LinkCtl → LinkCtl) (s : State) : (s.modLink f).pins = s.pins := rfl
@[simp] theorem modLink_lanes (f : LinkCtl → LinkCtl) (s : State) : (s.modLink f).lanes = s.lanes := rfl
@[simp] theorem modLink_poolFree (f : LinkCtl → LinkCtl) (s : State) : (s.modLink f).poolFree = s.poolFree := rfl
@[simp] theorem modLink_release (f : LinkCtl → LinkCtl) (s : State) : (s.modLink f).release = s.release := rfl
@[simp] theorem modLink_plan (f : LinkCtl → LinkCtl) (s : State) : (s.modLink f).plan = s.plan := rfl
@[simp] theorem modLink_builder (f : LinkCtl → LinkCtl) (s : State) : (s.modLink f).builder = s.builder := rfl
@[simp] theorem modLink_control (f : LinkCtl → LinkCtl) (s : State) : (s.modLink f).control = s.control := rfl
@[simp] theorem modLink_link (f : LinkCtl → LinkCtl) (s : State) : (s.modLink f).link = f s.link := rfl
@[simp] theorem modLink_rx (f : LinkCtl → LinkCtl) (s : State) : (s.modLink f).rx = s.rx := rfl
@[simp] theorem modLink_port (f : LinkCtl → LinkCtl) (s : State) : (s.modLink f).port = s.port := rfl
@[simp] theorem modLink_events (f : LinkCtl → LinkCtl) (s : State) : (s.modLink f).events = s.events := rfl
@[simp] theorem modLink_counters (f : LinkCtl → LinkCtl) (s : State) : (s.modLink f).counters = s.counters := rfl
@[simp] theorem modLink_mailbox (f : LinkCtl → LinkCtl) (s : State) : (s.modLink f).mailbox = s.mailbox := rfl
@[simp] theorem modLink_sides (f : LinkCtl → LinkCtl) (s : State) : (s.modLink f).sides = s.sides := rfl
@[simp] theorem modLink_tally (f : LinkCtl → LinkCtl) (s : State) : (s.modLink f).tally = s.tally := rfl
@[simp] theorem modLink_ret (f : LinkCtl → LinkCtl) (s : State) : (s.modLink f).ret = s.ret := rfl
@[simp] theorem modLink_test (f : LinkCtl → LinkCtl) (s : State) : (s.modLink f).test = s.test := rfl
@[simp] theorem modLink_refWatch (f : LinkCtl → LinkCtl) (s : State) : (s.modLink f).refWatch = s.refWatch := rfl
@[simp] theorem modLink_lineOut (f : LinkCtl → LinkCtl) (s : State) : (s.modLink f).lineOut = s.lineOut := rfl
@[simp] theorem modLink_pending (f : LinkCtl → LinkCtl) (s : State) : (s.modLink f).pending = s.pending := rfl

/-! `State.modTimers` -/

@[simp] theorem modTimers_pins (f : Timers → Timers) (s : State) : (s.modTimers f).pins = s.pins := rfl
@[simp] theorem modTimers_lanes (f : Timers → Timers) (s : State) : (s.modTimers f).lanes = s.lanes := rfl
@[simp] theorem modTimers_poolFree (f : Timers → Timers) (s : State) : (s.modTimers f).poolFree = s.poolFree := rfl
@[simp] theorem modTimers_release (f : Timers → Timers) (s : State) : (s.modTimers f).release = s.release := rfl
@[simp] theorem modTimers_plan (f : Timers → Timers) (s : State) : (s.modTimers f).plan = s.plan := rfl
@[simp] theorem modTimers_builder (f : Timers → Timers) (s : State) : (s.modTimers f).builder = s.builder := rfl
@[simp] theorem modTimers_control (f : Timers → Timers) (s : State) : (s.modTimers f).control = s.control := rfl
@[simp] theorem modTimers_link (f : Timers → Timers) (s : State) :
    (s.modTimers f).link = { s.link with timers := f s.link.timers } := rfl
@[simp] theorem modTimers_rx (f : Timers → Timers) (s : State) : (s.modTimers f).rx = s.rx := rfl
@[simp] theorem modTimers_port (f : Timers → Timers) (s : State) : (s.modTimers f).port = s.port := rfl
@[simp] theorem modTimers_events (f : Timers → Timers) (s : State) : (s.modTimers f).events = s.events := rfl
@[simp] theorem modTimers_counters (f : Timers → Timers) (s : State) : (s.modTimers f).counters = s.counters := rfl
@[simp] theorem modTimers_mailbox (f : Timers → Timers) (s : State) : (s.modTimers f).mailbox = s.mailbox := rfl
@[simp] theorem modTimers_sides (f : Timers → Timers) (s : State) : (s.modTimers f).sides = s.sides := rfl
@[simp] theorem modTimers_tally (f : Timers → Timers) (s : State) : (s.modTimers f).tally = s.tally := rfl
@[simp] theorem modTimers_ret (f : Timers → Timers) (s : State) : (s.modTimers f).ret = s.ret := rfl
@[simp] theorem modTimers_test (f : Timers → Timers) (s : State) : (s.modTimers f).test = s.test := rfl
@[simp] theorem modTimers_refWatch (f : Timers → Timers) (s : State) : (s.modTimers f).refWatch = s.refWatch := rfl
@[simp] theorem modTimers_lineOut (f : Timers → Timers) (s : State) : (s.modTimers f).lineOut = s.lineOut := rfl
@[simp] theorem modTimers_pending (f : Timers → Timers) (s : State) : (s.modTimers f).pending = s.pending := rfl

/-! `State.modRx` -/

@[simp] theorem modRx_pins (f : UpReceiver → UpReceiver) (s : State) : (s.modRx f).pins = s.pins := rfl
@[simp] theorem modRx_lanes (f : UpReceiver → UpReceiver) (s : State) : (s.modRx f).lanes = s.lanes := rfl
@[simp] theorem modRx_poolFree (f : UpReceiver → UpReceiver) (s : State) : (s.modRx f).poolFree = s.poolFree := rfl
@[simp] theorem modRx_release (f : UpReceiver → UpReceiver) (s : State) : (s.modRx f).release = s.release := rfl
@[simp] theorem modRx_plan (f : UpReceiver → UpReceiver) (s : State) : (s.modRx f).plan = s.plan := rfl
@[simp] theorem modRx_builder (f : UpReceiver → UpReceiver) (s : State) : (s.modRx f).builder = s.builder := rfl
@[simp] theorem modRx_control (f : UpReceiver → UpReceiver) (s : State) : (s.modRx f).control = s.control := rfl
@[simp] theorem modRx_link (f : UpReceiver → UpReceiver) (s : State) : (s.modRx f).link = s.link := rfl
@[simp] theorem modRx_rx (f : UpReceiver → UpReceiver) (s : State) : (s.modRx f).rx = f s.rx := rfl
@[simp] theorem modRx_port (f : UpReceiver → UpReceiver) (s : State) : (s.modRx f).port = s.port := rfl
@[simp] theorem modRx_events (f : UpReceiver → UpReceiver) (s : State) : (s.modRx f).events = s.events := rfl
@[simp] theorem modRx_counters (f : UpReceiver → UpReceiver) (s : State) : (s.modRx f).counters = s.counters := rfl
@[simp] theorem modRx_mailbox (f : UpReceiver → UpReceiver) (s : State) : (s.modRx f).mailbox = s.mailbox := rfl
@[simp] theorem modRx_sides (f : UpReceiver → UpReceiver) (s : State) : (s.modRx f).sides = s.sides := rfl
@[simp] theorem modRx_tally (f : UpReceiver → UpReceiver) (s : State) : (s.modRx f).tally = s.tally := rfl
@[simp] theorem modRx_ret (f : UpReceiver → UpReceiver) (s : State) : (s.modRx f).ret = s.ret := rfl
@[simp] theorem modRx_test (f : UpReceiver → UpReceiver) (s : State) : (s.modRx f).test = s.test := rfl
@[simp] theorem modRx_refWatch (f : UpReceiver → UpReceiver) (s : State) : (s.modRx f).refWatch = s.refWatch := rfl
@[simp] theorem modRx_lineOut (f : UpReceiver → UpReceiver) (s : State) : (s.modRx f).lineOut = s.lineOut := rfl
@[simp] theorem modRx_pending (f : UpReceiver → UpReceiver) (s : State) : (s.modRx f).pending = s.pending := rfl

/-! `State.modPort` -/

@[simp] theorem modPort_pins (f : HeadPort → HeadPort) (s : State) : (s.modPort f).pins = s.pins := rfl
@[simp] theorem modPort_lanes (f : HeadPort → HeadPort) (s : State) : (s.modPort f).lanes = s.lanes := rfl
@[simp] theorem modPort_poolFree (f : HeadPort → HeadPort) (s : State) : (s.modPort f).poolFree = s.poolFree := rfl
@[simp] theorem modPort_release (f : HeadPort → HeadPort) (s : State) : (s.modPort f).release = s.release := rfl
@[simp] theorem modPort_plan (f : HeadPort → HeadPort) (s : State) : (s.modPort f).plan = s.plan := rfl
@[simp] theorem modPort_builder (f : HeadPort → HeadPort) (s : State) : (s.modPort f).builder = s.builder := rfl
@[simp] theorem modPort_control (f : HeadPort → HeadPort) (s : State) : (s.modPort f).control = s.control := rfl
@[simp] theorem modPort_link (f : HeadPort → HeadPort) (s : State) : (s.modPort f).link = s.link := rfl
@[simp] theorem modPort_rx (f : HeadPort → HeadPort) (s : State) : (s.modPort f).rx = s.rx := rfl
@[simp] theorem modPort_port (f : HeadPort → HeadPort) (s : State) : (s.modPort f).port = f s.port := rfl
@[simp] theorem modPort_events (f : HeadPort → HeadPort) (s : State) : (s.modPort f).events = s.events := rfl
@[simp] theorem modPort_counters (f : HeadPort → HeadPort) (s : State) : (s.modPort f).counters = s.counters := rfl
@[simp] theorem modPort_mailbox (f : HeadPort → HeadPort) (s : State) : (s.modPort f).mailbox = s.mailbox := rfl
@[simp] theorem modPort_sides (f : HeadPort → HeadPort) (s : State) : (s.modPort f).sides = s.sides := rfl
@[simp] theorem modPort_tally (f : HeadPort → HeadPort) (s : State) : (s.modPort f).tally = s.tally := rfl
@[simp] theorem modPort_ret (f : HeadPort → HeadPort) (s : State) : (s.modPort f).ret = s.ret := rfl
@[simp] theorem modPort_test (f : HeadPort → HeadPort) (s : State) : (s.modPort f).test = s.test := rfl
@[simp] theorem modPort_refWatch (f : HeadPort → HeadPort) (s : State) : (s.modPort f).refWatch = s.refWatch := rfl
@[simp] theorem modPort_lineOut (f : HeadPort → HeadPort) (s : State) : (s.modPort f).lineOut = s.lineOut := rfl
@[simp] theorem modPort_pending (f : HeadPort → HeadPort) (s : State) : (s.modPort f).pending = s.pending := rfl

/-! `State.modEvents` -/

@[simp] theorem modEvents_pins (f : EventUnit → EventUnit) (s : State) : (s.modEvents f).pins = s.pins := rfl
@[simp] theorem modEvents_lanes (f : EventUnit → EventUnit) (s : State) : (s.modEvents f).lanes = s.lanes := rfl
@[simp] theorem modEvents_poolFree (f : EventUnit → EventUnit) (s : State) :
    (s.modEvents f).poolFree = s.poolFree := rfl
@[simp] theorem modEvents_release (f : EventUnit → EventUnit) (s : State) : (s.modEvents f).release = s.release := rfl
@[simp] theorem modEvents_plan (f : EventUnit → EventUnit) (s : State) : (s.modEvents f).plan = s.plan := rfl
@[simp] theorem modEvents_builder (f : EventUnit → EventUnit) (s : State) : (s.modEvents f).builder = s.builder := rfl
@[simp] theorem modEvents_control (f : EventUnit → EventUnit) (s : State) : (s.modEvents f).control = s.control := rfl
@[simp] theorem modEvents_link (f : EventUnit → EventUnit) (s : State) : (s.modEvents f).link = s.link := rfl
@[simp] theorem modEvents_rx (f : EventUnit → EventUnit) (s : State) : (s.modEvents f).rx = s.rx := rfl
@[simp] theorem modEvents_port (f : EventUnit → EventUnit) (s : State) : (s.modEvents f).port = s.port := rfl
@[simp] theorem modEvents_events (f : EventUnit → EventUnit) (s : State) : (s.modEvents f).events = f s.events := rfl
@[simp] theorem modEvents_counters (f : EventUnit → EventUnit) (s : State) :
    (s.modEvents f).counters = s.counters := rfl
@[simp] theorem modEvents_mailbox (f : EventUnit → EventUnit) (s : State) : (s.modEvents f).mailbox = s.mailbox := rfl
@[simp] theorem modEvents_sides (f : EventUnit → EventUnit) (s : State) : (s.modEvents f).sides = s.sides := rfl
@[simp] theorem modEvents_tally (f : EventUnit → EventUnit) (s : State) : (s.modEvents f).tally = s.tally := rfl
@[simp] theorem modEvents_ret (f : EventUnit → EventUnit) (s : State) : (s.modEvents f).ret = s.ret := rfl
@[simp] theorem modEvents_test (f : EventUnit → EventUnit) (s : State) : (s.modEvents f).test = s.test := rfl
@[simp] theorem modEvents_refWatch (f : EventUnit → EventUnit) (s : State) :
    (s.modEvents f).refWatch = s.refWatch := rfl
@[simp] theorem modEvents_lineOut (f : EventUnit → EventUnit) (s : State) : (s.modEvents f).lineOut = s.lineOut := rfl
@[simp] theorem modEvents_pending (f : EventUnit → EventUnit) (s : State) : (s.modEvents f).pending = s.pending := rfl

/-! `State.modCounters` -/

@[simp] theorem modCounters_pins (f : Counters → Counters) (s : State) : (s.modCounters f).pins = s.pins := rfl
@[simp] theorem modCounters_lanes (f : Counters → Counters) (s : State) : (s.modCounters f).lanes = s.lanes := rfl
@[simp] theorem modCounters_poolFree (f : Counters → Counters) (s : State) :
    (s.modCounters f).poolFree = s.poolFree := rfl
@[simp] theorem modCounters_release (f : Counters → Counters) (s : State) :
    (s.modCounters f).release = s.release := rfl
@[simp] theorem modCounters_plan (f : Counters → Counters) (s : State) : (s.modCounters f).plan = s.plan := rfl
@[simp] theorem modCounters_builder (f : Counters → Counters) (s : State) :
    (s.modCounters f).builder = s.builder := rfl
@[simp] theorem modCounters_control (f : Counters → Counters) (s : State) :
    (s.modCounters f).control = s.control := rfl
@[simp] theorem modCounters_link (f : Counters → Counters) (s : State) : (s.modCounters f).link = s.link := rfl
@[simp] theorem modCounters_rx (f : Counters → Counters) (s : State) : (s.modCounters f).rx = s.rx := rfl
@[simp] theorem modCounters_port (f : Counters → Counters) (s : State) : (s.modCounters f).port = s.port := rfl
@[simp] theorem modCounters_events (f : Counters → Counters) (s : State) : (s.modCounters f).events = s.events := rfl
@[simp] theorem modCounters_counters (f : Counters → Counters) (s : State) :
    (s.modCounters f).counters = f s.counters := rfl
@[simp] theorem modCounters_mailbox (f : Counters → Counters) (s : State) :
    (s.modCounters f).mailbox = s.mailbox := rfl
@[simp] theorem modCounters_sides (f : Counters → Counters) (s : State) : (s.modCounters f).sides = s.sides := rfl
@[simp] theorem modCounters_tally (f : Counters → Counters) (s : State) : (s.modCounters f).tally = s.tally := rfl
@[simp] theorem modCounters_ret (f : Counters → Counters) (s : State) : (s.modCounters f).ret = s.ret := rfl
@[simp] theorem modCounters_test (f : Counters → Counters) (s : State) : (s.modCounters f).test = s.test := rfl
@[simp] theorem modCounters_refWatch (f : Counters → Counters) (s : State) :
    (s.modCounters f).refWatch = s.refWatch := rfl
@[simp] theorem modCounters_lineOut (f : Counters → Counters) (s : State) :
    (s.modCounters f).lineOut = s.lineOut := rfl
@[simp] theorem modCounters_pending (f : Counters → Counters) (s : State) :
    (s.modCounters f).pending = s.pending := rfl

/-! `State.modTest` -/

@[simp] theorem modTest_pins (f : TestUnit → TestUnit) (s : State) : (s.modTest f).pins = s.pins := rfl
@[simp] theorem modTest_lanes (f : TestUnit → TestUnit) (s : State) : (s.modTest f).lanes = s.lanes := rfl
@[simp] theorem modTest_poolFree (f : TestUnit → TestUnit) (s : State) : (s.modTest f).poolFree = s.poolFree := rfl
@[simp] theorem modTest_release (f : TestUnit → TestUnit) (s : State) : (s.modTest f).release = s.release := rfl
@[simp] theorem modTest_plan (f : TestUnit → TestUnit) (s : State) : (s.modTest f).plan = s.plan := rfl
@[simp] theorem modTest_builder (f : TestUnit → TestUnit) (s : State) : (s.modTest f).builder = s.builder := rfl
@[simp] theorem modTest_control (f : TestUnit → TestUnit) (s : State) : (s.modTest f).control = s.control := rfl
@[simp] theorem modTest_link (f : TestUnit → TestUnit) (s : State) : (s.modTest f).link = s.link := rfl
@[simp] theorem modTest_rx (f : TestUnit → TestUnit) (s : State) : (s.modTest f).rx = s.rx := rfl
@[simp] theorem modTest_port (f : TestUnit → TestUnit) (s : State) : (s.modTest f).port = s.port := rfl
@[simp] theorem modTest_events (f : TestUnit → TestUnit) (s : State) : (s.modTest f).events = s.events := rfl
@[simp] theorem modTest_counters (f : TestUnit → TestUnit) (s : State) : (s.modTest f).counters = s.counters := rfl
@[simp] theorem modTest_mailbox (f : TestUnit → TestUnit) (s : State) : (s.modTest f).mailbox = s.mailbox := rfl
@[simp] theorem modTest_sides (f : TestUnit → TestUnit) (s : State) : (s.modTest f).sides = s.sides := rfl
@[simp] theorem modTest_tally (f : TestUnit → TestUnit) (s : State) : (s.modTest f).tally = s.tally := rfl
@[simp] theorem modTest_ret (f : TestUnit → TestUnit) (s : State) : (s.modTest f).ret = s.ret := rfl
@[simp] theorem modTest_test (f : TestUnit → TestUnit) (s : State) : (s.modTest f).test = f s.test := rfl
@[simp] theorem modTest_refWatch (f : TestUnit → TestUnit) (s : State) : (s.modTest f).refWatch = s.refWatch := rfl
@[simp] theorem modTest_lineOut (f : TestUnit → TestUnit) (s : State) : (s.modTest f).lineOut = s.lineOut := rfl
@[simp] theorem modTest_pending (f : TestUnit → TestUnit) (s : State) : (s.modTest f).pending = s.pending := rfl

/-! `State.modTally` -/

@[simp] theorem modTally_pins (f : Tally → Tally) (s : State) : (s.modTally f).pins = s.pins := rfl
@[simp] theorem modTally_lanes (f : Tally → Tally) (s : State) : (s.modTally f).lanes = s.lanes := rfl
@[simp] theorem modTally_poolFree (f : Tally → Tally) (s : State) : (s.modTally f).poolFree = s.poolFree := rfl
@[simp] theorem modTally_release (f : Tally → Tally) (s : State) : (s.modTally f).release = s.release := rfl
@[simp] theorem modTally_plan (f : Tally → Tally) (s : State) : (s.modTally f).plan = s.plan := rfl
@[simp] theorem modTally_builder (f : Tally → Tally) (s : State) : (s.modTally f).builder = s.builder := rfl
@[simp] theorem modTally_control (f : Tally → Tally) (s : State) : (s.modTally f).control = s.control := rfl
@[simp] theorem modTally_link (f : Tally → Tally) (s : State) : (s.modTally f).link = s.link := rfl
@[simp] theorem modTally_rx (f : Tally → Tally) (s : State) : (s.modTally f).rx = s.rx := rfl
@[simp] theorem modTally_port (f : Tally → Tally) (s : State) : (s.modTally f).port = s.port := rfl
@[simp] theorem modTally_events (f : Tally → Tally) (s : State) : (s.modTally f).events = s.events := rfl
@[simp] theorem modTally_counters (f : Tally → Tally) (s : State) : (s.modTally f).counters = s.counters := rfl
@[simp] theorem modTally_mailbox (f : Tally → Tally) (s : State) : (s.modTally f).mailbox = s.mailbox := rfl
@[simp] theorem modTally_sides (f : Tally → Tally) (s : State) : (s.modTally f).sides = s.sides := rfl
@[simp] theorem modTally_tally (f : Tally → Tally) (s : State) : (s.modTally f).tally = f s.tally := rfl
@[simp] theorem modTally_ret (f : Tally → Tally) (s : State) : (s.modTally f).ret = s.ret := rfl
@[simp] theorem modTally_test (f : Tally → Tally) (s : State) : (s.modTally f).test = s.test := rfl
@[simp] theorem modTally_refWatch (f : Tally → Tally) (s : State) : (s.modTally f).refWatch = s.refWatch := rfl
@[simp] theorem modTally_lineOut (f : Tally → Tally) (s : State) : (s.modTally f).lineOut = s.lineOut := rfl
@[simp] theorem modTally_pending (f : Tally → Tally) (s : State) : (s.modTally f).pending = s.pending := rfl

/-! `State.modRet` -/

@[simp] theorem modRet_pins (f : ReturnPort → ReturnPort) (s : State) : (s.modRet f).pins = s.pins := rfl
@[simp] theorem modRet_lanes (f : ReturnPort → ReturnPort) (s : State) : (s.modRet f).lanes = s.lanes := rfl
@[simp] theorem modRet_poolFree (f : ReturnPort → ReturnPort) (s : State) : (s.modRet f).poolFree = s.poolFree := rfl
@[simp] theorem modRet_release (f : ReturnPort → ReturnPort) (s : State) : (s.modRet f).release = s.release := rfl
@[simp] theorem modRet_plan (f : ReturnPort → ReturnPort) (s : State) : (s.modRet f).plan = s.plan := rfl
@[simp] theorem modRet_builder (f : ReturnPort → ReturnPort) (s : State) : (s.modRet f).builder = s.builder := rfl
@[simp] theorem modRet_control (f : ReturnPort → ReturnPort) (s : State) : (s.modRet f).control = s.control := rfl
@[simp] theorem modRet_link (f : ReturnPort → ReturnPort) (s : State) : (s.modRet f).link = s.link := rfl
@[simp] theorem modRet_rx (f : ReturnPort → ReturnPort) (s : State) : (s.modRet f).rx = s.rx := rfl
@[simp] theorem modRet_port (f : ReturnPort → ReturnPort) (s : State) : (s.modRet f).port = s.port := rfl
@[simp] theorem modRet_events (f : ReturnPort → ReturnPort) (s : State) : (s.modRet f).events = s.events := rfl
@[simp] theorem modRet_counters (f : ReturnPort → ReturnPort) (s : State) : (s.modRet f).counters = s.counters := rfl
@[simp] theorem modRet_mailbox (f : ReturnPort → ReturnPort) (s : State) : (s.modRet f).mailbox = s.mailbox := rfl
@[simp] theorem modRet_sides (f : ReturnPort → ReturnPort) (s : State) : (s.modRet f).sides = s.sides := rfl
@[simp] theorem modRet_tally (f : ReturnPort → ReturnPort) (s : State) : (s.modRet f).tally = s.tally := rfl
@[simp] theorem modRet_ret (f : ReturnPort → ReturnPort) (s : State) : (s.modRet f).ret = f s.ret := rfl
@[simp] theorem modRet_test (f : ReturnPort → ReturnPort) (s : State) : (s.modRet f).test = s.test := rfl
@[simp] theorem modRet_refWatch (f : ReturnPort → ReturnPort) (s : State) : (s.modRet f).refWatch = s.refWatch := rfl
@[simp] theorem modRet_lineOut (f : ReturnPort → ReturnPort) (s : State) : (s.modRet f).lineOut = s.lineOut := rfl
@[simp] theorem modRet_pending (f : ReturnPort → ReturnPort) (s : State) : (s.modRet f).pending = s.pending := rfl

/-! `State.setMailbox` -/

@[simp] theorem setMailbox_pins (m : Mailbox) (s : State) : (s.setMailbox m).pins = s.pins := rfl
@[simp] theorem setMailbox_lanes (m : Mailbox) (s : State) : (s.setMailbox m).lanes = s.lanes := rfl
@[simp] theorem setMailbox_poolFree (m : Mailbox) (s : State) : (s.setMailbox m).poolFree = s.poolFree := rfl
@[simp] theorem setMailbox_release (m : Mailbox) (s : State) : (s.setMailbox m).release = s.release := rfl
@[simp] theorem setMailbox_plan (m : Mailbox) (s : State) : (s.setMailbox m).plan = s.plan := rfl
@[simp] theorem setMailbox_builder (m : Mailbox) (s : State) : (s.setMailbox m).builder = s.builder := rfl
@[simp] theorem setMailbox_control (m : Mailbox) (s : State) : (s.setMailbox m).control = s.control := rfl
@[simp] theorem setMailbox_link (m : Mailbox) (s : State) : (s.setMailbox m).link = s.link := rfl
@[simp] theorem setMailbox_rx (m : Mailbox) (s : State) : (s.setMailbox m).rx = s.rx := rfl
@[simp] theorem setMailbox_port (m : Mailbox) (s : State) : (s.setMailbox m).port = s.port := rfl
@[simp] theorem setMailbox_events (m : Mailbox) (s : State) : (s.setMailbox m).events = s.events := rfl
@[simp] theorem setMailbox_counters (m : Mailbox) (s : State) : (s.setMailbox m).counters = s.counters := rfl
@[simp] theorem setMailbox_mailbox (m : Mailbox) (s : State) : (s.setMailbox m).mailbox = m := rfl
@[simp] theorem setMailbox_sides (m : Mailbox) (s : State) : (s.setMailbox m).sides = s.sides := rfl
@[simp] theorem setMailbox_tally (m : Mailbox) (s : State) : (s.setMailbox m).tally = s.tally := rfl
@[simp] theorem setMailbox_ret (m : Mailbox) (s : State) : (s.setMailbox m).ret = s.ret := rfl
@[simp] theorem setMailbox_test (m : Mailbox) (s : State) : (s.setMailbox m).test = s.test := rfl
@[simp] theorem setMailbox_refWatch (m : Mailbox) (s : State) : (s.setMailbox m).refWatch = s.refWatch := rfl
@[simp] theorem setMailbox_lineOut (m : Mailbox) (s : State) : (s.setMailbox m).lineOut = s.lineOut := rfl
@[simp] theorem setMailbox_pending (m : Mailbox) (s : State) : (s.setMailbox m).pending = s.pending := rfl

/-! `State.addFree` -/

@[simp] theorem addFree_pins (n : Nat) (s : State) : (s.addFree n).pins = s.pins := rfl
@[simp] theorem addFree_lanes (n : Nat) (s : State) : (s.addFree n).lanes = s.lanes := rfl
@[simp] theorem addFree_poolFree (n : Nat) (s : State) : (s.addFree n).poolFree = s.poolFree + n := rfl
@[simp] theorem addFree_release (n : Nat) (s : State) : (s.addFree n).release = s.release := rfl
@[simp] theorem addFree_plan (n : Nat) (s : State) : (s.addFree n).plan = s.plan := rfl
@[simp] theorem addFree_builder (n : Nat) (s : State) : (s.addFree n).builder = s.builder := rfl
@[simp] theorem addFree_control (n : Nat) (s : State) : (s.addFree n).control = s.control := rfl
@[simp] theorem addFree_link (n : Nat) (s : State) : (s.addFree n).link = s.link := rfl
@[simp] theorem addFree_rx (n : Nat) (s : State) : (s.addFree n).rx = s.rx := rfl
@[simp] theorem addFree_port (n : Nat) (s : State) : (s.addFree n).port = s.port := rfl
@[simp] theorem addFree_events (n : Nat) (s : State) : (s.addFree n).events = s.events := rfl
@[simp] theorem addFree_counters (n : Nat) (s : State) : (s.addFree n).counters = s.counters := rfl
@[simp] theorem addFree_mailbox (n : Nat) (s : State) : (s.addFree n).mailbox = s.mailbox := rfl
@[simp] theorem addFree_sides (n : Nat) (s : State) : (s.addFree n).sides = s.sides := rfl
@[simp] theorem addFree_tally (n : Nat) (s : State) : (s.addFree n).tally = s.tally := rfl
@[simp] theorem addFree_ret (n : Nat) (s : State) : (s.addFree n).ret = s.ret := rfl
@[simp] theorem addFree_test (n : Nat) (s : State) : (s.addFree n).test = s.test := rfl
@[simp] theorem addFree_refWatch (n : Nat) (s : State) : (s.addFree n).refWatch = s.refWatch := rfl
@[simp] theorem addFree_lineOut (n : Nat) (s : State) : (s.addFree n).lineOut = s.lineOut := rfl
@[simp] theorem addFree_pending (n : Nat) (s : State) : (s.addFree n).pending = s.pending := rfl

/-! `State.modLane` -/

@[simp] theorem modLane_pins (l : LaneId) (f : Lane → Lane) (s : State) : (s.modLane l f).pins = s.pins := rfl
@[simp] theorem modLane_lanes (l : LaneId) (f : Lane → Lane) (s : State) :
    (s.modLane l f).lanes = s.lanes.set l (f (s.lanes.get l)) := rfl
@[simp] theorem modLane_poolFree (l : LaneId) (f : Lane → Lane) (s : State) :
    (s.modLane l f).poolFree = s.poolFree := rfl
@[simp] theorem modLane_release (l : LaneId) (f : Lane → Lane) (s : State) :
    (s.modLane l f).release = s.release := rfl
@[simp] theorem modLane_plan (l : LaneId) (f : Lane → Lane) (s : State) : (s.modLane l f).plan = s.plan := rfl
@[simp] theorem modLane_builder (l : LaneId) (f : Lane → Lane) (s : State) :
    (s.modLane l f).builder = s.builder := rfl
@[simp] theorem modLane_control (l : LaneId) (f : Lane → Lane) (s : State) :
    (s.modLane l f).control = s.control := rfl
@[simp] theorem modLane_link (l : LaneId) (f : Lane → Lane) (s : State) : (s.modLane l f).link = s.link := rfl
@[simp] theorem modLane_rx (l : LaneId) (f : Lane → Lane) (s : State) : (s.modLane l f).rx = s.rx := rfl
@[simp] theorem modLane_port (l : LaneId) (f : Lane → Lane) (s : State) : (s.modLane l f).port = s.port := rfl
@[simp] theorem modLane_events (l : LaneId) (f : Lane → Lane) (s : State) : (s.modLane l f).events = s.events := rfl
@[simp] theorem modLane_counters (l : LaneId) (f : Lane → Lane) (s : State) :
    (s.modLane l f).counters = s.counters := rfl
@[simp] theorem modLane_mailbox (l : LaneId) (f : Lane → Lane) (s : State) :
    (s.modLane l f).mailbox = s.mailbox := rfl
@[simp] theorem modLane_sides (l : LaneId) (f : Lane → Lane) (s : State) : (s.modLane l f).sides = s.sides := rfl
@[simp] theorem modLane_tally (l : LaneId) (f : Lane → Lane) (s : State) : (s.modLane l f).tally = s.tally := rfl
@[simp] theorem modLane_ret (l : LaneId) (f : Lane → Lane) (s : State) : (s.modLane l f).ret = s.ret := rfl
@[simp] theorem modLane_test (l : LaneId) (f : Lane → Lane) (s : State) : (s.modLane l f).test = s.test := rfl
@[simp] theorem modLane_refWatch (l : LaneId) (f : Lane → Lane) (s : State) :
    (s.modLane l f).refWatch = s.refWatch := rfl
@[simp] theorem modLane_lineOut (l : LaneId) (f : Lane → Lane) (s : State) :
    (s.modLane l f).lineOut = s.lineOut := rfl
@[simp] theorem modLane_pending (l : LaneId) (f : Lane → Lane) (s : State) :
    (s.modLane l f).pending = s.pending := rfl

/-! `State.modSide` -/

@[simp] theorem modSide_pins (i : SideId) (f : SideLine → SideLine) (s : State) : (s.modSide i f).pins = s.pins := rfl
@[simp] theorem modSide_lanes (i : SideId) (f : SideLine → SideLine) (s : State) :
    (s.modSide i f).lanes = s.lanes := rfl
@[simp] theorem modSide_poolFree (i : SideId) (f : SideLine → SideLine) (s : State) :
    (s.modSide i f).poolFree = s.poolFree := rfl
@[simp] theorem modSide_release (i : SideId) (f : SideLine → SideLine) (s : State) :
    (s.modSide i f).release = s.release := rfl
@[simp] theorem modSide_plan (i : SideId) (f : SideLine → SideLine) (s : State) : (s.modSide i f).plan = s.plan := rfl
@[simp] theorem modSide_builder (i : SideId) (f : SideLine → SideLine) (s : State) :
    (s.modSide i f).builder = s.builder := rfl
@[simp] theorem modSide_control (i : SideId) (f : SideLine → SideLine) (s : State) :
    (s.modSide i f).control = s.control := rfl
@[simp] theorem modSide_link (i : SideId) (f : SideLine → SideLine) (s : State) : (s.modSide i f).link = s.link := rfl
@[simp] theorem modSide_rx (i : SideId) (f : SideLine → SideLine) (s : State) : (s.modSide i f).rx = s.rx := rfl
@[simp] theorem modSide_port (i : SideId) (f : SideLine → SideLine) (s : State) : (s.modSide i f).port = s.port := rfl
@[simp] theorem modSide_events (i : SideId) (f : SideLine → SideLine) (s : State) :
    (s.modSide i f).events = s.events := rfl
@[simp] theorem modSide_counters (i : SideId) (f : SideLine → SideLine) (s : State) :
    (s.modSide i f).counters = s.counters := rfl
@[simp] theorem modSide_mailbox (i : SideId) (f : SideLine → SideLine) (s : State) :
    (s.modSide i f).mailbox = s.mailbox := rfl
@[simp] theorem modSide_sides (i : SideId) (f : SideLine → SideLine) (s : State) :
    (s.modSide i f).sides = s.sides.set i (f (s.sides.get i)) := rfl
@[simp] theorem modSide_tally (i : SideId) (f : SideLine → SideLine) (s : State) :
    (s.modSide i f).tally = s.tally := rfl
@[simp] theorem modSide_ret (i : SideId) (f : SideLine → SideLine) (s : State) : (s.modSide i f).ret = s.ret := rfl
@[simp] theorem modSide_test (i : SideId) (f : SideLine → SideLine) (s : State) : (s.modSide i f).test = s.test := rfl
@[simp] theorem modSide_refWatch (i : SideId) (f : SideLine → SideLine) (s : State) :
    (s.modSide i f).refWatch = s.refWatch := rfl
@[simp] theorem modSide_lineOut (i : SideId) (f : SideLine → SideLine) (s : State) :
    (s.modSide i f).lineOut = s.lineOut := rfl
@[simp] theorem modSide_pending (i : SideId) (f : SideLine → SideLine) (s : State) :
    (s.modSide i f).pending = s.pending := rfl

/-! `State.modGroup` -/

@[simp] theorem modGroup_pins (g : GroupId) (f : Group → Group) (s : State) : (s.modGroup g f).pins = s.pins := rfl
@[simp] theorem modGroup_lanes (g : GroupId) (f : Group → Group) (s : State) : (s.modGroup g f).lanes = s.lanes := rfl
@[simp] theorem modGroup_poolFree (g : GroupId) (f : Group → Group) (s : State) :
    (s.modGroup g f).poolFree = s.poolFree := rfl
@[simp] theorem modGroup_release (g : GroupId) (f : Group → Group) (s : State) :
    (s.modGroup g f).release = { s.release with groups := s.release.groups.set g (f (s.release.groups.get g)) } := rfl
@[simp] theorem modGroup_plan (g : GroupId) (f : Group → Group) (s : State) : (s.modGroup g f).plan = s.plan := rfl
@[simp] theorem modGroup_builder (g : GroupId) (f : Group → Group) (s : State) :
    (s.modGroup g f).builder = s.builder := rfl
@[simp] theorem modGroup_control (g : GroupId) (f : Group → Group) (s : State) :
    (s.modGroup g f).control = s.control := rfl
@[simp] theorem modGroup_link (g : GroupId) (f : Group → Group) (s : State) : (s.modGroup g f).link = s.link := rfl
@[simp] theorem modGroup_rx (g : GroupId) (f : Group → Group) (s : State) : (s.modGroup g f).rx = s.rx := rfl
@[simp] theorem modGroup_port (g : GroupId) (f : Group → Group) (s : State) : (s.modGroup g f).port = s.port := rfl
@[simp] theorem modGroup_events (g : GroupId) (f : Group → Group) (s : State) :
    (s.modGroup g f).events = s.events := rfl
@[simp] theorem modGroup_counters (g : GroupId) (f : Group → Group) (s : State) :
    (s.modGroup g f).counters = s.counters := rfl
@[simp] theorem modGroup_mailbox (g : GroupId) (f : Group → Group) (s : State) :
    (s.modGroup g f).mailbox = s.mailbox := rfl
@[simp] theorem modGroup_sides (g : GroupId) (f : Group → Group) (s : State) : (s.modGroup g f).sides = s.sides := rfl
@[simp] theorem modGroup_tally (g : GroupId) (f : Group → Group) (s : State) : (s.modGroup g f).tally = s.tally := rfl
@[simp] theorem modGroup_ret (g : GroupId) (f : Group → Group) (s : State) : (s.modGroup g f).ret = s.ret := rfl
@[simp] theorem modGroup_test (g : GroupId) (f : Group → Group) (s : State) : (s.modGroup g f).test = s.test := rfl
@[simp] theorem modGroup_refWatch (g : GroupId) (f : Group → Group) (s : State) :
    (s.modGroup g f).refWatch = s.refWatch := rfl
@[simp] theorem modGroup_lineOut (g : GroupId) (f : Group → Group) (s : State) :
    (s.modGroup g f).lineOut = s.lineOut := rfl
@[simp] theorem modGroup_pending (g : GroupId) (f : Group → Group) (s : State) :
    (s.modGroup g f).pending = s.pending := rfl

/-! `State.setStanding` -/

@[simp] theorem setStanding_pins (l : LaneId) (v : Option Standing) (s : State) :
    (s.setStanding l v).pins = s.pins := rfl
@[simp] theorem setStanding_lanes (l : LaneId) (v : Option Standing) (s : State) :
    (s.setStanding l v).lanes = s.lanes := rfl
@[simp] theorem setStanding_poolFree (l : LaneId) (v : Option Standing) (s : State) :
    (s.setStanding l v).poolFree = s.poolFree := rfl
@[simp] theorem setStanding_release (l : LaneId) (v : Option Standing) (s : State) :
    (s.setStanding l v).release = { s.release with standing := s.release.standing.set l v } := rfl
@[simp] theorem setStanding_plan (l : LaneId) (v : Option Standing) (s : State) :
    (s.setStanding l v).plan = s.plan := rfl
@[simp] theorem setStanding_builder (l : LaneId) (v : Option Standing) (s : State) :
    (s.setStanding l v).builder = s.builder := rfl
@[simp] theorem setStanding_control (l : LaneId) (v : Option Standing) (s : State) :
    (s.setStanding l v).control = s.control := rfl
@[simp] theorem setStanding_link (l : LaneId) (v : Option Standing) (s : State) :
    (s.setStanding l v).link = s.link := rfl
@[simp] theorem setStanding_rx (l : LaneId) (v : Option Standing) (s : State) : (s.setStanding l v).rx = s.rx := rfl
@[simp] theorem setStanding_port (l : LaneId) (v : Option Standing) (s : State) :
    (s.setStanding l v).port = s.port := rfl
@[simp] theorem setStanding_events (l : LaneId) (v : Option Standing) (s : State) :
    (s.setStanding l v).events = s.events := rfl
@[simp] theorem setStanding_counters (l : LaneId) (v : Option Standing) (s : State) :
    (s.setStanding l v).counters = s.counters := rfl
@[simp] theorem setStanding_mailbox (l : LaneId) (v : Option Standing) (s : State) :
    (s.setStanding l v).mailbox = s.mailbox := rfl
@[simp] theorem setStanding_sides (l : LaneId) (v : Option Standing) (s : State) :
    (s.setStanding l v).sides = s.sides := rfl
@[simp] theorem setStanding_tally (l : LaneId) (v : Option Standing) (s : State) :
    (s.setStanding l v).tally = s.tally := rfl
@[simp] theorem setStanding_ret (l : LaneId) (v : Option Standing) (s : State) :
    (s.setStanding l v).ret = s.ret := rfl
@[simp] theorem setStanding_test (l : LaneId) (v : Option Standing) (s : State) :
    (s.setStanding l v).test = s.test := rfl
@[simp] theorem setStanding_refWatch (l : LaneId) (v : Option Standing) (s : State) :
    (s.setStanding l v).refWatch = s.refWatch := rfl
@[simp] theorem setStanding_lineOut (l : LaneId) (v : Option Standing) (s : State) :
    (s.setStanding l v).lineOut = s.lineOut := rfl
@[simp] theorem setStanding_pending (l : LaneId) (v : Option Standing) (s : State) :
    (s.setStanding l v).pending = s.pending := rfl

/-! Reading one member of a family after it, or another, has been set -/

@[simp] theorem perLane_get_set_same {α : Type} (p : PerLane α) (l : LaneId) (v : α) : (p.set l v).get l = v := by
  cases l <;> rfl

theorem perLane_get_set_other {α : Type} (p : PerLane α) (l k : LaneId) (v : α) (h : k ≠ l) :
    (p.set l v).get k = p.get k := by
  cases l <;> cases k <;> first | rfl | exact absurd rfl h

@[simp] theorem perSide_get_set_same {α : Type} (p : PerSide α) (i : SideId) (v : α) : (p.set i v).get i = v := by
  cases i <;> rfl

theorem perSide_get_set_other {α : Type} (p : PerSide α) (i k : SideId) (v : α) (h : k ≠ i) :
    (p.set i v).get k = p.get k := by
  cases i <;> cases k <;> first | rfl | exact absurd rfl h

@[simp] theorem perGroup_get_set_same {α : Type} (p : PerGroup α) (g : GroupId) (v : α) : (p.set g v).get g = v := by
  cases g <;> rfl

theorem perGroup_get_set_other {α : Type} (p : PerGroup α) (g k : GroupId) (v : α) (h : k ≠ g) :
    (p.set g v).get k = p.get k := by
  cases g <;> cases k <;> first | rfl | exact absurd rfl h

@[simp] theorem lane_modLane_same (l : LaneId) (f : Lane → Lane) (s : State) :
    (s.modLane l f).lane l = f (s.lane l) := by
  simp [State.lane]

theorem lane_modLane_other (l k : LaneId) (f : Lane → Lane) (s : State) (h : k ≠ l) :
    (s.modLane l f).lane k = s.lane k := by
  simp [State.lane, perLane_get_set_other _ _ _ _ h]

@[simp] theorem side_modSide_same (i : SideId) (f : SideLine → SideLine) (s : State) :
    (s.modSide i f).side i = f (s.side i) := by
  simp [State.side]

theorem side_modSide_other (i k : SideId) (f : SideLine → SideLine) (s : State) (h : k ≠ i) :
    (s.modSide i f).side k = s.side k := by
  simp [State.side, perSide_get_set_other _ _ _ _ h]

@[simp] theorem counterGet_counterSet_same (c : Counters) (id : CounterId) (v : Counter) :
    counterGet (counterSet c id v) id = v := by
  cases id with
  | lane l k => cases k <;> simp [counterGet, counterSet, laneCounterGet, laneCounterSet]
  | link k => cases k <;> rfl
  | relayOverruns => rfl
  | side i k => cases k <;> simp [counterGet, counterSet, sideCounterGet, sideCounterSet]

theorem counterGet_counterSet_other (c : Counters) (id k : CounterId) (v : Counter) (h : k ≠ id) :
    counterGet (counterSet c id v) k = counterGet c k := by
  cases id with
  | lane l x =>
    cases k with
    | lane l' x' =>
      by_cases hl : l' = l
      · subst hl
        cases x <;> cases x' <;>
          first
          | exact absurd rfl h
          | simp [counterGet, counterSet, laneCounterGet, laneCounterSet]
      · simp [counterGet, counterSet, perLane_get_set_other _ _ _ _ hl]
    | link _ => rfl
    | relayOverruns => rfl
    | side _ _ => rfl
  | link x =>
    cases k with
    | link x' => cases x <;> cases x' <;> first | exact absurd rfl h | rfl
    | lane _ _ => rfl
    | relayOverruns => rfl
    | side _ _ => rfl
  | relayOverruns =>
    cases k with
    | relayOverruns => exact absurd rfl h
    | lane _ _ => rfl
    | link _ => rfl
    | side _ _ => rfl
  | side i x =>
    cases k with
    | side i' x' =>
      by_cases hl : i' = i
      · subst hl
        cases x <;> cases x' <;>
          first
          | exact absurd rfl h
          | simp [counterGet, counterSet, sideCounterGet, sideCounterSet]
      · simp [counterGet, counterSet, perSide_get_set_other _ _ _ _ hl]
    | lane _ _ => rfl
    | link _ => rfl
    | relayOverruns => rfl

end Sys2Proof.Machine
end

