-- ==== Sys2Proof/Laws/Frames.lean ====
section
/-! SUPPORT. Frames: which parts of the state each shared operation can change. One lemma for each operation, so that no
later proof unfolds the operation to learn what it leaves alone. -/

set_option Elab.async false

namespace Sys2Proof.Machine

variable {s t u : State} {ps qs rs : List Part}

/-! ### Rules for frames -/

theorem OnlyChanges.refl (ps : List Part) (s : State) : OnlyChanges ps s s := by
  intro p _
  cases p <;> rfl

theorem Same.trans {p : Part} (h : Same p s t) (k : Same p t u) : Same p s u := by
  cases p <;> exact Eq.trans k h

theorem OnlyChanges.mono (h : OnlyChanges ps s t) (sub : ∀ p ∈ ps, p ∈ qs) : OnlyChanges qs s t :=
  fun p hp => h p fun hp' => hp (sub p hp')

theorem OnlyChanges.trans (h : OnlyChanges ps s t) (k : OnlyChanges ps t u) : OnlyChanges ps s u :=
  fun p hp => (h p hp).trans (k p hp)

/-- One operation after another; the list of the whole holds the lists of both. -/
theorem OnlyChanges.andThen (h : OnlyChanges ps s t) (k : OnlyChanges qs t u)
    (hp : ∀ p ∈ ps, p ∈ rs := by decide) (hq : ∀ p ∈ qs, p ∈ rs := by decide) : OnlyChanges rs s u :=
  (h.mono hp).trans (k.mono hq)

theorem OnlyChanges.wider (h : OnlyChanges ps s t) (hp : ∀ p ∈ ps, p ∈ rs := by decide) : OnlyChanges rs s t :=
  h.mono hp

theorem each_only {α : Type} {f : α → State → State} (h : ∀ a s, OnlyChanges ps s (f a s)) (xs : List α) (s : State) :
    OnlyChanges ps s (State.each f xs s) := by
  induction xs generalizing s with
  | nil => exact .refl _ _
  | cons a rest ih => exact (h a s).trans (ih _)

theorem ite_only {c : Prop} [Decidable c] {a b : State} (h : OnlyChanges ps s a) (k : OnlyChanges ps s b) :
    OnlyChanges ps s (if c then a else b) := by
  split
  · exact h
  · exact k

/-! ### Block updates -/

theorem modPins_only (f s) : OnlyChanges [.pins] s (State.modPins f s) := by
  intro p hp; cases p <;> first | rfl | exact (hp (by decide)).elim
theorem modRelease_only (f s) : OnlyChanges [.release] s (State.modRelease f s) := by
  intro p hp; cases p <;> first | rfl | exact (hp (by decide)).elim
theorem modPlan_only (f s) : OnlyChanges [.plan] s (State.modPlan f s) := by
  intro p hp; cases p <;> first | rfl | exact (hp (by decide)).elim
theorem modBuilder_only (f s) : OnlyChanges [.builder] s (State.modBuilder f s) := by
  intro p hp; cases p <;> first | rfl | exact (hp (by decide)).elim
theorem modControl_only (f s) : OnlyChanges [.announce, .responses, .relayOut, .notices] s (State.modControl f s) := by
  intro p hp; cases p <;> first | rfl | exact (hp (by decide)).elim
theorem modLink_only (f s) : OnlyChanges [.link] s (State.modLink f s) := by
  intro p hp; cases p <;> first | rfl | exact (hp (by decide)).elim
theorem modTimers_only (f s) : OnlyChanges [.link] s (State.modTimers f s) := by
  intro p hp; cases p <;> first | rfl | exact (hp (by decide)).elim
theorem modRx_only (f s) : OnlyChanges [.rx] s (State.modRx f s) := by
  intro p hp; cases p <;> first | rfl | exact (hp (by decide)).elim
theorem modPort_only (f s) : OnlyChanges [.port] s (State.modPort f s) := by
  intro p hp; cases p <;> first | rfl | exact (hp (by decide)).elim
theorem modEvents_only (f s) : OnlyChanges [.events] s (State.modEvents f s) := by
  intro p hp; cases p <;> first | rfl | exact (hp (by decide)).elim
theorem modCounters_only (f s) : OnlyChanges [.counters] s (State.modCounters f s) := by
  intro p hp; cases p <;> first | rfl | exact (hp (by decide)).elim
theorem modTest_only (f s) : OnlyChanges [.test] s (State.modTest f s) := by
  intro p hp; cases p <;> first | rfl | exact (hp (by decide)).elim
theorem modTally_only (f s) : OnlyChanges [.tally] s (State.modTally f s) := by
  intro p hp; cases p <;> first | rfl | exact (hp (by decide)).elim
theorem modRet_only (f s) : OnlyChanges [.ret] s (State.modRet f s) := by
  intro p hp; cases p <;> first | rfl | exact (hp (by decide)).elim
theorem setMailbox_only (m s) : OnlyChanges [.mailbox] s (State.setMailbox m s) := by
  intro p hp; cases p <;> first | rfl | exact (hp (by decide)).elim
theorem addFree_only (n s) : OnlyChanges [.poolFree] s (State.addFree n s) := by
  intro p hp; cases p <;> first | rfl | exact (hp (by decide)).elim
theorem takeFree_only (n : Nat) (s : State) : OnlyChanges [.poolFree] s { s with poolFree := s.poolFree - n } := by
  intro p hp; cases p <;> first | rfl | exact (hp (by decide)).elim
theorem modLane_only (l f s) : OnlyChanges [.lanes] s (State.modLane l f s) := by
  intro p hp; cases p <;> first | rfl | exact (hp (by decide)).elim
theorem modSide_only (i f s) : OnlyChanges [.sides] s (State.modSide i f s) := by
  intro p hp; cases p <;> first | rfl | exact (hp (by decide)).elim
theorem modGroup_only (g f s) : OnlyChanges [.release] s (State.modGroup g f s) := modRelease_only _ _
theorem setStanding_only (l v s) : OnlyChanges [.release] s (State.setStanding l v s) := modRelease_only _ _
theorem joinNotice_only (e s) : OnlyChanges [.notices] s (joinNotice e s) := by
  intro p hp; cases p <;> first | rfl | exact (hp (by decide)).elim
theorem setRefWatch_only (w : RefWatch) (s : State) : OnlyChanges [.refWatch] s { s with refWatch := w } := by
  intro p hp; cases p <;> first | rfl | exact (hp (by decide)).elim
theorem queueAnnouncement_only (k n s) : OnlyChanges [.announce] s (queueAnnouncement k n s) := by
  intro p hp; cases p <;> first | rfl | exact (hp (by decide)).elim
theorem handToLine_only (f s) : OnlyChanges [.lineOut, .rx] s (handToLine f s) := by
  intro p hp; cases p <;> first | rfl | exact (hp (by decide)).elim

/-! ### Counters and events -/

theorem joinHead_only (e s) : OnlyChanges [.events] s (joinHead e s) := by
  unfold joinHead
  split
  · split <;> exact modEvents_only _ _
  · exact .refl _ _

theorem recordWith_only {lose : State → State} (h : ∀ s, OnlyChanges [.events, .notices, .counters] s (lose s)) (forced e s) :
    OnlyChanges [.events, .notices, .counters] s (recordWith lose forced e s) := by
  unfold recordWith
  simp only
  split
  · split
    · exact (joinHead_only _ _).andThen (joinNotice_only _ _)
    · exact (joinHead_only _ _).andThen (h _)
  · exact (joinHead_only _ _).wider

theorem noticeLostPastHalf_only (s) : OnlyChanges [.events, .notices, .counters] s (noticeLostPastHalf s) :=
  (modCounters_only _ _).wider

theorem halfNoticeLost_only (s) : OnlyChanges [.events, .notices, .counters] s (halfNoticeLost s) := by
  unfold halfNoticeLost
  exact ite_only ((noticeLostPastHalf_only _).trans (recordWith_only noticeLostPastHalf_only _ _ _))
    (noticeLostPastHalf_only _)

theorem recordHalf_only (id s) : OnlyChanges [.events, .notices, .counters] s (recordHalf id s) :=
  recordWith_only halfNoticeLost_only _ _ _

theorem bump_only (id s) : OnlyChanges [.events, .notices, .counters] s (State.bump id s) := by
  unfold State.bump
  simp only
  split
  · exact (modCounters_only _ _).andThen (recordHalf_only _ _)
  · exact (modCounters_only _ _).wider

theorem record_only (forced e s) : OnlyChanges [.events, .notices, .counters] s (record forced e s) :=
  recordWith_only (bump_only _) _ _ _

theorem raise_only (k a b s) : OnlyChanges [.events, .notices, .counters] s (State.raise k a b s) := record_only _ _ _

theorem raiseForced_only (k a b s) : OnlyChanges [.events, .notices, .counters] s (State.raiseForced k a b s) :=
  record_only _ _ _

/-! ### Tile pool and line queues -/

theorem countCut_only (l q s) : OnlyChanges [.events, .notices, .counters] s (countCut l q s) := by
  unfold countCut
  split
  · exact bump_only _ _
  · exact .refl _ _

theorem discardReleased_only (l s) :
    OnlyChanges [.lanes, .poolFree, .events, .notices, .counters] s (discardReleased l s) := by
  unfold discardReleased
  exact ((modLane_only _ _ _).andThen (rs := [.lanes, .poolFree]) (addFree_only _ _)).andThen (countCut_only _ _ _)

theorem emptyLane_only (l s) : OnlyChanges [.lanes, .poolFree, .events, .notices, .counters] s (emptyLane l s) := by
  unfold emptyLane
  exact ((modLane_only _ _ _).andThen (rs := [.lanes, .poolFree]) (addFree_only _ _)).andThen (countCut_only _ _ _)

/-! ### Release unit -/

theorem releaseOldest_only (m l s) :
    OnlyChanges [.lanes, .poolFree, .events, .notices, .counters] s (releaseOldest m l s) := by
  unfold releaseOldest
  split
  · exact .refl _ _
  · split
    · exact (modLane_only _ _ _).wider
    · exact ((modLane_only _ _ _).andThen (rs := [.lanes, .poolFree]) (addFree_only _ _)).andThen (bump_only _ _)

theorem releaseMany_only (m l n s) :
    OnlyChanges [.lanes, .poolFree, .events, .notices, .counters] s (releaseMany m l n s) := by
  induction n generalizing s with
  | zero => exact .refl _ _
  | succ n ih => exact (releaseOldest_only _ _ _).trans (ih _)

theorem lagQuietly_only (l s) : OnlyChanges [.release] s (lagQuietly l s) := by
  unfold lagQuietly
  split
  · exact .refl _ _
  · exact setStanding_only _ _ _

theorem lagMember_only (g l s) : OnlyChanges [.release, .events, .notices, .counters] s (lagMember g l s) :=
  (setStanding_only _ _ _).andThen (raise_only _ _ _ _)

theorem rejoinMember_only (g l s) : OnlyChanges [.release, .events, .notices, .counters] s (rejoinMember g l s) :=
  (setStanding_only _ _ _).andThen (raise_only _ _ _ _)

/-- What a group evaluation can change. -/
abbrev evaluationParts : List Part := [.lanes, .poolFree, .release, .events, .notices, .counters]

theorem evaluatePass_only (g c s) {t : State} (h : evaluatePass g c s = some t) : OnlyChanges evaluationParts s t := by
  unfold evaluatePass at h
  simp only at h
  split at h
  · cases h
    exact (releaseOldest_only _ _ _).wider
  · split at h
    · split at h
      · split at h
        · cases h
        · cases h
          exact (modGroup_only _ _ _).wider
      · cases h
        exact (((each_only (releaseOldest_only _) _ _).andThen (rs := evaluationParts)
          (each_only (rejoinMember_only _) _ _)).andThen (modGroup_only _ _ _))
    · split at h
      · cases h
        exact (each_only (lagMember_only _) _ _).wider
      · cases h

theorem evaluateLoop_only (g n s) : OnlyChanges evaluationParts s (evaluateLoop g n s) := by
  induction n generalizing s with
  | zero => exact .refl _ _
  | succ n ih =>
    unfold evaluateLoop
    split
    · exact .refl _ _
    · split
      · exact .refl _ _
      · rename_i h
        exact (evaluatePass_only _ _ _ h).trans (ih _)

theorem releaseAllAlone_only (l s) :
    OnlyChanges [.lanes, .poolFree, .events, .notices, .counters] s (releaseAllAlone l s) := releaseMany_only _ _ _ _

theorem evaluate_only (g s) : OnlyChanges evaluationParts s (evaluate g s) := by
  unfold evaluate
  simp only
  split
  · split
    · exact evaluateLoop_only _ _ _
    · split
      · exact .refl _ _
      · exact (modGroup_only _ _ _).andThen (evaluateLoop_only _ _ _)
  · exact (modGroup_only _ _ _).andThen (each_only releaseAllAlone_only _ _)

theorem evaluateLane_only (l s) : OnlyChanges evaluationParts s (evaluateLane l s) := by
  unfold evaluateLane
  split
  · exact .refl _ _
  · exact evaluate_only _ _

theorem evaluateOption_only (g s) : OnlyChanges evaluationParts s (evaluateOption g s) := by
  unfold evaluateOption
  split
  · exact .refl _ _
  · exact evaluate_only _ _

theorem lineCompleted_only (l s) : OnlyChanges evaluationParts s (lineCompleted l s) := by
  unfold lineCompleted
  split
  · exact (releaseOldest_only _ _ _).wider
  · exact evaluate_only _ _

theorem restartGroups_only (s) : OnlyChanges evaluationParts s (restartGroups s) := by
  unfold restartGroups
  exact ((modRelease_only _ _).andThen (rs := evaluationParts) (evaluate_only _ _)).trans (evaluate_only _ _)

/-! ### Intake -/

theorem dropLine_only (l s) : OnlyChanges [.lanes, .poolFree, .events, .notices, .counters] s (dropLine l s) := by
  unfold dropLine
  split
  · exact .refl _ _
  · exact ((modLane_only _ _ _).andThen (rs := [.lanes, .poolFree]) (addFree_only _ _)).andThen (bump_only _ _)

theorem appendTile_only (l x s) :
    OnlyChanges [.lanes, .poolFree, .events, .notices, .counters] s (appendTile l x s) := by
  unfold appendTile
  simp only
  have h := (modLane_only l (fun x' => { x' with queue := modNewest (fun r => { r with tiles := r.tiles ++ [x] }) x'.queue })
    s).andThen (rs := [.lanes, .poolFree]) (takeFree_only 1 _)
  split
  · exact h.andThen (bump_only _ _)
  · split
    · exact h.andThen (bump_only _ _)
    · exact h.wider

theorem placeTiles_only (l xs s) :
    OnlyChanges [.lanes, .poolFree, .events, .notices, .counters] s (placeTiles l xs s).1 := by
  induction xs generalizing s with
  | nil => exact .refl _ _
  | cons x rest ih =>
    unfold placeTiles
    split
    · exact (appendTile_only _ _ _).trans (ih _)
    · exact dropLine_only _ _

theorem completeLine_only (l b s) : OnlyChanges [.lanes] s (completeLine l b s) := modLane_only _ _ _

theorem closeTruncated_only (l n s) :
    OnlyChanges [.lanes, .poolFree, .events, .notices, .counters] s (closeTruncated l n s).1 := by
  unfold closeTruncated
  split
  · rename_i h
    have := placeTiles_only l (fillTiles n (tilesPerLine (s.lane l).desc)) s
    rw [h] at this
    exact this.andThen (completeLine_only _ _ _)
  · rename_i h
    have := placeTiles_only l (fillTiles n (tilesPerLine (s.lane l).desc)) s
    rw [h] at this
    exact this

theorem openLine_only (l p s) : OnlyChanges [.lanes, .events, .notices, .counters] s (openLine l p s) := by
  unfold openLine
  simp only
  split
  · exact (modLane_only _ _ _).wider
  · split
    · exact (modLane_only _ _ _).wider
    · exact (bump_only _ _).andThen (modLane_only _ _ _)

theorem placeBurst_only (l b p n s) : OnlyChanges evaluationParts s (placeBurst l b p n s) := by
  unfold placeBurst
  simp only
  split
  · exact (bump_only _ _).wider
  · split
    · rename_i h
      have := placeTiles_only l (fillTiles n b.index ++ [tileOf b]) s
      rw [h] at this
      exact this.wider
    · rename_i s1 h
      have h1 := placeTiles_only l (fillTiles n b.index ++ [tileOf b]) s
      rw [h] at h1
      split
      · split
        · rename_i h'
          have h2 := placeTiles_only l (if b.last then fillTiles (b.index + 1) (tilesPerLine (s.lane l).desc) else []) s1
          rw [h'] at h2
          exact (h1.trans h2).wider
        · rename_i h'
          have h2 := placeTiles_only l (if b.last then fillTiles (b.index + 1) (tilesPerLine (s.lane l).desc) else []) s1
          rw [h'] at h2
          exact ((h1.trans h2).andThen (rs := evaluationParts) (completeLine_only _ _ _)).trans (lineCompleted_only _ _)
      · exact h1.andThen (modLane_only _ _ _)

theorem openAndPlace_only (l b s) : OnlyChanges evaluationParts s (openAndPlace l b s) :=
  (openLine_only _ _ _).andThen (placeBurst_only _ _ _ _ _)

theorem assemble_only (l b s) : OnlyChanges evaluationParts s (assemble l b s) := by
  unfold assemble
  simp only
  split
  · exact (bump_only _ _).wider
  · split
    · exact .refl _ _
    · split
      · exact openAndPlace_only _ _ _
      · rename_i p n _
        split
        · exact placeBurst_only _ _ _ _ _
        · have h1 := closeTruncated_only l n s
          split
          · rename_i h
            rw [h] at h1
            exact (h1.andThen (rs := evaluationParts) (lineCompleted_only _ _)).trans (openAndPlace_only _ _ _)
          · rename_i h
            rw [h] at h1
            exact h1.andThen (openAndPlace_only _ _ _)

theorem armedArrival_only (l b s) : OnlyChanges evaluationParts s (armedArrival l b s) := by
  unfold armedArrival
  simp only
  split
  · have h := (((modLane_only l (fun x => { x with state := .running, silence := 0, recovery := false }) s).andThen
      (rs := evaluationParts) (evaluateLane_only l _)).trans (assemble_only l b _))
    exact ite_only (h.andThen (raise_only _ _ _ _)) h
  · exact (bump_only _ _).wider

theorem takeBurst_only (l b s) : OnlyChanges evaluationParts s (takeBurst l b s) := by
  unfold takeBurst
  split
  · exact .refl _ _
  · exact armedArrival_only _ _ _
  · exact (modLane_only _ _ _).andThen (assemble_only _ _ _)
  · split
    · exact ((modLane_only _ _ _).andThen (rs := evaluationParts) (evaluateLane_only _ _)).trans (armedArrival_only _ _ _)
    · exact (bump_only _ _).wider

theorem faultLane_only (d l s) : OnlyChanges evaluationParts s (faultLane d l s) := by
  have h0 : OnlyChanges evaluationParts s (lagQuietly l (s.modLane l fun x => { x with state := .faulted })) :=
    (modLane_only _ _ _).andThen (lagQuietly_only _ _)
  have finish {v : State} (hv : OnlyChanges evaluationParts s v) :
      OnlyChanges evaluationParts s ((v.modLane l fun x =>
        { x with assembly := .betweenLines, dropMark := none, recovery := true }).raise .laneFault (laneNum l) d) :=
    (hv.andThen (rs := evaluationParts) (modLane_only _ _ _)).andThen (raise_only _ _ _ _)
  have tail {v : State} {b : Bool} {g : Option GroupId} (hv : OnlyChanges evaluationParts s v) :
      OnlyChanges evaluationParts s
        (match g with
          | some g => evaluate g v
          | none => if b then releaseOldest none l v else v) := by
    cases g with
    | some g => exact hv.trans (evaluate_only _ _)
    | none => exact ite_only (hv.trans ((releaseOldest_only _ _ _).wider)) hv
  unfold faultLane
  cases (s.lane l).assembly with
  | betweenLines => exact tail (finish h0)
  | assembling p n => exact tail (finish (h0.trans ((closeTruncated_only _ _ _).wider)))

theorem boardReadyFall_only (l s) : OnlyChanges evaluationParts s (boardReadyFall l s) := by
  unfold boardReadyFall
  split
  · exact faultLane_only _ _ _
  · exact .refl _ _

theorem silenceExpiry_only (l s) : OnlyChanges evaluationParts s (silenceExpiry l s) := by
  unfold silenceExpiry
  split
  · exact (modLane_only _ _ _).andThen (faultLane_only _ _ _)
  · exact .refl _ _

theorem silenceTick_only (l s) : OnlyChanges evaluationParts s (silenceTick l s) := by
  unfold silenceTick
  split
  · split
    · exact silenceExpiry_only _ _
    · exact (modLane_only _ _ _).wider
  · exact .refl _ _

theorem startLane_only (l s) : OnlyChanges evaluationParts s (startLane l s) :=
  (modLane_only _ _ _).andThen (evaluateLane_only _ _)

theorem stopLane_only (l s) : OnlyChanges evaluationParts s (stopLane l s) := by
  unfold stopLane
  split
  · exact .refl _ _
  · exact (((emptyLane_only _ _).andThen (rs := evaluationParts) (modLane_only _ _ _)).andThen (rs := evaluationParts)
      (lagQuietly_only _ _)).trans (evaluateLane_only _ _)

theorem restartLane_only (l s) :
    OnlyChanges [.lanes, .poolFree, .events, .notices, .counters] s (restartLane l s) := by
  unfold restartLane
  split
  · exact .refl _ _
  · exact (emptyLane_only _ _).andThen (modLane_only _ _ _)

theorem installDescriptor_only (l d s) : OnlyChanges evaluationParts s (installDescriptor l d s) := by
  unfold installDescriptor
  simp only
  have h := (setStanding_only l (standingAfterSet s l (groupOf (s.lane l).desc) (groupOf d)) s).andThen
    (rs := evaluationParts) (modLane_only l (fun x => { x with desc := d }) _)
  split
  · exact h
  · exact (h.trans (evaluateOption_only _ _)).trans (evaluateOption_only _ _)

/-! ### Plan store -/

theorem startEcho_only (s) : OnlyChanges [.plan] s (startEcho s) := modPlan_only _ _

theorem stopEcho_only (s) : OnlyChanges [.plan] s (stopEcho s) := modPlan_only _ _

theorem announceInForce_only (s) : OnlyChanges [.announce] s (announceInForce s) := queueAnnouncement_only _ _ _

/-- What an event of the plan store can change beside the announcement queue. -/
abbrev planParts : List Part := [.plan, .announce, .events, .notices, .counters]

theorem echoExpire_only (n e s) : OnlyChanges planParts s (echoExpire n e s) := by
  unfold echoExpire
  simp only
  have h : OnlyChanges planParts s (announceInForce s) := (announceInForce_only _).wider
  split
  · exact ((h.andThen (rs := planParts) (modPlan_only _ _)).andThen (rs := planParts) (raise_only _ _ _ _)).andThen
      (modPlan_only _ _)
  · exact h.andThen (modPlan_only _ _)

theorem echoTick_only (s) : OnlyChanges planParts s (echoTick s) := by
  unfold echoTick
  split
  · exact .refl _ _
  · split
    · exact echoExpire_only _ _ _
    · exact (modPlan_only _ _).wider

theorem echoExpiry_only (s) : OnlyChanges planParts s (echoExpiry s) := by
  unfold echoExpiry
  split
  · exact .refl _ _
  · split
    · exact echoExpire_only _ _ _
    · exact .refl _ _

theorem echoCompare_only (e s) : OnlyChanges [.plan, .events, .notices, .counters] s (echoCompare e s) := by
  unfold echoCompare
  split
  · exact .refl _ _
  · split
    · simp only
      split
      · exact ((stopEcho_only _).andThen (rs := [.plan]) (modPlan_only _ _)).andThen (raise_only _ _ _ _)
      · exact (stopEcho_only _).wider
    · exact (modPlan_only _ _).wider

theorem discardPending_only (s) : OnlyChanges [.plan] s (discardPending s) := modPlan_only _ _

theorem freeHold_only (s) : OnlyChanges [.plan] s (freeHold s) := (discardPending_only _).trans (modPlan_only _ _)

theorem restartHoldTimer_only (s) : OnlyChanges [.plan] s (restartHoldTimer s) := by
  unfold restartHoldTimer
  split
  · exact modPlan_only _ _
  · exact .refl _ _

theorem holdExpiry_only (s) : OnlyChanges [.plan, .events, .notices, .counters] s (holdExpiry s) := by
  unfold holdExpiry
  split
  · exact (freeHold_only _).andThen (raise_only _ _ _ _)
  · exact .refl _ _

theorem openHold_only (o s) : OnlyChanges [.plan] s (openHold o s) := modPlan_only _ _

theorem setPendingEntries_only (es s) : OnlyChanges [.plan] s (setPendingEntries es s) := modPlan_only _ _

theorem acceptCommit_only (o s) : OnlyChanges [.plan, .announce] s (acceptCommit o s) := by
  unfold acceptCommit
  split
  · exact (queueAnnouncement_only _ _ _).andThen (modPlan_only _ _)
  · exact (modPlan_only _ _).wider

theorem countdownTick_only (s) : OnlyChanges [.plan] s (countdownTick s) := by
  unfold countdownTick
  split
  · exact .refl _ _
  · split <;> exact modPlan_only _ _

theorem countdownEnd_only (s) : OnlyChanges [.plan] s (countdownEnd s) := by
  unfold countdownEnd
  split
  · exact countdownTick_only _
  · exact .refl _ _

theorem clearCountdown_only (s) : OnlyChanges [.plan] s (clearCountdown s) := modPlan_only _ _

theorem planLoss_only (s) : OnlyChanges [.plan, .events, .notices, .counters] s (planLoss s) := by
  unfold planLoss
  split
  · exact .refl _ _
  · exact .refl _ _
  · exact (freeHold_only _).andThen (raise_only _ _ _ _)
  · split
    · simp only
      split
      · exact ((clearCountdown_only _).trans (modPlan_only _ _)).andThen (raise_only _ _ _ _)
      · exact (((clearCountdown_only _).trans (freeHold_only _)).andThen
          (rs := [.plan, .events, .notices, .counters]) (raise_only _ _ _ _)).andThen (raise_only _ _ _ _)
    · exact .refl _ _

theorem planRestart_only (s) : OnlyChanges [.plan, .events, .notices, .counters] s (planRestart s) := by
  unfold planRestart
  split
  · exact (clearCountdown_only _).wider
  · exact ((clearCountdown_only _).trans (freeHold_only _)).andThen (raise_only _ _ _ _)
  · exact (((clearCountdown_only _).trans (freeHold_only _)).andThen
      (rs := [.plan, .events, .notices, .counters]) (raise_only _ _ _ _)).andThen (raise_only _ _ _ _)

theorem emptyRelayOut_only (s : State) :
    OnlyChanges [.relayOut] s (s.modControl fun c => { c with relayOut := [] }) := by
  intro p hp; cases p <;> first | rfl | exact (hp (by decide)).elim

theorem emptyAnnounce_only (s : State) :
    OnlyChanges [.announce] s (s.modControl fun c => { c with announce := [] }) := by
  intro p hp; cases p <;> first | rfl | exact (hp (by decide)).elim

theorem discardRelayOut_only (s) :
    OnlyChanges [.relayOut, .events, .notices, .counters] s (discardRelayOut s) := by
  unfold discardRelayOut
  simp only
  split
  · exact .refl _ _
  · exact (emptyRelayOut_only _).andThen (raise_only _ _ _ _)

/-- What a loss of the link can change beside the link controller. -/
abbrev lossParts : List Part := [.plan, .announce, .relayOut, .events, .notices, .counters]

@[simp] theorem noteLoss_plan (s : State) : (noteLoss s).plan = { s.plan with lossTaken := true } := rfl

theorem noteLoss_only (s) : OnlyChanges [.plan] s (noteLoss s) := modPlan_only _ _

theorem lossOfLink_only (s) : OnlyChanges lossParts s (lossOfLink s) := by
  unfold lossOfLink
  exact ((((planLoss_only _).andThen (rs := lossParts) (noteLoss_only _)).andThen (rs := lossParts)
    (emptyAnnounce_only _)).andThen (rs := lossParts) (stopEcho_only _)).andThen (discardRelayOut_only _)

/-! ### Link controller -/

/-- What a drop can change. -/
abbrev dropParts : List Part := [.link, .plan, .announce, .relayOut, .events, .notices, .counters]

theorem enterMeasure_only (n s) : OnlyChanges [.link] s (enterMeasure n s) := modLink_only _ _

theorem settleDown_only (s) : OnlyChanges [.link] s (settleDown s) := by
  unfold settleDown
  split
  · exact enterMeasure_only _ _
  · exact .refl _ _

theorem enterDown_only (s) : OnlyChanges [.link] s (enterDown s) := modLink_only _ _

theorem recordDrop_only (c s) : OnlyChanges [.link, .events, .notices, .counters] s (recordDrop c s) :=
  (modLink_only _ _).andThen (raise_only _ _ _ _)

theorem dropToDown_only (c s) : OnlyChanges dropParts s (dropToDown c s) :=
  ((recordDrop_only _ _).andThen (rs := dropParts) (enterDown_only _)).andThen (lossOfLink_only _)

theorem trainingFailure_only (s) : OnlyChanges dropParts s (trainingFailure s) := by
  unfold trainingFailure
  split
  · exact (enterMeasure_only _ _).wider
  · exact (modLink_only _ _).andThen (dropToDown_only _ _)

theorem proposalToNone_only (b s) : OnlyChanges [.link] s (proposalToNone b s) := by
  unfold proposalToNone
  simp only
  split <;> exact (modLink_only _ _).trans (modTimers_only _ _)

theorem propose_only (k s) : OnlyChanges [.link] s (propose k s) := (modLink_only _ _).trans (modTimers_only _ _)

theorem beginCountdown_only (k b s) : OnlyChanges [.link] s (beginCountdown k b s) :=
  (modLink_only _ _).trans (modTimers_only _ _)

theorem refuseNext_only (s) : OnlyChanges [.link] s (refuseNext s) := modLink_only _ _

theorem takeClassField_only (f s) : OnlyChanges [.link] s (takeClassField f s) := by
  unfold takeClassField
  split
  · exact .refl _ _
  · split
    · split
      · exact beginCountdown_only _ _ _
      · exact .refl _ _
    · exact .refl _ _
  · split
    · exact proposalToNone_only _ _
    · exact .refl _ _
  · split
    · split
      · exact beginCountdown_only _ _ _
      · exact refuseNext_only _
    · split
      · split
        · exact (proposalToNone_only _ _).trans (refuseNext_only _)
        · exact beginCountdown_only _ _ _
      · split
        · exact beginCountdown_only _ _ _
        · exact .refl _ _
    · exact .refl _ _

theorem takeSelect_only (k s) : OnlyChanges [.link] s (takeSelect k s) := by
  unfold takeSelect
  split
  · exact modLink_only _ _
  · exact .refl _ _

/-- What the entry into UP can change. -/
abbrev upParts : List Part := [.link, .builder, .plan, .announce, .events, .notices, .counters]

theorem enterUp_only (s) : OnlyChanges upParts s (enterUp s) := by
  unfold enterUp
  exact ((((modLink_only _ _).andThen (rs := upParts) (modBuilder_only _ _)).andThen (rs := upParts)
    (raise_only _ _ _ _)).andThen (rs := upParts) (announceInForce_only _)).andThen (startEcho_only _)

theorem trainTick_only (s) : OnlyChanges upParts s (trainTick s) := by
  unfold trainTick
  split
  · exact enterUp_only _
  · exact (modLink_only _ _).wider

theorem trainEnd_only (s) : OnlyChanges upParts s (trainEnd s) := by
  unfold trainEnd
  split
  · exact enterUp_only _
  · exact .refl _ _

theorem classCountTick_only (s) : OnlyChanges [.link] s (classCountTick s) := by
  unfold classCountTick
  split
  · exact modLink_only _ _
  · exact .refl _ _

theorem classCountEnd_only (s) : OnlyChanges [.link] s (classCountEnd s) := by
  unfold classCountEnd
  split
  · exact modLink_only _ _
  · exact .refl _ _

theorem applyDueClass_only (s) : OnlyChanges [.link, .events, .notices, .counters] s (applyDueClass s) := by
  unfold applyDueClass
  split
  · exact ((modLink_only _ _).andThen (rs := [.link, .events, .notices, .counters]) (raise_only _ _ _ _)).andThen
      (proposalToNone_only _ _)
  · exact .refl _ _

theorem takeVerdict_only (p s) : OnlyChanges dropParts s (takeVerdict p s) := by
  unfold takeVerdict
  simp only
  split
  · exact (modLink_only _ _).wider
  · exact (modLink_only _ _).andThen (dropToDown_only _ _)

theorem superviseTick_only (s) : OnlyChanges dropParts s (superviseTick s) :=
  ite_only ((takeVerdict_only _ _).andThen (bump_only _ _)) (takeVerdict_only _ _)

theorem lossCriterion_only (s) : OnlyChanges dropParts s (lossCriterion s) := by
  unfold lossCriterion
  split
  · exact superviseTick_only _
  · exact .refl _ _

theorem retryExpiry_only (s) : OnlyChanges [.link] s (retryExpiry s) := by
  unfold retryExpiry
  split
  · exact (modTimers_only _ _).trans (settleDown_only _)
  · exact .refl _ _

theorem measureExpiry_only (s) : OnlyChanges dropParts s (measureExpiry s) := by
  unfold measureExpiry
  split
  · exact trainingFailure_only _
  · exact .refl _ _

theorem offerExpiry_only (s) : OnlyChanges dropParts s (offerExpiry s) := by
  unfold offerExpiry
  split
  · exact trainingFailure_only _
  · exact .refl _ _

theorem answerExpiry_only (s) : OnlyChanges dropParts s (answerExpiry s) := by
  unfold answerExpiry
  split
  · split
    · exact .refl _ _
    · split
      · exact (proposalToNone_only _ _).wider
      · split
        · exact dropToDown_only _ _
        · exact (proposalToNone_only _ _).wider
  · exact .refl _ _

theorem marginExpiry_only (s) : OnlyChanges [.link, .events, .notices, .counters] s (marginExpiry s) := by
  unfold marginExpiry
  split
  · simp only
    have h := (modTimers_only (fun t => { t with margin := none }) s).andThen
      (rs := [.link, .events, .notices, .counters])
      (raise_only .marginLow (classNum s.link.classInForce) (classOptNum s.link.ceiling) _)
    split
    · exact h
    · exact h.andThen (propose_only _ _)
  · exact .refl _ _

theorem stepUpExpiry_only (s) : OnlyChanges [.link] s (stepUpExpiry s) := by
  unfold stepUpExpiry
  split
  · split
    · split
      · exact (modTimers_only _ _).trans (propose_only _ _)
      · exact modTimers_only _ _
    · exact modTimers_only _ _
  · exact .refl _ _

theorem takeMeasurement_only (k s) : OnlyChanges [.link] s (takeMeasurement k s) := by
  unfold takeMeasurement
  split
  · exact modLink_only _ _
  · exact .refl _ _

theorem carrierLost_only (s) : OnlyChanges dropParts s (carrierLost s) := by
  unfold carrierLost
  split
  · exact dropToDown_only _ _
  · exact .refl _ _

theorem warningRises_only (s) : OnlyChanges [.link] s (warningRises s) := by
  unfold warningRises
  split
  · simp only
    split
    · exact (modTimers_only _ _).trans (modTimers_only _ _)
    · split
      · exact (modTimers_only _ _).trans (proposalToNone_only _ _)
      · exact modTimers_only _ _
    · exact modTimers_only _ _
  · exact .refl _ _

theorem warningFalls_only (s) : OnlyChanges [.link] s (warningFalls s) := by
  unfold warningFalls
  split
  · exact modTimers_only _ _
  · exact .refl _ _

/-- What the entry into DISABLED and the entry into and the end of TEST can change. -/
abbrev testParts : List Part := [.link, .plan, .announce, .relayOut, .events, .notices, .counters, .test]

theorem disableLink_only (s) : OnlyChanges testParts s (disableLink s) :=
  ((modLink_only _ _).andThen (rs := testParts) (modTest_only _ _)).andThen (lossOfLink_only _)

theorem enableLink_only (s) : OnlyChanges [.link] s (enableLink s) := (modLink_only _ _).trans (settleDown_only _)

theorem enterTest_only (s) : OnlyChanges dropParts s (enterTest s) := by
  unfold enterTest
  simp only
  refine .andThen (ps := dropParts) (.andThen (ps := dropParts) (rs := dropParts) ?_ (modLink_only _ _)) (lossOfLink_only _)
  split
  · exact (recordDrop_only _ _).wider
  · exact .refl _ _

theorem leaveTest_only (s) : OnlyChanges testParts s (leaveTest s) :=
  ((modTest_only _ _).andThen (rs := testParts) (enterDown_only _)).andThen (lossOfLink_only _)

/-! ### Carriage builder -/

/-- What an assessment can change. -/
abbrev assessParts : List Part := [.builder, .lanes, .poolFree, .events, .notices, .counters]

theorem assess_only (s) : OnlyChanges assessParts s (assess s) := by
  have h {f : Builder → Builder} {ls : List LaneId} :
      OnlyChanges assessParts s (State.each discardReleased ls (s.modBuilder f)) :=
    (modBuilder_only _ _).andThen (each_only discardReleased_only _ _)
  have k {v : State} (hv : OnlyChanges assessParts s v) (e : EventKind) (a b : Nat) :
      OnlyChanges assessParts s (v.raise e a b) := hv.andThen (raise_only _ _ _ _)
  have m {v : State} {c : Prop} [Decidable c] (hv : OnlyChanges assessParts s v) (e : EventKind) (a b : Nat) :
      OnlyChanges assessParts s (if c then v else v.raise e a b) := ite_only hv (k hv _ _ _)
  unfold assess
  exact ite_only (k (m h _ _ _) _ _ _) (m h _ _ _)

/-- What a plan switch can change. -/
abbrev switchParts : List Part := [.plan, .builder, .lanes, .poolFree, .announce, .events, .notices, .counters]

theorem takeSwitch_only (s) : OnlyChanges switchParts s (takeSwitch s) := by
  have h {f : PlanStore → PlanStore} {g : Builder → Builder} {ls : List LaneId} {k : EventKind} {a b : Nat} :
      OnlyChanges switchParts s
        ((State.each discardReleased ls ((s.modPlan f).modBuilder g)).raise k a b) :=
    (((modPlan_only _ _).andThen (rs := switchParts) (modBuilder_only _ _)).andThen (rs := switchParts)
      (each_only discardReleased_only _ _)).andThen (raise_only _ _ _ _)
  unfold takeSwitch
  cases s.plan.due with
  | none => exact .refl _ _
  | some d =>
    exact ite_only
      ((ite_only (h.trans ((announceInForce_only _).wider)) h).trans ((startEcho_only _).wider))
      (h.trans ((stopEcho_only _).wider))

theorem sendTiles_only (f i l n s) : OnlyChanges [.lanes, .poolFree] s (sendTiles f i l n s).2 := by
  induction n generalizing s with
  | zero => exact .refl _ _
  | succ n ih =>
    unfold sendTiles
    split
    · exact .refl _ _
    · exact ((modLane_only _ _ _).andThen (rs := [.lanes, .poolFree]) (addFree_only _ _)).trans (ih _)

theorem creditPass_only (i es rs n s) : OnlyChanges [.lanes, .poolFree] s (creditPass i es rs n s).state := by
  induction es generalizing i rs n s with
  | nil => exact .refl _ _
  | cons e es ih =>
    cases rs with
    | nil => exact .refl _ _
    | cons r rs =>
      unfold creditPass
      split
      · exact ih _ _ _ _
      · exact (sendTiles_only _ _ _ _ _).trans (ih _ _ _ _)

theorem drainPass_only (i es rs n s) : OnlyChanges [.lanes, .poolFree] s (drainPass i es rs n s).2.2 := by
  induction es generalizing i rs n s with
  | nil => exact .refl _ _
  | cons e es ih =>
    cases rs with
    | nil => exact .refl _ _
    | cons r rs =>
      unfold drainPass
      split
      · exact (sendTiles_only _ _ _ _ _).trans (ih _ _ _ _)
      · exact ih _ _ _ _

theorem fill_only (s) : OnlyChanges [.lanes, .poolFree, .builder] s (fill s).2 := by
  unfold fill
  exact ((creditPass_only _ _ _ _ _).trans (drainPass_only _ _ _ _ _)).andThen (modBuilder_only _ _)

theorem chooseCell_only (s) :
    OnlyChanges [.announce, .responses, .relayOut, .notices] s (chooseCell s).2 := by
  unfold chooseCell
  split
  · exact modControl_only _ _
  · split
    · exact modControl_only _ _
    · split
      · exact modControl_only _ _
      · split
        · exact modControl_only _ _
        · exact .refl _ _

/-- What a frame event can change. -/
abbrev frameParts : List Part :=
  [.lanes, .poolFree, .plan, .builder, .announce, .responses, .relayOut, .notices, .link, .rx, .events, .counters,
   .sides, .test, .lineOut]

theorem prepareUp_only (b s) : OnlyChanges frameParts s (prepareUp b s) := by
  unfold prepareUp
  simp only
  have h : OnlyChanges frameParts s ((applyDueClass s).modBuilder fun b =>
      { b with classApplied := (applyDueClass s).link.classInForce }) :=
    (applyDueClass_only _).andThen (modBuilder_only _ _)
  refine .andThen (ps := frameParts) ?_ (modBuilder_only _ _)
  split
  · exact h.andThen (assess_only _)
  · exact h

theorem auxLeave_only (s) : OnlyChanges [.sides] s (auxLeave s) := each_only (fun _ _ => modSide_only _ _ _) _ _

theorem handOverUp_only (b s) : OnlyChanges frameParts s (handOverUp b s) := by
  unfold handOverUp
  simp only
  have h := (((countdownTick_only s).andThen (rs := frameParts) (classCountTick_only _)).andThen (rs := frameParts)
    (modLink_only (fun c => { c with pendingRefusal := false }) _)).andThen (rs := frameParts) (auxLeave_only _)
  split
  · exact h
  · exact h.andThen (echoTick_only _)

theorem carriageFrame_only (b s) : OnlyChanges frameParts s (carriageFrame b s) := by
  unfold carriageFrame
  exact ((((prepareUp_only _ _).andThen (rs := frameParts) (fill_only _)).andThen (rs := frameParts)
    (chooseCell_only _)).andThen (rs := frameParts) (handToLine_only _ _)).trans (handOverUp_only _ _)

theorem trainingFrame_only (s) : OnlyChanges frameParts s (trainingFrame s) := by
  have h {f : Frame} : OnlyChanges frameParts s (countdownTick (handToLine f (chooseCell s).2)) :=
    ((chooseCell_only _).andThen (rs := frameParts) (handToLine_only _ _)).andThen (countdownTick_only _)
  unfold trainingFrame
  exact ite_only (h.trans ((trainTick_only _).wider)) h

theorem countTile_only (b s) : OnlyChanges [.test, .events, .notices, .counters] s (countTile b s) := by
  unfold countTile
  simp only
  split
  · split
    · exact (modTest_only _ _).wider
    · split
      · exact (modTest_only _ _).wider
      · exact (modTest_only _ _).andThen (raise_only _ _ _ _)
  · exact (modTest_only _ _).wider

theorem checkSlot_only (d s) : OnlyChanges [.test, .events, .notices, .counters] s (checkSlot d s) := by
  unfold checkSlot
  split
  · exact countTile_only _ _
  · exact .refl _ _

theorem checkReturn_only (r s) : OnlyChanges [.test, .events, .notices, .counters] s (checkReturn r s) := by
  unfold checkReturn
  split
  · exact countTile_only _ _
  · exact .refl _ _

theorem testFrame_only (s) : OnlyChanges frameParts s (testFrame s) := by
  have h {f : TestUnit → TestUnit} : OnlyChanges frameParts s ((chooseCell s).2.modTest f) :=
    (chooseCell_only _).andThen (modTest_only _ _)
  have tail {v : State} (hv : OnlyChanges frameParts s v) : OnlyChanges frameParts s (countdownTick v) :=
    hv.andThen (countdownTick_only _)
  unfold testFrame
  exact tail (ite_only (h.trans ((each_only checkSlot_only _ _).wider)) (h.trans ((handToLine_only _ _).wider)))

theorem countFrame_only (s) : OnlyChanges [.builder] s (countFrame s) := by
  unfold countFrame
  split
  · exact modBuilder_only _ _
  · exact .refl _ _

theorem frameEvent_only (s) : OnlyChanges frameParts s (frameEvent s) := by
  unfold frameEvent
  simp only
  have h := (countFrame_only s).andThen (rs := frameParts) (takeSwitch_only _)
  split
  · exact h.trans (carriageFrame_only _ _)
  · exact h.trans (trainingFrame_only _)
  · exact h.trans (trainingFrame_only _)
  · exact h.trans (trainingFrame_only _)
  · exact h.trans (testFrame_only _)
  · exact h
  · exact h

/-! ### Services -/

theorem relayArrives_only (m s) : OnlyChanges [.mailbox, .events, .notices, .counters] s (relayArrives m s) := by
  unfold relayArrives
  split
  · exact (bump_only _ _).andThen (raiseForced_only _ _ _ _)
  · exact (setMailbox_only _ _).andThen (raise_only _ _ _ _)

abbrev sideParts : List Part := [.sides, .events, .notices, .counters]

theorem startSending_only (i s) : OnlyChanges sideParts s (startSending i s) := by
  unfold startSending
  simp only
  split
  · exact (modSide_only _ _ _).wider
  · split
    · exact (modSide_only _ _ _).andThen (bump_only _ _)
    · exact (modSide_only _ _ _).wider

theorem sideOut_only (i r s) : OnlyChanges sideParts s (sideOut i r s) := by
  unfold sideOut
  simp only
  split
  · exact (bump_only _ _).wider
  · split
    · exact (modSide_only _ _ _).andThen (startSending_only _ _)
    · exact (modSide_only _ _ _).wider

theorem takeAux_only (a s) : OnlyChanges sideParts s (takeAux a s) :=
  each_only (fun i s => each_only (fun r s => sideOut_only i r s) _ s) _ _

theorem sideIn_only (i d p b s) : OnlyChanges sideParts s (sideIn i d p b s) := by
  have tail {v : State} {r : ByteRecord} (hv : OnlyChanges sideParts s v) :
      OnlyChanges sideParts s (if 64 ≤ (v.side i).inQueue.length then v.bump (.side i .inOverruns)
        else v.modSide i fun x => { x with inQueue := x.inQueue ++ [r] }) :=
    ite_only (hv.trans ((bump_only _ _).wider)) (hv.trans ((modSide_only _ _ _).wider))
  unfold sideIn
  cases receivedMark (s.side i).parity d p b with
  | clean => exact tail (.refl _ _)
  | parity => exact tail ((bump_only _ _).wider)
  | framing => exact tail ((bump_only _ _).wider)

theorem sideSent_only (i s) : OnlyChanges sideParts s (sideSent i s) := by
  unfold sideSent
  split
  · exact .refl _ _
  · exact startSending_only _ _

theorem emptySides_only (s) : OnlyChanges [.sides] s (emptySides s) := each_only (fun _ _ => modSide_only _ _ _) _ _

theorem tallyTick_only (s) : OnlyChanges [.tally] s (tallyTick s) := by
  unfold tallyTick
  split
  · exact .refl _ _
  · split <;> exact modTally_only _ _

theorem tallyExpiry_only (s) : OnlyChanges [.tally] s (tallyExpiry s) := by
  unfold tallyExpiry
  split
  · exact tallyTick_only _
  · exact .refl _ _

theorem takeReturn_only (r s) : OnlyChanges [.ret, .events, .notices, .counters] s (takeReturn r s) := by
  unfold takeReturn
  split
  · split
    · exact (modRet_only _ _).wider
    · exact (bump_only _ _).wider
  · exact .refl _ _

theorem viewfinderTakes_only (s) : OnlyChanges [.ret] s (viewfinderTakes s) := by
  unfold viewfinderTakes
  split
  · exact .refl _ _
  · exact modRet_only _ _

theorem referenceGone_only (s) : OnlyChanges [.refWatch, .events, .notices, .counters] s (referenceGone s) := by
  unfold referenceGone
  split
  · exact .refl _ _
  · exact (raise_only _ _ _ _).andThen (setRefWatch_only _ _)

theorem referenceMs_only (s) : OnlyChanges [.refWatch, .events, .notices, .counters] s (referenceMs s) := by
  unfold referenceMs
  split
  · exact (setRefWatch_only _ _).wider
  · exact referenceGone_only _

end Sys2Proof.Machine
end

