-- ==== Sys2Proof/Laws/CommandFrames.lean ====
section
/-! SUPPORT. Frames of the commands, of the ways a command comes in, of the head port, of the receiver and of a tick. -/

set_option Elab.async false

namespace Sys2Proof.Machine

variable {s t u : State} {ps qs rs : List Part}

/-! ### Reset -/

/-- Everything but the input levels and the commands that wait. -/
abbrev blockParts : List Part :=
  [.lanes, .poolFree, .release, .plan, .builder, .announce, .responses, .relayOut, .notices, .link, .rx, .port, .events,
   .counters, .mailbox, .sides, .tally, .ret, .test, .refWatch, .lineOut]

theorem resetBlocks_only (s) : OnlyChanges blockParts s (resetBlocks s) := by
  intro p hp; cases p <;> first | rfl | exact (hp (by decide)).elim

theorem startFromReset_only (k s) : OnlyChanges blockParts s (startFromReset k s) :=
  ((resetBlocks_only _).andThen (rs := blockParts) (modEvents_only _ _)).andThen (settleDown_only _)

/-! ### The commands -/

/-- What each command can change, whatever its arguments. -/
def cmdParts : Cmd → List Part
  | .identify | .laneGet _ | .planRead _ _ | .carryRead _ | .linkStatus | .relayRead | .countersRead _
  | .sidelineStatus _ | .tallyRead => []
  | .partReset => blockParts
  | .laneSet .. | .laneStart _ | .laneStop _ | .groupSet _ _ => evaluationParts
  | .planOpen | .planPut .. | .planInsert .. | .planRemove _ | .planAbandon => [.plan]
  | .planCommit => [.plan, .announce]
  | .linkEnable _ | .testStart _ _ _ | .testStop => testParts
  | .linkCriteria _ | .linkRetrain | .classRequest _ => [.link]
  | .linkRestart =>
    [.lanes, .poolFree, .release, .plan, .builder, .announce, .responses, .relayOut, .notices, .link, .events, .counters,
     .mailbox, .sides, .tally, .ret, .test]
  | .relaySend _ => [.relayOut]
  | .relayAck => [.mailbox]
  | .eventRead | .eventMask _ => [.events]
  | .countersClear _ => [.counters]
  | .sidelineSet _ _ _ => [.sides]
  | .testRead _ => [.test]

theorem cmdLaneSet_only (l c w h m a g s) : OnlyChanges evaluationParts s (cmdLaneSet l c w h m a g s).1 := by
  unfold cmdLaneSet
  split
  · simp only
    split
    · exact .refl _ _
    · exact installDescriptor_only _ _ _
  · exact .refl _ _

theorem cmdLaneStart_only (l s) : OnlyChanges evaluationParts s (cmdLaneStart l s).1 := by
  unfold cmdLaneStart
  split
  · exact .refl _ _
  · split
    · exact startLane_only _ _
    · exact .refl _ _

theorem cmdLaneStop_only (l s) : OnlyChanges evaluationParts s (cmdLaneStop l s).1 := by
  unfold cmdLaneStop
  split
  · exact .refl _ _
  · exact stopLane_only _ _

theorem cmdGroupSet_only (g k s) : OnlyChanges evaluationParts s (cmdGroupSet g k s).1 := by
  unfold cmdGroupSet
  split
  · exact .refl _ _
  · exact (modGroup_only _ _ _).andThen (evaluate_only _ _)

theorem cmdPlanOpen_only (o s) : OnlyChanges [.plan] s (cmdPlanOpen o s).1 := by
  unfold cmdPlanOpen
  split
  · exact .refl _ _
  · exact ite_only (openHold_only _ _) (restartHoldTimer_only _)

theorem editing_only (o : Origin) (s : State) {f : State → State × Reply} (h : ∀ s, OnlyChanges [.plan] s (f s).1) :
    OnlyChanges [.plan] s (editing o s f).1 := by
  unfold editing
  split
  · exact .refl _ _
  · exact (restartHoldTimer_only _).trans (h _)

theorem edited_only (es s) : OnlyChanges [.plan] s (edited es s).1 := setPendingEntries_only _ _

theorem cmdPlanPut_only (o i e s) : OnlyChanges [.plan] s (cmdPlanPut o i e s).1 := by
  refine editing_only o s fun s => ?_
  simp only
  split
  · exact .refl _ _
  · split
    · exact edited_only _ _
    · exact .refl _ _
    · exact .refl _ _

theorem cmdPlanInsert_only (o i e s) : OnlyChanges [.plan] s (cmdPlanInsert o i e s).1 := by
  refine editing_only o s fun s => ?_
  simp only
  split
  · exact .refl _ _
  · split
    · exact .refl _ _
    · split
      · exact edited_only _ _
      · exact .refl _ _
      · exact .refl _ _

theorem cmdPlanRemove_only (o i s) : OnlyChanges [.plan] s (cmdPlanRemove o i s).1 := by
  refine editing_only o s fun s => ?_
  simp only
  split
  · exact .refl _ _
  · exact edited_only _ _

theorem cmdPlanRead_only (b i s) : OnlyChanges [] s (cmdPlanRead b i s).1 := by
  unfold cmdPlanRead
  split <;> exact .refl _ _

theorem cmdPlanCommit_only (o s) : OnlyChanges [.plan, .announce] s (cmdPlanCommit o s).1 := by
  unfold cmdPlanCommit
  split
  · exact .refl _ _
  · split
    · exact (restartHoldTimer_only _).wider
    · exact (restartHoldTimer_only _).wider
    · exact (restartHoldTimer_only _).wider
    · exact (restartHoldTimer_only _).wider
    · exact acceptCommit_only _ _

theorem cmdPlanAbandon_only (o s) : OnlyChanges [.plan] s (cmdPlanAbandon o s).1 := by
  unfold cmdPlanAbandon
  split
  · exact .refl _ _
  · exact freeHold_only _

theorem cmdLinkEnable_only (b s) : OnlyChanges testParts s (cmdLinkEnable b s).1 := by
  unfold cmdLinkEnable
  split
  · exact .refl _ _
  · exact ite_only ((enableLink_only _).wider) (.refl _ _)
  · exact ite_only (.refl _ _) (disableLink_only _)

theorem cmdLinkRetrain_only (s) : OnlyChanges [.link] s (cmdLinkRetrain s).1 := by
  unfold cmdLinkRetrain retrainLink
  split
  · exact .refl _ _
  · exact ite_only (modLink_only _ _) (enterMeasure_only _ _)

theorem cmdClassRequest_only (d s) : OnlyChanges [.link] s (cmdClassRequest d s).1 := by
  unfold cmdClassRequest
  split
  · exact .refl _ _
  · split
    · exact .refl _ _
    · split
      · exact .refl _ _
      · split
        · exact .refl _ _
        · exact propose_only _ _

theorem restartRecords_only (s) :
    OnlyChanges [.plan, .announce, .responses, .relayOut, .notices, .link, .events, .counters] s (restartRecords s) := by
  have h0 : OnlyChanges [.plan, .announce, .responses, .relayOut, .notices, .link, .events, .counters] s
      (s.modControl fun _ => ControlQueues.reset) := (modControl_only _ _).wider
  have h1 {v : State} {c : Prop} [Decidable c]
      (hv : OnlyChanges [.plan, .announce, .responses, .relayOut, .notices, .link, .events, .counters] s v) :
      OnlyChanges [.plan, .announce, .responses, .relayOut, .notices, .link, .events, .counters] s
        (if c then recordDrop .restart v else v) := ite_only (hv.andThen (recordDrop_only _ _)) hv
  unfold restartRecords
  exact ite_only ((h1 h0).andThen (planRestart_only _))
    (((h1 h0).andThen (rs := [.plan, .announce, .responses, .relayOut, .notices, .link, .events, .counters])
      (planRestart_only _)).andThen (raise_only _ _ _ _))

theorem restartServices_only (s) : OnlyChanges [.mailbox, .sides, .tally, .ret, .test] s (restartServices s) := by
  unfold restartServices
  exact ((((setMailbox_only _ _).andThen (rs := [.mailbox, .sides, .tally, .ret, .test]) (emptySides_only _)).andThen
    (rs := [.mailbox, .sides, .tally, .ret, .test]) (modTally_only _ _)).andThen
    (rs := [.mailbox, .sides, .tally, .ret, .test]) (modRet_only _ _)).andThen (modTest_only _ _)

theorem restartLink_only (s) : OnlyChanges (cmdParts .linkRestart) s (restartLink s) := by
  unfold restartLink
  exact ((((((restartRecords_only _).andThen (rs := cmdParts .linkRestart) (modLink_only _ _)).andThen
    (rs := cmdParts .linkRestart) (each_only restartLane_only _ _)).andThen
    (rs := cmdParts .linkRestart) (restartGroups_only _)).andThen
    (rs := cmdParts .linkRestart) (modBuilder_only _ _)).andThen
    (rs := cmdParts .linkRestart) (modPlan_only _ _)).andThen (restartServices_only _)

theorem cmdRelaySend_only (tag m s) : OnlyChanges [.relayOut] s (cmdRelaySend tag m s).1 := by
  unfold cmdRelaySend
  split
  · exact .refl _ _
  · split
    · exact .refl _ _
    · intro p hp; cases p <;> first | rfl | exact (hp (by decide)).elim

theorem cmdRelayRead_only (s) : OnlyChanges [] s (cmdRelayRead s).1 := by
  unfold cmdRelayRead
  split <;> exact .refl _ _

theorem cmdRelayAck_only (s) : OnlyChanges [.mailbox] s (cmdRelayAck s).1 := by
  unfold cmdRelayAck
  split
  · exact setMailbox_only _ _
  · exact .refl _ _

theorem cmdTestStart_only (m c k s) : OnlyChanges testParts s (cmdTestStart m c k s).1 := by
  unfold cmdTestStart
  split
  · split
    · exact .refl _ _
    · exact ite_only ((modTest_only _ _).wider) ((modTest_only _ _).andThen (enterTest_only _))
  · exact .refl _ _

theorem cmdTestStop_only (s) : OnlyChanges testParts s (cmdTestStop s).1 := by
  unfold cmdTestStop
  split
  · exact leaveTest_only _
  · exact .refl _ _

theorem perform_only (o tag c s) : OnlyChanges (cmdParts c) s (perform o tag c s).1 := by
  cases c with
  | partReset => exact startFromReset_only _ _
  | laneSet l c w h m a g => exact cmdLaneSet_only _ _ _ _ _ _ _ _
  | laneStart l => exact cmdLaneStart_only _ _
  | laneStop l => exact cmdLaneStop_only _ _
  | laneGet l => simp only [perform, cmdLaneGet]; split <;> exact .refl _ _
  | groupSet g k => exact cmdGroupSet_only _ _ _
  | planOpen => exact cmdPlanOpen_only _ _
  | planPut i l q p t d => exact cmdPlanPut_only _ _ _ _
  | planInsert i l q p t d => exact cmdPlanInsert_only _ _ _ _
  | planRemove i => exact cmdPlanRemove_only _ _ _
  | planRead b i => exact cmdPlanRead_only _ _ _
  | planCommit => exact cmdPlanCommit_only _ _
  | planAbandon => exact cmdPlanAbandon_only _ _
  | carryRead i => simp only [perform, cmdCarryRead]; split <;> exact .refl _ _
  | linkEnable b => exact cmdLinkEnable_only _ _
  | linkCriteria c => exact modLink_only _ _
  | linkRetrain => exact cmdLinkRetrain_only _
  | classRequest d => exact cmdClassRequest_only _ _
  | linkRestart => exact restartLink_only _
  | relaySend m => exact cmdRelaySend_only _ _ _
  | relayRead => exact cmdRelayRead_only _
  | relayAck => exact cmdRelayAck_only _
  | eventRead => exact modEvents_only _ _
  | eventMask m => exact modEvents_only _ _
  | countersRead g => simp only [perform, cmdCountersRead]; split <;> exact .refl _ _
  | countersClear g =>
    simp only [perform, cmdCountersClear]
    split
    · exact .refl _ _
    · exact modCounters_only _ _
  | sidelineSet i r p =>
    simp only [perform, cmdSidelineSet]
    split
    · exact modSide_only _ _ _
    · exact .refl _ _
  | sidelineStatus i => simp only [perform, cmdSidelineStatus]; split <;> exact .refl _ _
  | testStart m n k => exact cmdTestStart_only _ _ _ _
  | testStop => exact cmdTestStop_only _
  | testRead c =>
    simp only [perform, cmdTestRead]
    split
    · exact .refl _ _
    · exact ite_only (modTest_only _ _) (.refl _ _)
  | identify => exact .refl _ _
  | linkStatus => exact .refl _ _
  | tallyRead => exact .refl _ _

/-! ### The ways in -/

theorem takeCommand_only (o op tag s) (c : Cmd) : OnlyChanges (cmdParts c) s (takeCommand o op tag (some c) s).1 := by
  simp only [takeCommand]
  split
  · exact .refl _ _
  · split
    · exact .refl _ _
    · exact perform_only _ _ _ _

/-- Everything that a command can change: the blocks. -/
theorem cmdParts_blocks (c : Cmd) : ∀ p ∈ cmdParts c, p ∈ blockParts := by
  cases c <;> simp only [cmdParts] <;> decide

theorem answerHead_only (x : State × Option Response) : OnlyChanges [.port] x.1 (answerHead x) := by
  unfold answerHead
  split
  · exact .refl _ _
  · exact modPort_only _ _

theorem answerBase_only (x : State × Option Response) : OnlyChanges [.responses] x.1 (answerBase x) := by
  unfold answerBase
  split
  · exact .refl _ _
  · intro p hp; cases p <;> first | rfl | exact (hp (by decide)).elim

theorem takeHeadCommand_only (op tag s) (c : Option Cmd) : OnlyChanges blockParts s (takeHeadCommand op tag c s) := by
  unfold takeHeadCommand
  split
  · exact (modPort_only _ _).wider
  · refine .andThen (ps := blockParts) ?_ (answerHead_only _)
    cases c with
    | none => exact .refl _ _
    | some c => exact (takeCommand_only _ _ _ _ _).mono (cmdParts_blocks c)

theorem takeBaseCommand_only (op tag s) (c : Option Cmd) : OnlyChanges blockParts s (takeBaseCommand op tag c s) := by
  unfold takeBaseCommand
  split
  · exact (bump_only _ _).wider
  · refine .andThen (ps := blockParts) ?_ (answerBase_only _)
    cases c with
    | none => exact .refl _ _
    | some c => exact (takeCommand_only _ _ _ _ _).mono (cmdParts_blocks c)

theorem submit_only (o tag c s) : OnlyChanges blockParts s (submit o tag c s) := by
  unfold submit
  split
  · exact .refl _ _
  · split
    · exact takeHeadCommand_only _ _ _ _
    · exact ite_only (takeBaseCommand_only _ _ _ _) (.refl _ _)

/-! ### Head port -/

/-- What a transaction can change: the blocks and the select input. -/
abbrev portParts : List Part := .pins :: blockParts

theorem selectFalls_only (s) : OnlyChanges [.pins, .port] s (selectFalls s) := by
  unfold selectFalls
  split
  · exact .refl _ _
  · exact ite_only ((modPins_only _ _).wider) ((modPins_only _ _).andThen (modPort_only _ _))

theorem selectHigh_only (s) : OnlyChanges [.pins, .port] s (selectHigh s) :=
  (modPins_only _ _).andThen (modPort_only _ _)

theorem endTransaction_only {body : Byte → State → State} (h : ∀ b s, OnlyChanges blockParts s (body b s)) (s) :
    OnlyChanges portParts s (endTransaction body s) := by
  unfold endTransaction
  simp only
  split
  · exact (selectFalls_only _).andThen (selectHigh_only _)
  · exact ite_only ((selectFalls_only _).andThen (selectHigh_only _))
      (((selectFalls_only _).andThen (rs := portParts) (h _ _)).andThen (selectHigh_only _))

theorem takeFrame_only (s) : OnlyChanges blockParts s (takeFrame s) := by
  unfold takeFrame
  split
  · exact (modPort_only _ _).wider
  · split
    · exact (modPort_only _ _).wider
    · exact takeHeadCommand_only _ _ _ _

theorem commandTransaction_only (bytes cut b s) : OnlyChanges blockParts s (commandTransaction bytes cut b s) := by
  unfold commandTransaction
  exact (((modPort_only _ _).trans (modPort_only _ _)).trans (modPort_only _ _)).andThen (takeFrame_only _)

theorem fetchTransaction_only (n b s) : OnlyChanges [.port] s (fetchTransaction n b s) := by
  have h {bytes : List Byte} : OnlyChanges [.port] s (shiftOut bytes (clearShown b s)) :=
    (modPort_only _ _).trans (modPort_only _ _)
  unfold fetchTransaction
  exact ite_only (h.trans (modPort_only _ _)) h

theorem invalidTransaction_only (k n b s) : OnlyChanges [.port] s (invalidTransaction k n b s) := by
  unfold invalidTransaction
  cases k with
  | none => exact modPort_only _ _
  | some k => exact ((modPort_only _ _).trans (modPort_only _ _)).trans (modPort_only _ _)

/-! ### Upstream receiver -/

theorem takeCommandCell_only (tag p s) : OnlyChanges blockParts s (takeCommandCell tag p s) := by
  unfold takeCommandCell
  split <;> exact takeBaseCommand_only _ _ _ _

theorem deliverCell_only (c s) : OnlyChanges blockParts s (deliverCell c s) := by
  unfold deliverCell
  split
  · exact (bump_only _ _).wider
  · exact ite_only (takeCommandCell_only _ _ _) (ite_only ((relayArrives_only _ _).wider) (.refl _ _))

theorem deliverHeader_only (u s) :
    OnlyChanges [.rx, .plan, .link, .tally, .events, .notices, .counters] s (deliverHeader u s) := by
  have h1 : OnlyChanges [.rx, .plan, .link, .tally, .events, .notices, .counters] s
      (echoCompare u.echo (s.modRx fun r => { r with lastBaseFrameCount := u.count })) :=
    (modRx_only _ _).andThen (echoCompare_only _ _)
  have h2 {v : State} {c : Prop} [Decidable c] {f : ClassField}
      (hv : OnlyChanges [.rx, .plan, .link, .tally, .events, .notices, .counters] s v) :
      OnlyChanges [.rx, .plan, .link, .tally, .events, .notices, .counters] s (if c then takeClassField f v else v) :=
    ite_only (hv.andThen (takeClassField_only _ _)) hv
  have h3 {v : State} {k : Option RateClass}
      (hv : OnlyChanges [.rx, .plan, .link, .tally, .events, .notices, .counters] s v) :
      OnlyChanges [.rx, .plan, .link, .tally, .events, .notices, .counters] s
        (match k with
          | none => v
          | some k => takeSelect k v) := by
    cases k with
    | none => exact hv
    | some k => exact hv.andThen (takeSelect_only _ _)
  have h4 {v : State} {c : Prop} [Decidable c] {f : LinkCtl → LinkCtl}
      (hv : OnlyChanges [.rx, .plan, .link, .tally, .events, .notices, .counters] s v) :
      OnlyChanges [.rx, .plan, .link, .tally, .events, .notices, .counters] s (if c then v.modLink f else v) :=
    ite_only (hv.andThen (modLink_only _ _)) hv
  have h5 {v : State} {c : Prop} [Decidable c] {a b d : Bool}
      (hv : OnlyChanges [.rx, .plan, .link, .tally, .events, .notices, .counters] s v) :
      OnlyChanges [.rx, .plan, .link, .tally, .events, .notices, .counters] s (if c then setTally a b d v else v) :=
    ite_only (hv.andThen (modTally_only _ _)) hv
  unfold deliverHeader
  exact h5 (h4 (h3 (h2 h1)))

theorem deliverReturns_only (slots s) :
    OnlyChanges [.ret, .test, .events, .notices, .counters] s (deliverReturns slots s) := by
  unfold deliverReturns
  exact ite_only ((each_only takeReturn_only _ _).wider) (ite_only ((each_only checkReturn_only _ _).wider) (.refl _ _))

theorem deliverFrame_only (u s) : OnlyChanges blockParts s (deliverFrame u s) := by
  have h1 : OnlyChanges blockParts s (deliverCell u.cell (deliverHeader u s)) :=
    (deliverHeader_only _ _).andThen (deliverCell_only _ _)
  unfold deliverFrame
  exact (ite_only (h1.andThen (takeAux_only _ _)) h1).andThen (deliverReturns_only _ _)

theorem takeUpstream_only (bytes s) : OnlyChanges blockParts s (takeUpstream bytes s) := by
  unfold takeUpstream
  exact ite_only (.refl _ _) (ite_only ((bump_only _ _).wider)
    (ite_only ((modRx_only _ _).andThen (deliverFrame_only _ _)) ((modRx_only _ _).andThen (bump_only _ _))))

/-! ### Time -/

theorem endOfTick_only (s : State) :
    OnlyChanges [.rx, .refWatch] s
      { s with rx := { s.rx with period := .empty, upValid := false }, refWatch := .armed } := by
  intro p hp; cases p <;> first | rfl | exact (hp (by decide)).elim

theorem referenceTick_only (s) : OnlyChanges blockParts s (referenceTick s) := by
  have h1 : OnlyChanges blockParts s (frameEvent (s.modPlan fun p => { p with lossTaken := false })) :=
    (modPlan_only _ _).andThen (frameEvent_only _)
  have h2 {v : State} {c : Prop} [Decidable c] (hv : OnlyChanges blockParts s v) :
      OnlyChanges blockParts s (if c then superviseTick v else v) := ite_only (hv.andThen (superviseTick_only _)) hv
  unfold referenceTick
  exact (((h2 h1).andThen (rs := blockParts) (each_only silenceTick_only _ _)).andThen (rs := blockParts)
    (tallyTick_only _)).andThen (endOfTick_only _)

theorem countTimers_only (s) : OnlyChanges [.plan, .link] s (countTimers s) :=
  (modPlan_only _ _).andThen (modTimers_only _ _)

/-- What a millisecond can change. -/
abbrev millisecondParts : List Part := [.refWatch, .link, .plan, .announce, .relayOut, .events, .notices, .counters]

theorem whenOut_only {timer : Timers → Option Nat} {f : State → State} (h : ∀ s, OnlyChanges ps s (f s)) (s) :
    OnlyChanges ps s (whenOut timer f s) := by
  unfold whenOut
  split
  · exact h _
  · exact .refl _ _

theorem millisecond_only (s) : OnlyChanges millisecondParts s (millisecond s) := by
  have h0 : OnlyChanges millisecondParts s (countTimers s) := (countTimers_only _).wider
  have h1 {v : State} {c : Prop} [Decidable c] (hv : OnlyChanges millisecondParts s v) :
      OnlyChanges millisecondParts s (if c then holdExpiry v else v) := ite_only (hv.andThen (holdExpiry_only _)) hv
  have h2 {v : State} {c : Prop} [Decidable c] (hv : OnlyChanges millisecondParts s v) :
      OnlyChanges millisecondParts s (if c then retryExpiry v else v) := ite_only (hv.andThen (retryExpiry_only _)) hv
  have h3 {v : State} {timer : Timers → Option Nat} {f : State → State} (hf : ∀ s, OnlyChanges dropParts s (f s))
      (hv : OnlyChanges millisecondParts s v) : OnlyChanges millisecondParts s (whenOut timer f v) :=
    hv.andThen (whenOut_only hf _)
  unfold millisecond
  exact (h3 (fun s => (stepUpExpiry_only s).wider) (h3 (fun s => (marginExpiry_only s).wider) (h3 answerExpiry_only
    (h3 offerExpiry_only (h3 measureExpiry_only (h2 (h1 h0))))))).andThen (referenceMs_only _)

theorem idle_only (s) : OnlyChanges millisecondParts s (idle s) := ite_only (.refl _ _) (millisecond_only _)

end Sys2Proof.Machine
end

