-- ==== Sys2Proof/Laws/Submit.lean ====
section
/-! SUPPORT. What a command row does, in one equation for each way in, so that no proof about a command unfolds the command
unit. -/

namespace Sys2Proof.Machine

variable {s : State} {tag : Byte} {c : Cmd}

/-- A head command that is taken: the command's own effect, and its response in the holding buffer. -/
theorem submit_head (h : s.pins.resetLow = false) (hh : s.port.holding = none) (hw : c.wellFormed = true) :
    submit .head tag c s =
      answerHead ((perform .head tag c s).1, (perform .head tag c s).2.map (responseOf c.opcode tag)) := by
  simp [submit, h, takeHeadCommand, hh, takeCommand, hw, permitted]

/-- A base command that is taken and permitted: the command's own effect, and its response at the tail of the base response
queue. -/
theorem submit_base (h : s.pins.resetLow = false) (hr : baseArrives c s = true) (hq : s.control.responses.length < 8)
    (hw : c.wellFormed = true) (hp : permitted .base c = true) :
    submit .base tag c s =
      answerBase ((perform .base tag c s).1, (perform .base tag c s).2.map (responseOf c.opcode tag)) := by
  simp [submit, h, hr, takeBaseCommand, Nat.not_le.mpr hq, takeCommand, hw, hp]

/-- A base command that Table 10-3 does not permit. -/
theorem submit_base_refused (h : s.pins.resetLow = false) (hr : baseArrives c s = true)
    (hq : s.control.responses.length < 8) (hw : c.wellFormed = true) (hp : permitted .base c = false) :
    submit .base tag c s = answerBase (s, some (responseOf c.opcode tag (refusal .notPermitted))) := by
  simp [submit, h, hr, takeBaseCommand, Nat.not_le.mpr hq, takeCommand, hw, hp]

/-- A base command arrives in every state that receives. -/
theorem baseArrives_of_receives (h : receives s = true) : baseArrives c s = true := by simp [baseArrives, h]

/-- A plan edit of the base link arrives in the frame period of a loss of the link (R63, R79). -/
theorem baseArrives_of_edit (h : isBaseEdit c = true) (hl : s.plan.lossTaken = true) : baseArrives c s = true := by
  simp [baseArrives, h, hl]

/-- A base command that does not arrive. -/
theorem submit_base_absent (h : s.pins.resetLow = false) (hr : baseArrives c s = false) : submit .base tag c s = s := by
  simp [submit, h, hr]

@[simp] theorem answerHead_some (r : Response) :
    answerHead (s, some r) = { s with port := { s.port with holding := some r } } := rfl

@[simp] theorem answerBase_some (r : Response) :
    answerBase (s, some r) = { s with control := { s.control with responses := s.control.responses ++ [r] } } := rfl

end Sys2Proof.Machine
end

