-- ==== Sys2Proof/Tests/Slice0.lean ====
section
/-! SUPPORT. Tests on fixed values: the checks of WellFormed, the tables and worked examples of the data book, one step of
each kind of command, and for every statement of Obligations.lean with hypotheses a concrete state that meets them. -/

set_option Elab.async false

namespace Sys2Proof.Tests

open Sys2Proof.Machine Sys2Proof.Claims

/-! ### Small states -/

/-- The state that a command leaves. -/
def after (c : Instr) (s : State) : Option State :=
  match exec c s with
  | .next t => some t
  | .fault _ => none
  | .refused _ => none

/-- Something of the state that a command leaves. -/
def see {α : Type} (c : Instr) (s : State) (f : State → α) : Option α := (after c s).map f

/-- The result and the data of the response in the holding buffer. -/
def said (s : State) : Option (ResultCode × List Byte) := s.port.holding.map fun r => (r.result, r.data)

/-- Reset, with select high. -/
def quiet : State := { State.reset with pins := { State.reset.pins with selectLow := false } }

/-- A link state, the link at a class under a ceiling. -/
def linked (state : LinkState) (k : RateClass) : State :=
  { quiet with link := { LinkCtl.reset with state := state, classInForce := k, ceiling := some .c2, timers := .stopped } }

/-- A lane of 512 samples a line, 16 lines a frame, one line a period, of no group. -/
def plain : Lane :=
  { Lane.reset with desc := { configured := true, w := 512, h := 16, m := 1, allotment := 40, group := none } }

/-- Lane 0 as given. -/
def lane0 (x : Lane) (s : State) : State := { s with lanes := { s.lanes with l0 := x } }

/-- An entry for lane 0. -/
def entry0 : Entry := { lane := .l0, share := 64, priority := 2, thinning := true, drain := false }

/-- The active plan has one entry, for lane 0. -/
def planned (carry : CarryState) (s : State) : State :=
  { s with
    plan := { s.plan with bank0 := { role := .active, epoch := 7, entries := [entry0] } },
    builder := { s.builder with runtimes := [{ credit := 0, carry := carry }] } }

/-- The edit hold, with a pending bank. -/
def holding (h : Hold) (es : List Entry) (s : State) : State :=
  { s with plan := { s.plan with hold := h, bank1 := { role := .pending, epoch := s.plan.bank0.epoch + 1, entries := es } } }

/-- Burst bytes with a right check: first byte, line, index, a valid count of 256, samples of code zero. -/
def burstBody (first : Byte) (line : Nat) (index : Byte) : List Byte :=
  [first] ++ bytes2 line ++ [index, 1, 0] ++ List.replicate 384 0

def goodBurst (first : Byte) (line : Nat) (index : Byte) : List Byte :=
  burstBody first line index ++ wordBytes (crc16 (burstBody first line index))

/-! ### WellFormed and the refusals -/

theorem test_a_burst_is_392_bytes :
    (Instr.tileBurst .l0 true (List.replicate 392 0)).wellFormed = true ∧
      (Instr.tileBurst .l0 true (List.replicate 391 0)).wellFormed = false := by decide +kernel

theorem test_a_named_kind_is_no_invalid_kind :
    (Instr.invalidTransaction (some 161) 0).wellFormed = false ∧ (Instr.invalidTransaction (some 178) 0).wellFormed = false ∧
      (Instr.invalidTransaction (some 162) 0).wellFormed = true := by decide

theorem test_relay_messages_are_1_to_44_bytes :
    (Instr.relaySend .head 0 []).wellFormed = false ∧ (Instr.relaySend .head 0 (List.replicate 45 0)).wellFormed = false ∧
      (Instr.relaySend .head 0 (List.replicate 44 0)).wellFormed = true := by decide

/-! ### Checks and formats: R180, Table 12-1, Table 12-7, R165 -/

/-- The digits 1 to 9 in ASCII. -/
def digits : List Byte := [49, 50, 51, 52, 53, 54, 55, 56, 57]

/-- The 16-bit generator preset to ones is the well-known check whose value over the nine digits is 29B1. -/
theorem test_crc16_of_the_digits : crc16 digits = 0x29B1 := by decide +kernel

/-- The frame check, most significant bit first and inverted at the end: FC891918 over the nine digits. -/
theorem test_crc32_of_the_digits : crc32 digits = 0xFC891918 := by decide +kernel

/-- R165: the frame of an empty buffer is 0, 0, 0, 0, 255. -/
theorem test_empty_response_frame : responseBytes emptyResponse = [0, 0, 0, 0, 255] := by decide

/-- Table 12-1: two samples in three bytes. -/
theorem test_pack_two_samples : packSamples [0xABC, 0x123] = [0xAB, 0xC1, 0x23] := by decide

/-- Table 12-1: frame 14, last tile, line 1079, tile 3, valid count 256. -/
theorem test_burst_header :
    (let b := burstOf ([0xE8, 0x04, 0x37, 3, 1, 0] ++ List.replicate 386 0)
     (b.pos, b.last, b.index, b.valid)) = (⟨14, 1079⟩, true, 3, 256) := by decide

/-- Table 12-9: opcode 3 with its ten argument bytes is LANE_SET 2, W 1920, H 1080, m 2, allotment 128, group A. -/
theorem test_decode_lane_set :
    Cmd.decode 3 [2, 1, 0x07, 0x80, 0x04, 0x38, 2, 0, 128, 1] = some (.laneSet 2 1 1920 1080 2 128 1) := by decide

/-- Table 12-9: GROUP_SET takes two arguments, and no command has opcode 35. -/
theorem test_decode_refuses : Cmd.decode 7 [1] = none ∧ Cmd.decode 35 [] = none := by decide

/-! ### Worked examples of the data book -/

/-- R3: W = 3840 has tpl 15 and W = 1920 has tpl 8. -/
theorem test_tiles_per_line :
    tilesPerLine { plain.desc with w := 3840 } = 15 ∧ tilesPerLine { plain.desc with w := 1920 } = 8 := by decide

/-- Table 3-2, cursor at board frame 14, line 1079. -/
theorem test_position_comparisons :
    [(14, 1079), (14, 500), (15, 0), (5, 0), (6, 0), (13, 1079)].map (fun p => judge ⟨p.1, p.2⟩ ⟨14, 1079⟩)
      = [.equal, .behind, .ahead, .ahead, .behind, .behind] := by decide

/-- The plan of Table 6-2. -/
def ladderPlan : List Entry :=
  [⟨.l0, 480, 0, false, false⟩, ⟨.l1, 128, 2, true, false⟩, ⟨.l2, 128, 2, true, false⟩, ⟨.l3, 64, 3, false, false⟩]

/-- Table 6-2 at class 4. -/
theorem test_ladder_at_class_4 : ladder ladderPlan 736 = ([.carried, .carried, .carried, .shed], 736) := by decide

/-- Table 6-2 at class 5. -/
theorem test_ladder_at_class_5 : ladder ladderPlan 352 = ([.carried, .shed, .shed, .shed], 480) := by decide

/-- Table 8-1: slots down and up, best class first. -/
theorem test_slots_of_the_classes :
    [RateClass.c1, .c2, .c3, .c4, .c5].map (fun k => (slotsDown k, slotsUp k))
      = [(120, 14), (96, 12), (72, 10), (48, 8), (24, 6)] := by decide

/-! ### One step of each kind of command -/

/-- R169. -/
theorem test_identify : see (.identify .head 5) quiet said = some (some (.done, [0x0C, 0xBC, 1])) := by decide

/-- R164: a second command finds the response unread. -/
theorem test_second_command_is_ignored :
    see (.identify .head 6) { quiet with port := { quiet.port with holding := some ⟨1, 5, .done, []⟩ } }
      (fun t => (t.port.ignored, t.port.holding.map (·.tag))) = some (true, some 5) := by decide

/-- R174: subject 2 after PART_RESET, and no response. -/
theorem test_part_reset :
    see (.partReset .head 5) quiet (fun t => (said t, t.events.queue)) = some (none, [⟨.resetDone, 0, 2, 0⟩]) := by decide

/-- R182: reset low releases the interrupt and asserts the idle hold. -/
theorem test_pin_reset : see .pinReset quiet (fun t => (interruptAsserted t, idleHold t)) = some (false, true) := by decide

/-- R148: with the carrier present the link measures when reset rises, and RESET_DONE carries subject 1. -/
theorem test_reset_release :
    see .resetRelease { State.blank with pins := { State.blank.pins with resetLow := true, carrier := true } }
      (fun t => (t.link.state, t.events.queue)) = some (.measure, [⟨.resetDone, 0, 1, 0⟩]) := by decide

/-- R4, Table 1-3: W 7680 has 30 tiles, above the allotment of 16. -/
theorem test_lane_set_range :
    see (.laneSet .head 0 1 1 7680 16 1 16 0) quiet said = some (some (.range, [])) := by decide

theorem test_lane_set :
    see (.laneSet .head 0 1 1 7680 4320 4 30 2) quiet (fun t => (said t, t.lanes.l1.desc)) =
      some (some (.done, []), ⟨true, 7680, 4320, 4, 30, some .b⟩) := by decide

theorem test_lane_start_unconfigured : see (.laneStart .head 0 0) quiet said = some (some (.state, [])) := by decide

theorem test_lane_start :
    see (.laneStart .head 0 0) (lane0 plain quiet) (fun t => (said t, t.lanes.l0.state)) =
      some (some (.done, []), .armed) := by decide

/-- R25, R31: the two tiles of the line in assembly return. -/
theorem test_lane_stop :
    see (.laneStop .head 0 0)
      (lane0 { plain with state := .running, assembly := .assembling ⟨0, 0⟩ 1,
                          queue := [⟨⟨0, 0⟩, [⟨0, [], false, false⟩], false, none, .assembling, 0⟩] }
        { quiet with poolFree := 1535 })
      (fun t => (t.lanes.l0.queue.length, t.poolFree, t.lanes.l0.state)) = some (0, 1536, .stopped) := by decide

theorem test_lane_get :
    (see (.laneGet .head 0 0) (lane0 plain quiet) said).join.map (fun r => r.2.take 13) =
      some [1, 2, 0, 0, 16, 1, 0, 40, 0, 2, 0, 32, 0] := by decide

/-- R52: the skew limit is clamped into 1 to 8; an unset cursor is sent as 255 and 65535. -/
theorem test_group_set : see (.groupSet .head 0 2 9) quiet said = some (some (.done, [8, 255, 255, 255, 0])) := by decide

/-- R66: bank 1 at epoch 1. -/
theorem test_plan_open : see (.planOpen .head 0) quiet said = some (some (.done, [1, 1, 0])) := by decide

/-- R69, Table 4-6: an entry for a lane that is not configured. -/
theorem test_plan_insert_unknown_lane :
    see (.planInsert .head 0 0 1 16 0 0 0) (holding (.held .head 5) [] quiet) (fun t => (said t, t.plan.hold)) =
      some (some (.unknownLane, []), .held .head 2000) := by decide

theorem test_plan_insert :
    see (.planInsert .head 0 0 0 64 2 1 0) (holding (.held .head 5) [] (lane0 plain quiet))
      (fun t => (said t, t.plan.bank1.entries)) = some (some (.done, [1]), [entry0]) := by decide

theorem test_plan_put :
    see (.planPut .head 0 0 0 80 0 0 1) (holding (.held .head 5) [entry0] (lane0 plain quiet))
      (fun t => t.plan.bank1.entries) = some [⟨.l0, 80, 0, false, true⟩] := by decide

theorem test_plan_remove :
    see (.planRemove .head 0 0) (holding (.held .head 5) [entry0] quiet) said = some (some (.done, [0])) := by decide

/-- R75: share 31 is below the demand 32 of 2 tiles a period. -/
theorem test_plan_commit_short_share :
    see (.planCommit .head 0) (holding (.held .head 5) [⟨.l0, 31, 0, false, false⟩] (lane0 plain quiet)) said =
      some (some (.shortShare, [0, 0, 31, 0, 32])) := by decide

/-- R78: outside UP the switch is due at once. -/
theorem test_plan_commit :
    see (.planCommit .head 0) (holding (.held .head 5) [entry0] (lane0 plain quiet)) (fun t => (said t, t.plan.due)) =
      some (some (.accepted, [1, 0]), some .uncounted) := by decide

theorem test_plan_abandon :
    see (.planAbandon .head 0) (holding (.held .head 5) [entry0] quiet) (fun t => (said t, t.plan.bank1)) =
      some (some (.done, []), .emptied) := by decide

/-- Table 12-13: bank 1, PENDING, epoch 1, one entry, HELD by the head, 2000 ms, next index 1, and the entry. -/
theorem test_plan_read :
    see (.planRead .head 0 1 0) (holding (.held .head 2000) [entry0] quiet) said =
      some (some (.done, [1, 1, 1, 1, 1, 1, 7, 208, 1, 0, 0, 0, 64, 2, 1, 0])) := by decide

theorem test_carry_read :
    see (.carryRead .head 0 0) (planned .thinned quiet) said =
      some (some (.done, [0, 7, 1, 5, 0, 0, 0, 1, 0, 0, 2, 0, 0, 0, 0])) := by decide

theorem test_link_status :
    see (.linkStatus .head 0) quiet said =
      some (some (.done, [1, 1, 5, 0, 0, 0, 0, 0, 0, 0, 0, 0, 15, 0, 0, 0, 0])) := by decide

theorem test_link_enable_off :
    see (.linkEnable .head 0 0) (linked .up .c3) (fun t => (t.link.state, t.link.dropCount, t.link.classInForce)) =
      some (.disabled, 0, .c3) := by decide

/-- R139: names it does not know are ignored. -/
theorem test_link_criteria :
    see (.linkCriteria .head 0 0xF5) quiet (fun t => (said t, t.link.criteria)) =
      some (some (.done, [5]), ⟨true, false, true, false⟩) := by decide

theorem test_link_retrain :
    see (.linkRetrain .head 0) (linked .up .c3) (fun t => (t.link.state, t.link.classInForce, t.link.timers.measure)) =
      some (.measure, .c5, some 400) := by decide

/-- R145: the class is clamped at the ceiling. -/
theorem test_class_request_at_the_ceiling :
    see (.classRequest .head 0 1) (linked .up .c2) said = some (some (.done, [])) := by decide

theorem test_class_request :
    see (.classRequest .head 0 2) (linked .up .c2) (fun t => (said t, t.link.proposal)) =
      some (some (.accepted, [3]), .proposing .c3) := by decide

theorem test_link_restart :
    see (.linkRestart .head 0) (linked .up .c2) (fun t => (t.link.state, t.link.lastCause, t.link.dropCount)) =
      some (.down, .restart, 1) := by decide

theorem test_relay_send :
    see (.relaySend .head 9 [1, 2]) (linked .up .c2) (fun t => t.control.relayOut) = some [⟨9, [1, 2]⟩] := by decide

theorem test_relay_read :
    see (.relayRead .head 0) { quiet with mailbox := .unacked ⟨7, [4]⟩ } said = some (some (.done, [7, 1, 4])) := by decide

theorem test_relay_ack :
    see (.relayAck .head 0) { quiet with mailbox := .unacked ⟨7, [4]⟩ } (fun t => t.mailbox) =
      some (.acked ⟨7, [4]⟩) := by decide

/-- Table 12-6: a record is kind, stamp, subject, detail. -/
theorem test_event_read :
    see (.eventRead .head 0) quiet (fun t => (said t, t.events.queue)) =
      some (some (.done, [1, 0, 1, 0, 0, 1, 0, 0]), []) := by decide

/-- R171: kinds that Table 10-6 does not give are ignored. -/
theorem test_event_mask :
    see (.eventMask .head 0 0xFFFFFF) quiet said = some (some (.done, [0xFF, 0xFF, 0xFE])) := by decide

theorem test_counters_clear :
    see (.countersClear .head 0 5) { quiet with counters := { quiet.counters with relayOverruns := ⟨9, false⟩ } }
      (fun t => t.counters.relayOverruns) = some ⟨0, true⟩ := by decide

theorem test_counters_read : see (.countersRead .head 0 5) quiet said = some (some (.done, [5, 0, 0])) := by decide

theorem test_sideline_set :
    see (.sidelineSet .head 0 1 4 2) quiet (fun t => (t.sides.s1.rate, t.sides.s1.parity)) =
      some (.r115200, .odd) := by decide

theorem test_sideline_status : see (.sidelineStatus .head 0 1) quiet said = some (some (.done, [2, 0, 0, 0, 0])) := by decide

theorem test_tally_read :
    see (.tallyRead .head 0) { quiet with tally := ⟨true, false, true, 32⟩ } said = some (some (.done, [5, 32])) := by decide

theorem test_test_start :
    see (.testStart .head 0 2 1 1) (linked .up .c2) (fun t => (t.link.state, t.link.classInForce, idleHold t)) =
      some (.test, .c2, true) := by decide

theorem test_test_stop :
    see (.testStop .head 0) (linked .test .c2) (fun t => (t.link.state, t.link.timers.retry)) =
      some (.down, .running 1000) := by decide

theorem test_test_read :
    see (.testRead .head 0 1) { quiet with test := ⟨.off, false, .wrap, .c1, 258, 3, 4⟩ } (fun t => (said t, t.test.checked)) =
      some (some (.done, [0, 2, 1, 1, 2, 0, 3, 0, 4]), 0) := by decide

/-- R175, R182: a change of PATTERN_OUT to PATTERN_LOOP asserts the idle hold, and frames are taken until the next frame
event. -/
theorem test_change_to_the_loop_waits_for_the_frame :
    see (.testStart .head 0 2 1 1) { (linked .test .c2) with test := ⟨.patternOut, false, .wrap, .c1, 258, 3, 4⟩ }
      (fun t => (t.test.mode, idleHold t, receives t)) = some (.patternLoop, true, true) := by decide

/-- R63, R79: a commit of the base that falls together with the loss of its hold finds it FREE. -/
theorem test_base_commit_after_a_loss :
    see (.planCommit .base 4) ((after .carrierFall (holding (.held .base 5) [entry0] (linked .up .c2))).getD quiet)
      (fun t => t.control.responses) = some [⟨13, 4, .noHold, []⟩] := by decide

/-- R177: with the modem idle for PATTERN_LOOP no base command arrives, a commit of the holder neither. -/
theorem test_no_base_commit_in_the_loop :
    see (.planCommit .base 4)
      { holding (.held .base 5) [entry0] (linked .test .c2) with test := ⟨.patternLoop, true, .wrap, .c1, 0, 0, 0⟩ }
      (fun t => (t.control.responses, t.plan.hold)) = some ([], .held .base 5) := by decide

/-- R7, R39, R48: the burst that opens the run completes its line of one tile and rejoins its group; LANE_RECOVER comes
last. -/
theorem test_recovery_is_raised_last :
    ((armedArrival .l0 ⟨⟨0, 0⟩, true, 0, 0, [], true⟩
      { (lane0 { plain with
            desc := { plain.desc with w := 256, group := some .a }, state := .armed, recovery := true } quiet) with
        pins := { quiet.pins with boardReady := ⟨true, true, true, true⟩ },
        release := { quiet.release with standing := ⟨some .lagging, none, none, none⟩ } }).events.queue.drop 1).map (·.kind)
      = [.groupRejoin, .laneRecover] := by decide

/-- R172: a notice that is lost brings the count of lost notices to its own half way. -/
theorem test_lost_notice_at_half_way :
    let s : State := { quiet with
      events := { EventUnit.reset with baseMask := 0xFFFFFE },
      control := { ControlQueues.reset with notices := List.replicate 8 (resetDone 1) },
      counters := { quiet.counters with
        relayOverruns := ⟨32767, true⟩, link := { quiet.counters.link with noticesLost := ⟨32767, true⟩ } } }
    ((s.bump .relayOverruns).counters.link.noticesLost, (s.bump .relayOverruns).events.queue.length)
      = (⟨32769, false⟩, 2) := by decide

/-- R116: the switch of an uncommitted link is taken at the tick, and the other bank is emptied. -/
theorem test_tick_takes_a_due_switch :
    see .referenceTick
      { (holding (.counting .head) [entry0] quiet) with
        plan := { (holding (.counting .head) [entry0] quiet).plan with due := some .uncounted } }
      (fun t => (t.plan.bank1.role, t.plan.bank0, t.plan.hold)) = some (.active, .emptied, .free) := by decide

/-- R80: no frame is built in DOWN. -/
theorem test_tick_in_down : see .referenceTick quiet (fun t => (t.builder.frameCount, t.lineOut)) = some (0, none) := by decide

theorem test_silence_faults :
    see (.laneSilenceExpiry .l0) (lane0 { plain with state := .running, silence := 7 } quiet) (fun t => t.lanes.l0.state) =
      some .faulted := by decide

theorem test_board_ready_fall :
    see (.boardReadyFall .l0) (lane0 { plain with state := .running } quiet) (fun t => t.events.queue.drop 1) =
      some [⟨.laneFault, 0, 0, 1⟩] := by decide

theorem test_pre_start_burst :
    see (.tileBurst .l0 true (goodBurst 0 1 0)) (lane0 { plain with state := .armed } quiet)
      (fun t => t.counters.lane.l0.preStartBursts.count) = some 1 := by decide +kernel

theorem test_hold_timer_expiry :
    see .holdTimerExpiry (holding (.held .base 1) [] quiet) (fun t => (t.plan.hold, t.events.queue.drop 1)) =
      some (.free, [⟨.holdExpired, 0, 2, 1⟩]) := by decide

theorem test_fourth_training_failure :
    see .offerTimerExpiry { (linked .offer .c5) with link := { (linked .offer .c5).link with attempts := 3 } }
      (fun t => (t.link.state, t.link.lastCause)) = some (.down, .trainingFailed) := by decide

theorem test_measurement_result :
    see (.measurementResult .c3) (linked .measure .c5) (fun t => (t.link.state, t.link.ceiling, t.link.timers.offer)) =
      some (.offer, some .c3, some 500) := by decide

theorem test_carrier_fall :
    see .carrierFall (linked .up .c2) (fun t => (t.link.state, t.link.lastCause, t.link.timers.retry)) =
      some (.down, .carrier, .running 1000) := by decide

theorem test_upstream_frame_of_a_wrong_length :
    see (.upstreamFrame []) (linked .up .c2) (fun t => (t.rx.period, t.counters.link.frameCheckFailures.count)) =
      some (.failed, 1) := by decide

/-- R163 to R165: IDENTIFY as a transaction: opcode 1, tag 7, length 0, check F7. -/
theorem test_command_transaction :
    see (.headCommandFrame [1, 7, 0, 0xF7] false) quiet (fun t => t.port.holding) =
      some (some ⟨1, 7, .done, [0x0C, 0xBC, 1]⟩) := by decide

theorem test_fetch :
    see (.fetch 5) quiet (fun t => t.port.dataOut) = some [0x40, 0, 0, 0, 0, 255] := by decide

theorem test_invalid_kind : see (.invalidTransaction (some 7) 0) quiet (fun t => t.port.frameError) = some true := by decide

/-- R157: even parity over an odd number of ones needs a parity bit of one. -/
theorem test_side_line_parity :
    see (.sidelineByteReceived .s0 7 false true)
      { quiet with sides := { quiet.sides with s0 := { quiet.sides.s0 with parity := .even } } }
      (fun t => t.sides.s0.inQueue) = some [⟨7, .parity⟩] := by decide

/-! ### States that meet the hypotheses of the statements

One theorem for each statement of Obligations.lean that has hypotheses: concrete states and operands that meet them, each
clause at the edge of its range. `basic` meets the hypotheses of a head command, `carried` those of a base command. -/

/-- A link that receives, with seven responses waiting. -/
def carried : State :=
  { (linked .offer .c5) with control := { ControlQueues.reset with responses := List.replicate 7 ⟨16, 0, .done, []⟩ } }

theorem ready_head (s : State) (h : s.pins.resetLow = false) (k : s.port.holding = none) : Ready .head s := ⟨h, k⟩

theorem ready_quiet : Ready .head quiet := ready_head quiet rfl rfl

theorem ready_carried : Ready .base carried := ⟨rfl, rfl, by decide⟩

/-- Reset held low. -/
def inReset : State := { State.blank with pins := { State.blank.pins with resetLow := true } }

theorem witness_StepRunsTheFrontCommand :
    { quiet with pending := [.referenceTick, .fetch 5] }.pending = .referenceTick :: [.fetch 5] := rfl

theorem witness_IdleIsAMillisecond :
    (inReset.pending = [] ∧ inReset.pins.resetLow = true) ∧ (quiet.pending = [] ∧ quiet.pins.resetLow = false) ∧
      (holding (.held .head 2) [] quiet).plan.hold = .held .head (0 + 2) ∧
      (holding (.held .base 1) [] quiet).plan.hold = .held .base 1 ∧ quiet.refWatch = .armed ∧
      { quiet with refWatch := .fired }.refWatch ≠ .armed := by decide

theorem witness_EveryWellFormedCommandCompletes :
    (Instr.tileBurst .l3 false (List.replicate 392 0)).wellFormed = true ∧
      (Instr.invalidTransaction none 0).wellFormed = true ∧ Instr.referenceTick.wellFormed = true ∧
      (List.replicate 391 (0 : Byte)).length ≠ 392 ∧ (List.replicate 393 (0 : Byte)).length ≠ 392 ∧
      ((161 : Byte) = 161 ∨ (161 : Byte) = 178) ∧ ((178 : Byte) = 161 ∨ (178 : Byte) = 178) := by decide +kernel

theorem witness_CommandsFramesCellsAndSamplesReadBack :
    ((Cmd.relaySend [1]).wellFormed = true ∧ (Cmd.relaySend (List.replicate 44 0)).wellFormed = true ∧
        (Cmd.laneSet 3 1 7680 4320 4 1536 2).wellFormed = true ∧ Cmd.decode 22 [9] = some (.relaySend [9])) ∧
      (0 : Byte) ≠ sumCheck [1, 7, 0] ∧
      (({ kind := 1, tag := 0, payload := List.replicate 44 0 } : Cell).payload.length ≤ 44) ∧
      (({ kind := 2, tag := 0, payload := List.replicate 42 0 } : Cell).payload.length ≤ 42) ∧
      (0 : Word16) ≠ crc16 (cellBody ⟨0, 0, []⟩) ∧ ([0xABC, 0x123] : List Sample).length % 2 = 0 := by decide +kernel

/-- The first bytes of a burst and of an upstream frame, with code zero after them. -/
def zeros (n : Nat) (first : List Byte) : List Byte := first ++ List.replicate (n - first.length) 0

/-- A last burst with a valid count. -/
def lastBurst (count : Nat) : List Byte := zeros 392 ([0x38, 0, 15, 15] ++ bytes2 count)

/-- An upstream frame with a class message and a selection, an auxiliary record that the side-line marked, and a return. -/
def fields (code named selecting k : Byte) : List Byte :=
  zeros 2414 (zeros 410 [0, 9, 1, 7, code, named, selecting, k, 0, 5] ++ zeros 400 [1, 65, 2] ++ [3, 0, 0, 3])

/-- A frame with a relay cell as long as a cell can be. -/
def fullFrame (kind : Byte) : Frame :=
  { header := { frameCount := 9, cls := .c5, activeEpoch := 1, planCountdown := 0, pendingEpoch := none, classCountdown := 0,
                classField := .none, training := none, overcommit := false, test := false, carry := List.replicate 24 none },
    control := ⟨kind, 0, List.replicate 44 0⟩, aux := ⟨List.replicate 4 ⟨0, .clean⟩, [], []⟩, slots := [.pad] }

theorem witness_FieldsStandInTheirBytes :
    (∀ n, n = 1 ∨ n = 255 → (lastBurst n).length = 392 ∧ (burstOf (lastBurst n)).last = true ∧ at2 (lastBurst n) 4 = n) ∧
    (at2 (lastBurst 0) 4 < 1 ∧ 255 < at2 (lastBurst 256) 4 ∧ (burstOf (zeros 392 [])).last = false) ∧
    (padSlot (cellBytes ⟨1, 6, List.replicate 44 0⟩)).length = 400 ∧
    cellOf (padSlot (cellBytes ⟨1, 6, List.replicate 44 0⟩)) ≠ none ∧
    (fields 1 5 1 5).length = 10 + 400 * slotsUp .c5 + 4 ∧ classNum .c5 = at1 (fields 1 5 1 5) 5 ∧
    at1 (fields 2 1 1 5) 4 = 2 ∧ at1 (fields 3 0 0 0) 4 = 3 ∧ at1 (fields 4 0 0 0) 4 = 4 ∧ at1 (fields 1 6 0 6) 5 = 6 ∧
    classNum .c1 = at1 (fields 0 0 1 1) 7 ∧ at1 (fields 0 0 1 1) 6 = 1 ∧ at1 (fields 0 0 2 1) 6 ≠ 1 ∧
    at1 (fields 0 0 1 6) 7 = 6 ∧ ((upFrameOf .c5 (fields 0 0 0 0)).aux.get .s0)[0]? = some ⟨65, .framing⟩ ∧
    (((upFrameOf .c5 (fields 0 0 0 0)).returns)[0]?).map (·.kind) = some 3 ∧
    (∀ kind, kind = 0 ∨ kind = 16 ∨ kind = 21 → (fullFrame kind).header.carry.length = 24 ∧ (fullFrame kind).control.payload.length ≤ 44 ∧
      ∀ i, ((fullFrame kind).aux.get i).length ≤ 4) ∧
    ([some CarryState.shed][0]? = some (some .shed) ∧ [(7 : Byte)][0]? = some 7) := by
  refine ⟨?_, by decide +kernel, by decide +kernel, by decide +kernel, by decide +kernel, by decide, by decide, by decide,
    by decide, by decide, by decide, by decide, by decide, by decide, by decide +kernel, by decide +kernel, ?_, by decide⟩
  · rintro n (rfl | rfl) <;> decide +kernel
  · rintro kind (rfl | rfl | rfl) <;> exact ⟨rfl, by decide, fun i => by cases i <;> decide⟩

/-- A lane that holds a partly sent line, a whole one and a line in assembly, its command still to come. -/
def filling (pending : List Instr) : State :=
  { lane0 { plain with state := .running, assembly := .assembling ⟨0, 0⟩ 1,
                       queue := [⟨⟨15, 14⟩, [⟨0, [], false, false⟩, ⟨1, [], false, false⟩], false, none, .released, 1⟩,
                         ⟨⟨15, 15⟩, [⟨0, [], false, false⟩], false, none, .released, 0⟩,
                         ⟨⟨0, 0⟩, [⟨0, [], false, false⟩], false, none, .assembling, 0⟩] }
      { quiet with poolFree := 1533 } with pending := pending }

theorem filling_keeps_the_pool : PoolConserved (filling [.laneStop .head 0 0]) := by
  refine ⟨fun l => ?_, by decide⟩
  cases l
  · exact ⟨by decide, by decide, by decide, by decide, _, rfl, by decide⟩
  all_goals exact ⟨by decide, by decide, by decide, by decide, rfl⟩

theorem filling_keeps_the_allotments : AllotmentsKept (filling [.laneStop .head 0 0]) := by
  refine ⟨fun l => ?_, by decide⟩
  cases l <;> decide

theorem witness_EveryStepKeepsThePoolAndAllotmentLaws :
    PoolConserved (filling [.laneStop .head 0 0]) ∧ AllotmentsKept (filling [.laneStop .head 0 0]) ∧
      ∃ t, step (filling [.laneStop .head 0 0]) = .next t :=
  ⟨filling_keeps_the_pool, filling_keeps_the_allotments, _, rfl⟩

/-- A pending bank under edit, at the epoch after the active one's. -/
def editing (o : Origin) : State := holding (.held o 5) [entry0] (lane0 plain (planned .carried (linked .up .c3)))

theorem editing_keeps_the_plan_law (o : Origin) : PlanLaw (editing o).plan :=
  ⟨⟨Nat.le_of_ble_eq_true rfl, List.nodup_singleton _⟩, ⟨Nat.le_of_ble_eq_true rfl, List.nodup_singleton _⟩, rfl,
    Nat.zero_le _, fun _ => rfl, rfl, rfl, rfl, rfl⟩

theorem witness_EveryStepKeepsThePlanAndCreditLaws :
    (PlanLaw { editing .head with pending := [.planCommit .head 0] }.plan ∧
        ShareLaw { editing .head with pending := [.planCommit .head 0] } ∧
        (∃ e, e ∈ bindingEntries { editing .head with pending := [.planCommit .head 0] }) ∧
        ∃ t, step { editing .head with pending := [.planCommit .head 0] } = .next t) ∧
      BuilderLaw { editing .head with pending := [.referenceTick] } ∧
      ∃ t, step { editing .head with pending := [.referenceTick] } = .next t :=
  ⟨⟨editing_keeps_the_plan_law .head, by unfold ShareLaw; decide, ⟨entry0, by decide⟩, _, rfl⟩,
    .cons ⟨by decide, by decide⟩ .nil, _, rfl⟩

theorem witness_EveryStepKeepsTheClassAndResetLaws :
    (ClassLaw { editing .head with pending := [.classRequest .head 0 1] } ∧
        ∃ t, step { editing .head with pending := [.classRequest .head 0 1] } = .next t) ∧
      ResetLaw { inReset with pending := [.referenceTick] } ∧
      ∃ t, step { inReset with pending := [.referenceTick] } = .next t :=
  ⟨⟨⟨(by decide : (2 : Nat) ≤ 3), by decide, by rintro k ⟨⟩, by rintro k ⟨⟩⟩, _, rfl⟩, fun _ => rfl, _, rfl⟩

/-- Relay overruns at the last count before saturation, eight notices waiting, a relay message to come. -/
def crowded : State :=
  { carried with
    pending := [.referenceTick],
    control := { carried.control with notices := List.replicate 8 (resetDone 1) },
    counters := { carried.counters with link := { carried.counters.link with framesMissing := ⟨65535, false⟩ } } }

theorem crowded_counters : CountersBounded crowded := fun id => by
  cases id with
  | lane l c => cases l <;> cases c <;> decide
  | link c => cases c <;> decide
  | relayOverruns => decide
  | side i c => cases i <;> cases c <;> decide

theorem witness_EveryStepKeepsTheCounterAndQueueLaws :
    CountersBounded crowded ∧ QueuesBounded crowded ∧ ∃ t, step crowded = .next t :=
  ⟨crowded_counters,
    ⟨by decide, by decide, by decide, by decide, by decide, by decide, by decide,
      fun i => by cases i <;> decide, by decide, by decide⟩, _, rfl⟩

theorem witness_ResetsStartThePart :
    inReset.pins.resetLow = true ∧ quiet.pins.resetLow = false ∧ Ready .head quiet := ⟨rfl, rfl, ready_quiet⟩

/-- The link is down, by a loss in this frame period. -/
def justLost : State := { quiet with plan := { quiet.plan with lossTaken := true } }

theorem witness_RefusedAndLostCommandsChangeNothing :
    (headOnly (.relaySend [1]) = true ∧ (Cmd.relaySend [1]).wellFormed = true ∧ Ready .base carried) ∧
      inReset.pins.resetLow = true ∧
      { quiet with port := { quiet.port with holding := some emptyResponse } }.port.holding ≠ none ∧
      (receives quiet = false ∧ isEdit .planOpen = false ∧ quiet.plan.lossTaken = false) ∧
      (receives carried = true ∧ 8 ≤ (⟨16, 0, .done, []⟩ :: carried.control.responses).length) ∧
      (isEdit .planCommit = true ∧ justLost.plan.lossTaken = true) :=
  ⟨⟨rfl, rfl, ready_carried⟩, rfl, by decide, by decide, by decide, by decide⟩

theorem witness_UnlistedArgumentsAreRefused :
    Ready .head quiet ∧ Ready .base carried ∧ 44 < (List.replicate 45 (0 : Byte)).length ∧ 3 < (4 : Byte).toNat ∧
      1 < (2 : Byte).toNat ∧ 2 < (3 : Byte).toNat ∧ ((0 : Byte) ≠ 1 ∧ (0 : Byte) ≠ 2) ∧ 23 < (24 : Byte).toNat ∧
      8 < (9 : Byte).toNat ∧ 4 < (5 : Byte).toNat ∧ 5 < (6 : Byte).toNat := ⟨ready_quiet, ready_carried, by decide⟩

theorem witness_IdentifyLinkStatusAndLaneGetAnswer :
    Ready .head quiet ∧ Ready .base carried ∧ 3 < (4 : Byte).toNat ∧ tiles plain.desc < 256 ∧
      16 * tiles plain.desc * plain.desc.m < 65536 := ⟨ready_quiet, ready_carried, by decide⟩

theorem reset_keeps_the_plan_law : PlanLaw State.reset.plan :=
  ⟨⟨Nat.zero_le _, List.nodup_nil⟩, ⟨Nat.zero_le _, List.nodup_nil⟩, rfl, Nat.zero_le _, fun _ => rfl, rfl, rfl, rfl⟩

theorem witness_PlanReadAndCarryReadAnswer :
    Ready .head quiet ∧ Ready .base carried ∧ 1 < (2 : Byte).toNat ∧ 23 < (24 : Byte).toNat ∧ (23 : Byte).toNat ≤ 23 ∧
      PlanLaw State.reset.plan ∧ (bankGet State.reset.plan .b1).role = .free :=
  ⟨ready_quiet, ready_carried, by decide, by decide, by decide, reset_keeps_the_plan_law, rfl⟩

theorem witness_SideLineAndTallyCommands : Ready .head quiet ∧ Ready .base carried := ⟨ready_quiet, ready_carried⟩

/-! Lanes and groups. -/

/-- The largest line that Table 1-3 allows, and one with a tile more than its allotment. -/
def widest : Descriptor := descriptor true 7680 4320 4 30 none
def tooWide : Descriptor := descriptor true 7680 4320 4 29 none

/-- Lanes 0 and 1 configured in group A, lane 0 with 1506 of the pool. -/
def grouped : State :=
  { quiet with lanes := { quiet.lanes with
      l0 := { plain with desc := { plain.desc with allotment := 1506, group := some .a } } } }

theorem witness_LaneSetChecksAndReplaces :
    (Ready .head grouped ∧ (grouped.lane .l1).state = .stopped ∧ InRange widest ∧ SumFits grouped .l1 widest ∧
        GroupFits grouped .l1 widest ∧ SharesFit grouped .l1 widest) ∧
      (∀ e, Binds grouped e → e.lane ≠ .l1) ∧
      (filling []).lanes.l0.state ≠ .stopped ∧
      (∃ e, Binds (planned .carried quiet) e ∧ e.lane = .l0) ∧ ¬ InRange tooWide ∧
      ¬ SumFits grouped .l1 { widest with allotment := 31 } ∧
      (SumFits grouped .l1 { widest with group := some .a } ∧ ¬ GroupFits grouped .l1 { widest with group := some .a }) ∧
      (InRange widest ∧ SumFits (planned .carried quiet) .l0 widest ∧ GroupFits (planned .carried quiet) .l0 widest ∧
        ¬ SharesFit (planned .carried quiet) .l0 widest) ∧
      (groupNamed (grouped.lane .l1).desc = groupNamed widest ∧ (grouped.lane .l1).queue = [] ∧
        groupNamed (grouped.lane .l0).desc ≠ groupNamed widest ∧ groupNamed (grouped.lane .l1).desc ≠ some .a ∧
        groupNamed { plain.desc with group := some .b } = some .b) := by
  have binds : ∀ e, Binds grouped e → False := by
    rintro e (h | ⟨⟨o, h⟩, -⟩)
    · exact absurd h (by decide +revert)
    · exact nomatch h
  refine ⟨⟨ready_head _ rfl rfl, rfl, by unfold InRange; decide, by unfold SumFits; decide, by rintro g k ⟨⟩,
      fun e h => (binds e h).elim⟩, fun e h => (binds e h).elim, by decide, ⟨entry0, .inl (by decide), rfl⟩,
    by unfold InRange; decide, by unfold SumFits; decide, ⟨by unfold SumFits; decide, ?_⟩,
    ⟨by unfold InRange; decide, by unfold SumFits; decide, by rintro g k ⟨⟩, ?_⟩, by decide⟩
  · intro h
    exact absurd (h .a .l0 rfl (by decide) rfl rfl) (by decide)
  · intro h
    exact absurd (h entry0 (.inl (by decide)) rfl) (by decide)

theorem witness_LaneStartAndLaneStop :
    Ready .head (lane0 plain quiet) ∧
      ((lane0 plain quiet).lane .l0).state = .stopped ∧ ((lane0 plain quiet).lane .l0).desc.configured = true ∧
      ((lane0 plain quiet).lane .l0).desc.group = none ∧ (quiet.lane .l0).desc.configured = false ∧
      ((filling []).lane .l0).state ≠ .stopped ∧ groupNamed ((filling []).lane .l0).desc = none ∧ 3 < (4 : Byte).toNat ∧
      groupNamed { plain.desc with group := some .a } = some .a := ⟨ready_head _ rfl rfl, by decide⟩

/-- A COMPLETE line of one tile. -/
def waiting (pos : Position) : LineRecord := ⟨pos, [⟨0, [], false, false⟩], false, none, .complete, 0⟩

/-- A member of group A. -/
def member (state : LaneState) (queue : List LineRecord) : Lane :=
  { plain with desc := { plain.desc with group := some .a }, state := state, queue := queue }

/-- Lanes 0 and 1 in group A at a cursor, carried in UP. -/
def pair (cursor : Option Position) (skew : Nat) (x y : Lane) (a b : Standing) : State :=
  { linked .up .c2 with
    lanes := { quiet.lanes with l0 := x, l1 := y },
    release := { groups := ⟨⟨cursor, skew⟩, ⟨none, 4⟩⟩, standing := ⟨some a, some b, none, none⟩ },
    plan := { quiet.plan with bank0 := { role := .active, epoch := 0, entries := [entry0, { entry0 with lane := .l1 }] } },
    builder := { quiet.builder with runtimes := [⟨0, .carried⟩, ⟨0, .carried⟩] } }

/-- Two lanes of group A in step, each with its line at the cursor. -/
def inStep : State :=
  pair (some ⟨0, 15⟩) 4 (member .running [waiting ⟨0, 15⟩]) (member .running [waiting ⟨0, 15⟩]) .inStep .inStep

theorem witness_GroupsReleaseTogether :
    (Ready .head quiet ∧ (0 : Byte).toNat = 0 ∧ 8 < (9 : Byte).toNat) ∧ members inStep .a = [.l0, .l1] ∧
      ((inStep.lane .l0).state = .running ∧ (inStep.lane .l1).state = .running ∧ inStep.standing .l0 = some .inStep ∧
        inStep.standing .l1 = some .inStep) ∧
      (inStep.group .a).cursor = some ⟨0, 15⟩ ∧ inStep.link.state = .up ∧ carryOf inStep .l0 = some .carried ∧
      carryOf inStep .l1 = some .carried ∧
      (inStep.lane .l0).queue = [⟨⟨0, 15⟩, [⟨0, [], false, false⟩], false, none, .complete, 0⟩] ∧
      (inStep.lane .l1).queue = [⟨⟨0, 15⟩, [⟨0, [], false, false⟩], false, none, .complete, 0⟩] :=
  ⟨⟨ready_quiet, by decide⟩, by decide⟩

/-! Plan commands. -/

theorem witness_HoldChecksComeFirst :
    (EditReady .base justLost ∧ justLost.plan.hold = .free) ∧ EditReady .head quiet ∧
      (editing .base).plan.hold = .held .base 5 ∧ Origin.base ≠ .head ∧
      (holding (.counting .head) [] quiet).plan.hold = .counting .head ∧ isEdit .planAbandon = true ∧
      (EditReady .base (editing .base) ∧ Carrying (editing .base).link.state) ∧
      Announced { editing .base with plan := { (editing .base).plan with hold := .counting .base, countdown := 1 } } :=
  ⟨⟨⟨rfl, .inr rfl, by decide⟩, rfl⟩, ⟨rfl, rfl⟩, rfl, by decide, rfl, rfl,
    ⟨⟨rfl, .inl rfl, by decide⟩, .inr (.inr (.inr rfl))⟩, .inl (by decide)⟩

theorem witness_PlanOpenAndPlanAbandon :
    (Ready .head quiet ∧ quiet.plan.hold = .free) ∧ Ready .head (editing .head) ∧
      (editing .head).plan.hold = .held .head 5 := ⟨⟨ready_quiet, rfl⟩, ready_head _ rfl rfl, rfl⟩

/-- A full pending bank. -/
def full : State := holding (.held .head 5) (List.replicate 24 entry0) quiet

theorem witness_PlanEditsCheckAndChangeThePendingBank :
    (Ready .head (editing .head) ∧ (editing .head).plan.hold = .held .head 5) ∧
      (0 < (pendingBank (editing .head)).entries.length ∧ (16 ≤ entry0.share ∧ entry0.share ≤ 1920) ∧
        ((editing .head).lane entry0.lane).desc.configured = true) ∧
      (∀ (j : Nat) (f : Entry), j ≠ 0 → (pendingBank (editing .head)).entries[j]? = some f → f.lane ≠ .l0) ∧
      (∀ f ∈ (pendingBank (editing .head)).entries, f.lane ≠ .l3) ∧
      (1 ≤ (1 : Byte).toNat ∧ (pendingBank (editing .head)).entries.length < (2 : Byte).toNat) ∧
      24 ≤ (pendingBank full).entries.length ∧
      (3 < (4 : Byte).toNat ∧ (15 : Word16).toNat < 16 ∧ 1920 < (1921 : Word16).toNat ∧ 1 < (2 : Byte).toNat) ∧
      (quiet.lane .l3).desc.configured = false ∧ (∃ f ∈ (pendingBank (editing .head)).entries, f.lane = .l0) := by
  refine ⟨⟨ready_head _ rfl rfl, rfl⟩, by decide, ?_, by decide, by decide, by decide, by decide, by decide, by decide⟩
  rintro (_ | j) f h g
  · exact absurd rfl h
  · exact nomatch g

/-- A pending bank of one entry, at a share and a priority, in a state of the link. -/
def proposal (state : LinkState) (share : Nat) (priority : Fin 4) : State :=
  holding (.held .head 5) [{ entry0 with share := share, priority := priority }]
    (lane0 plain (planned .carried (linked state .c5)))

theorem proposal_keeps_the_plan_law (state : LinkState) (share : Nat) (priority : Fin 4) :
    PlanLaw (proposal state share priority).plan :=
  ⟨⟨Nat.le_of_ble_eq_true rfl, List.nodup_singleton _⟩, ⟨Nat.le_of_ble_eq_true rfl, List.nodup_singleton _⟩, rfl,
    Nat.zero_le _, fun _ => rfl, rfl, rfl, rfl, rfl⟩

theorem witness_PlanCommitChecksAndStartsTheSwitch :
    (Ready .head (proposal .up 352 0) ∧ (proposal .up 352 0).plan.hold = .held .head 5 ∧
        PlanLaw (proposal .up 352 0).plan ∧ Commits (proposal .up 352 0) (checkClass (proposal .up 352 0))) ∧
      Commits (proposal .down 1888 0) (checkClass (proposal .down 1888 0)) ∧
      (pendingBank (holding (.held .head 5) [] quiet)).entries = [] ∧
      ((quiet.lane .l0).desc.configured = false) ∧
      31 < 16 * tiles ((proposal .up 31 0).lane .l0).desc * ((proposal .up 31 0).lane .l0).desc.m ∧
      16 * (slotsDown (checkClass (proposal .up 353 0)) - 2) <
        (((pendingBank (proposal .up 353 0)).entries.filter fun e => e.priority == 0).map (·.share)).sum := by
  refine ⟨⟨ready_head _ rfl rfl, rfl, proposal_keeps_the_plan_law _ _ _, ?_⟩, ?_, rfl, rfl, by decide, by decide⟩
  · exact ⟨by decide, by decide, by decide, by decide⟩
  · exact ⟨by decide, by decide, by decide, by decide⟩

/-! Link commands. -/

theorem witness_LinkEnableSwitchesTheLink :
    (Ready .head quiet ∧ quiet.link.state ≠ .disabled) ∧ (linked .disabled .c5).link.state = .disabled :=
  ⟨⟨ready_quiet, by decide⟩, rfl⟩

theorem witness_LinkCriteriaRetrainAndClassRequest :
    (Ready .head quiet ∧ (linked .test .c5).link.state = .test ∧
        (quiet.link.state = .down ∧ quiet.pins.carrier = false) ∧ Carrying (linked .offer .c5).link.state) ∧
      quiet.link.state ≠ .up ∧
      (Ready .base (linked .up .c3) ∧ (linked .up .c3).link.state = .up ∧ (linked .up .c3).link.proposal = .idle) ∧
      (linked .up .c5).link.classInForce = .c5 ∧ classNum .c4 = classNum (linked .up .c3).link.classInForce + 1 ∧
      LinkCtl.reset.ceiling = none ∧ (linked .up .c3).link.ceiling = some .c2 ∧
      classNum (linked .up .c2).link.classInForce ≤ classNum .c2 ∧
      (classNum .c2 < classNum (linked .up .c3).link.classInForce ∧
        classNum .c2 + 1 = classNum (linked .up .c3).link.classInForce) :=
  ⟨⟨ready_quiet, rfl, ⟨rfl, rfl⟩, .inr (.inl rfl)⟩, by decide, ⟨⟨rfl, rfl, by decide⟩, rfl, rfl⟩, by decide⟩

theorem witness_LinkRestartClearsEveryBlock :
    Ready .head (filling []) ∧ Ready .base carried ∧ Carrying carried.link.state ∧ ¬ Carrying quiet.link.state ∧
      ((filling []).lane .l0).state ≠ .stopped ∧ LaneId.l1 ∈ members inStep .a ∧
      ∀ l, ((filling []).lane l).state = .stopped → ((filling []).lane l).queue = [] :=
  ⟨ready_head _ rfl rfl, ready_carried, .inr (.inl rfl), by unfold Carrying; decide, by decide, by decide,
    fun l => by cases l <;> decide⟩

theorem witness_RelayMessagesAndTheMailbox :
    (Ready .head quiet ∧ quiet.link.state ≠ .up ∧ quiet.mailbox = .empty) ∧
      (1 ≤ (List.replicate 44 (0 : Byte)).length ∧ (List.replicate 44 (0 : Byte)).length ≤ 44) ∧
      (Ready .head (linked .up .c2) ∧ (linked .up .c2).link.state = .up ∧
        (linked .up .c2).control.relayOut.length < 4) ∧
      4 ≤ (List.replicate 4 (⟨0, [1]⟩ : RelayMessage)).length ∧
      { quiet with mailbox := .unacked ⟨7, [4]⟩ }.mailbox = .unacked ⟨7, [4]⟩ ∧
      { quiet with mailbox := .acked ⟨7, [4]⟩ }.mailbox = .acked ⟨7, [4]⟩ ∧
      (quiet.counter .relayOverruns).count < 32767 ∧ quiet.control.notices.length < 8 :=
  ⟨⟨ready_quiet, by decide, rfl⟩, by decide, ⟨ready_head _ rfl rfl, rfl, by decide⟩, by decide, rfl, rfl, by decide,
    by decide⟩

theorem witness_TestCommands :
    Ready .head quiet ∧ TestMode.patternLoop ≠ .off ∧ (linked .disabled .c5).link.state = .disabled ∧
      (linked .test .c5).link.state = .test ∧ (quiet.link.state ≠ .disabled ∧ quiet.link.state ≠ .test) ∧
      ¬ Carrying quiet.link.state ∧ Carrying (linked .up .c2).link.state :=
  ⟨ready_quiet, by decide, rfl, rfl, by decide, by unfold Carrying; decide, .inr (.inr (.inr rfl))⟩

/-! Bursts and boards. -/

theorem burst_body_length (first index : Byte) (line : Nat) : (burstBody first line index).length = 390 := by
  simp [burstBody, bytes2, wordBytes, -List.reduceReplicate]

theorem good_burst_length (first index : Byte) (line : Nat) : (goodBurst first line index).length = 392 := by
  rw [goodBurst, List.length_append, burst_body_length, wordBytes]
  rfl

theorem join_wordBytes (w : Word16) : joinBytes (highByte w) (lowByte w) = w := by
  unfold joinBytes highByte lowByte
  ext i hi
  rw [BitVec.getElem_append]
  split
  · simp
    rfl
  · have h : 8 + (i - 8) = i := by omega
    simp [h]
    rfl

theorem burst_check (body : List Byte) (w : Word16) (h : body.length = 390) :
    (burstOf (body ++ wordBytes w)).ok = (crc16 body == w) := by
  have word : wordAt (body ++ wordBytes w) 390 = w := by
    rw [← join_wordBytes w]
    simp [wordAt, byteAt, h, wordBytes, join_wordBytes]
  rw [burstOf, List.take_left' h, word]

theorem good_burst_ok (first index : Byte) (line : Nat) : (burstOf (goodBurst first line index)).ok = true :=
  (burst_check _ _ (burst_body_length _ _ _)).trans (beq_self_eq_true _)

/-- The same burst with a wrong check. -/
def badBurst : List Byte := burstBody 0 0 0 ++ wordBytes (crc16 (burstBody 0 0 0) + 1)

theorem bad_burst_length : badBurst.length = 392 := by
  rw [badBurst, List.length_append, burst_body_length, wordBytes]
  rfl

theorem bad_burst_fails : (burstOf badBurst).ok = false := by
  rw [badBurst, burst_check _ _ (burst_body_length _ _ _), beq_eq_false_iff_ne]
  intro h
  generalize crc16 (burstBody 0 0 0) = w at h
  bv_omega

/-- A lane of group none in a state, with a drop mark of none and an allotment of 40. -/
def runs (state : LaneState) : State := lane0 { plain with state := state } (linked .up .c2)

theorem witness_BurstsOutsideARunAreCounted :
    (goodBurst 0 1 0).length = 392 ∧ quiet.pins.resetLow = false ∧ (quiet.lane .l0).state = .stopped ∧
      (((runs .armed).lane .l0).state = .armed ∧ (burstOf (goodBurst 0 1 0)).pos.line ≠ 0) ∧
      (((runs .faulted).lane .l0).state = .faulted ∧ ((runs .faulted).lane .l0).desc.group = none ∧
        (burstOf (goodBurst 0 0 1)).index ≠ 0) := ⟨good_burst_length _ _ _, by decide +kernel⟩

/-- A running lane with a line of `n` tiles in assembly after a released line. -/
def assembling (n allotment : Nat) : State :=
  lane0 { plain with
      desc := { plain.desc with allotment := allotment }, state := .running, assembly := .assembling ⟨0, 15⟩ n,
      queue := [⟨⟨0, 14⟩, [⟨0, [], false, false⟩], false, none, .released, 0⟩,
        ⟨⟨0, 15⟩, List.replicate n ⟨0, [], false, false⟩, false, none, .assembling, 0⟩] }
    (planned .carried (linked .up .c2))

theorem witness_TilesOpenAndJoinTheirLine :
    (goodBurst 0 0 0).length = 392 ∧
      (let x := (runs .armed).lane .l0
       let b := burstOf (goodBurst 0 0 0)
       x.state = .armed ∧ x.desc.group = none ∧ x.recovery = false ∧ x.assembly = .betweenLines ∧ x.lastLine = none ∧
         x.dropMark = none ∧ b.pos.line = 0 ∧ b.index = 0 ∧ b.last = false ∧ 0 < x.desc.h ∧ 2 ≤ tiles x.desc ∧
         held (runs .armed) .l0 < x.desc.allotment ∧ 0 < (runs .armed).poolFree) ∧
      (let s := assembling 0 2
       let x := s.lane .l0
       let b := burstOf (goodBurst 0 15 0)
       x.state = .running ∧ x.assembly = .assembling b.pos b.index ∧ x.dropMark = none ∧ b.last = false ∧
         b.pos.line < x.desc.h ∧ b.index + 1 < tiles x.desc ∧ held s .l0 < x.desc.allotment ∧ 0 < s.poolFree) ∧
      ((assembling 0 1).lane .l0).desc.allotment ≤ held (assembling 0 1) .l0 ∧
      (burstOf (goodBurst 0 0 0)).ok = true ∧ badBurst.length = 392 ∧ (burstOf badBurst).ok = false :=
  ⟨good_burst_length _ _ _, by decide +kernel, by decide +kernel, by decide, good_burst_ok _ _ _, bad_burst_length, bad_burst_fails⟩

theorem witness_ACompleteLineIsReleasedOrWaits :
    (goodBurst 0 15 1).length = 392 ∧ (burstOf (goodBurst 0 15 1)).ok = true ∧
      (let s := assembling 1 3
       let x := s.lane .l0
       let b := burstOf (goodBurst 0 15 1)
       x.state = .running ∧ x.desc.group = none ∧ x.assembly = .assembling b.pos b.index ∧ x.dropMark = none ∧
         b.pos.line < x.desc.h ∧ b.index + 1 = tiles x.desc ∧ held s .l0 < x.desc.allotment ∧ 0 < s.poolFree ∧
         s.link.state = .up ∧ carryOf s .l0 = some .carried) ∧
      (∀ y ∈ ((assembling 1 3).lane .l0).queue.take 1, y.state = .released) ∧
      (carryOf (planned .thinned (linked .up .c2)) .l0 = some .thinned ∧ (burstOf (goodBurst 0 15 1)).pos.line % 2 = 1 ∧
        (burstOf (goodBurst 0 14 1)).pos.line % 2 = 0) ∧
      carryOf (planned .shed (linked .up .c2)) .l0 = some .shed ∧ carryOf quiet .l0 = none ∧
      ((member .running []).desc.configured = true ∧ (member .running []).desc.group = some .a) :=
  ⟨good_burst_length _ _ _, good_burst_ok _ _ _, by decide +kernel, by decide, by decide +kernel, by decide, by decide,
    by decide⟩

/-- A running lane between lines, with a last line and a drop mark. -/
def screening (last drop : Option Position) : State :=
  lane0 { plain with state := .running, lastLine := last, dropMark := drop } (linked .up .c2)

theorem witness_BurstsAreScreenedAndGapsAreCounted :
    ((goodBurst 0 15 1).length = 392 ∧ quiet.pins.resetLow = false) ∧
      (((runs .running).lane .l0).state = .running ∧ tiles plain.desc ≤ (burstOf (goodBurst 0 15 2)).index ∧
        plain.desc.h ≤ (burstOf (goodBurst 0 16 0)).pos.line) ∧
      ((burstOf (goodBurst 0 15 1)).index < tiles plain.desc ∧ (burstOf (goodBurst 0 15 1)).pos.line < plain.desc.h ∧
        ((screening none (some ⟨0, 15⟩)).lane .l0).dropMark = some (burstOf (goodBurst 0 15 1)).pos) ∧
      (((assembling 1 3).lane .l0).assembly = .assembling (burstOf (goodBurst 0 15 0)).pos 1 ∧
        (burstOf (goodBurst 0 15 0)).index < 1 ∧
        ((assembling 1 3).lane .l0).dropMark ≠ some (burstOf (goodBurst 0 15 0)).pos) ∧
      (((screening (some ⟨15, 15⟩) none).lane .l0).assembly = .betweenLines ∧
        Follows plain.desc.h ⟨15, 15⟩ (burstOf (goodBurst 0 0 0)).pos) ∧
      ¬ Follows plain.desc.h ⟨0, 14⟩ (burstOf (goodBurst 0 0 0)).pos ∧
      (((runs .armed).lane .l0).state = .armed ∧ ((runs .armed).lane .l0).recovery = false ∧
        { plain with recovery := true }.recovery = true ∧ (burstOf (goodBurst 0 0 0)).pos.line = 0 ∧
        (burstOf (goodBurst 0 0 0)).index = 0) ∧
      ((runs .faulted).lane .l0).state = .faulted := by
  refine ⟨⟨good_burst_length _ _ _, rfl⟩, by decide +kernel, by decide +kernel, by decide +kernel, ⟨rfl, .inr ?_⟩, ?_,
    by decide +kernel, rfl⟩
  · decide +kernel
  · unfold Follows
    decide +kernel

theorem witness_MissingTilesAreFilled :
    ((goodBurst 8 15 0).length = 392 ∧ quiet.pins.resetLow = false) ∧
      (let x := (assembling 0 3).lane .l0
       x.state = .running ∧ x.assembly = .assembling ⟨0, 15⟩ 0 ∧ x.dropMark = none ∧
         x.queue = x.queue.take 1 ++ [⟨⟨0, 15⟩, [], false, none, .assembling, 0⟩]) ∧
      (room (assembling 0 3) .l0 = 2 ∧ room (assembling 0 2) .l0 = 1) ∧
      (let b := burstOf (goodBurst 0 15 0)
       b.pos = ⟨0, 15⟩ ∧ b.index = 0 ∧ b.last = false ∧ b.index + 1 ≠ tiles plain.desc) ∧
      (let b := burstOf (goodBurst 0 15 1)
       b.pos = ⟨0, 15⟩ ∧ b.index = 1 ∧ b.index + 1 = tiles plain.desc) ∧
      (let b := burstOf (goodBurst 8 15 0)
       b.pos = ⟨0, 15⟩ ∧ b.index = 0 ∧ b.last = true ∧ (fillers (b.index + 1) (tiles plain.desc)).length = 1) ∧
      (burstOf (goodBurst 0 0 0)).pos ≠ ⟨0, 15⟩ ∧ tiles plain.desc - 0 = 2 :=
  ⟨⟨good_burst_length _ _ _, rfl⟩, by decide, by decide, by decide +kernel, by decide +kernel, by decide +kernel,
    by decide +kernel, by decide⟩

theorem witness_ALostBoardFaultsTheLane :
    quiet.pins.resetLow = false ∧ (quiet.lane .l0).state ≠ .running ∧
      (((runs .running).lane .l0).state = .running ∧ ((runs .running).lane .l0).silence < 7 ∧
        groupNamed ((runs .running).lane .l0).desc = none ∧ ((runs .running).lane .l0).assembly = .betweenLines) ∧
      7 ≤ { plain with silence := 7 }.silence ∧
      ((inStep.lane .l0).state = .running ∧ groupNamed (inStep.lane .l0).desc = some .a ∧
        (inStep.lane .l0).assembly = .betweenLines) ∧
      (((assembling 0 3).lane .l0).state = .running ∧ groupNamed ((assembling 0 3).lane .l0).desc = none ∧
        ((assembling 0 3).lane .l0).assembly = .assembling ⟨0, 15⟩ 0 ∧
        tiles ((assembling 0 3).lane .l0).desc - 0 ≤ room (assembling 0 3) .l0 ∧
        room (assembling 0 2) .l0 < tiles ((assembling 0 2).lane .l0).desc - 0) := by decide

/-! Groups, ladder, fill, ticks. -/

/-- Each judgement at the edges of its range: differences 1, 7, 8, 15 and 0. -/
theorem witness_PositionsAreJudgedByTheirDifference :
    (((3 : BitVec 4) - 2).toNat = 1 ∧ ((1 : BitVec 4) - 10).toNat = 7) ∧
      (((2 : BitVec 4) - 10).toNat = 8 ∧ ((2 : BitVec 4) - 3).toNat = 15) ∧ ((5 : BitVec 4) - 5).toNat = 0 := by decide

theorem head_judged_iff (j : Judgement) (s : State) (c : Position) (l : LaneId) :
    HeadJudged j s c l ↔ ((headOf s l).any fun p => judge p c == j) = true := by
  unfold HeadJudged
  cases headOf s l <;> simp

/-- Group A with lane 0 at the cursor, and lane 1 with a head before it, after it, or without a line. -/
def before : State := pair (some ⟨0, 15⟩) 4 (member .running [waiting ⟨0, 15⟩]) (member .running [waiting ⟨15, 15⟩]) .inStep .inStep
def ahead : State := pair (some ⟨0, 15⟩) 4 (member .running [waiting ⟨0, 15⟩]) (member .running [waiting ⟨7, 0⟩]) .inStep .inStep
def late (skew : Nat) : State := pair (some ⟨0, 15⟩) skew (member .running [waiting ⟨0, 15⟩]) (member .running []) .inStep .inStep
/-- Group A with nobody at the cursor: lane 0 as given, lane 1 lagging without a line. -/
def nobody (q : List LineRecord) : State := pair (some ⟨0, 15⟩) 4 (member .running q) (member .running []) .lagging .lagging

theorem witness_AGroupIsEvaluatedPassByPass :
    ((∀ r ∈ (quiet.lane .l0).queue, r.state ≠ .complete) ∧
        (inStep.lane .l0).queue = [] ++ waiting ⟨0, 15⟩ :: [] ∧ (waiting ⟨0, 15⟩).state = .complete ∧
        (inStep.link.state = .up ∧ carryOf inStep .l0 = some .carried) ∧ quiet.link.state ≠ .up ∧
        (carryOf (planned .thinned (linked .up .c2)) .l0 = some .thinned ∧ (waiting ⟨0, 15⟩).pos.line % 2 = 1 ∧
          (waiting ⟨0, 14⟩).pos.line % 2 = 0) ∧
        carryOf (planned .shed (linked .up .c2)) .l0 = some .shed) ∧
      (let s := pair none 4 (member .faulted [waiting ⟨0, 15⟩]) (member .faulted []) .inStep .inStep
       (∀ l ∈ members s .a, (s.lane l).state ≠ .running) ∧ LaneId.l0 ∈ members s .a ∧ carryOf s .l0 = some .carried) ∧
      (let s := pair none 4 (member .running []) (member .running [waiting ⟨0, 15⟩]) .inStep .inStep
       (∃ l ∈ members s .a, (s.lane l).state = .running) ∧ (s.group .a).cursor = none ∧
         members s .a = [.l0] ++ .l1 :: [] ∧ headOf s .l1 = some ⟨0, 15⟩ ∧ headOf s .l0 = none) ∧
      ((∃ l ∈ members before .a, (before.lane l).state = .running) ∧ (before.group .a).cursor = some ⟨0, 15⟩ ∧
        FirstBehind before .a ⟨0, 15⟩ .l1) ∧
      ((∀ l ∈ members ahead .a, ¬ HeadJudged .behind ahead ⟨0, 15⟩ l) ∧ waitedFor ahead .a = [] ∧
        presentAt ahead .a ⟨0, 15⟩ = [.l0] ∧ HeadJudged .ahead ahead ⟨0, 15⟩ .l1 ∧ ahead.standing .l1 = some .inStep) ∧
      (∀ l ∈ members inStep .a, ¬ HeadJudged .ahead inStep ⟨0, 15⟩ l) ∧
      ((∀ l ∈ members (late 1) .a, ¬ HeadJudged .behind (late 1) ⟨0, 15⟩ l) ∧ waitedFor (late 1) .a = [.l1] ∧
        presentAt (late 1) .a ⟨0, 15⟩ = [.l0] ∧ ((late 1).group .a).skew ≤ completeIn ((late 1).lane .l0).queue ∧
        completeIn ((late 2).lane .l0).queue < ((late 2).group .a).skew) ∧
      (waitedFor (nobody []) .a = [] ∧ presentAt (nobody []) .a ⟨0, 15⟩ = [] ∧
        ∀ l ∈ members (nobody []) .a, ¬ HeadJudged .ahead (nobody []) ⟨0, 15⟩ l) ∧
      (waitedFor (nobody [waiting ⟨7, 0⟩]) .a = [] ∧ presentAt (nobody [waiting ⟨7, 0⟩]) .a ⟨0, 15⟩ = [] ∧
        HeadJudged .ahead (nobody [waiting ⟨7, 0⟩]) ⟨0, 15⟩ .l0) := by
  unfold FirstBehind
  simp only [head_judged_iff]
  exact ⟨by decide, by decide, by decide, ⟨by decide, by decide, [.l0], [], by decide⟩, by decide, by decide, by decide,
    by decide, by decide⟩

theorem witness_TheAssessmentSettlesAndRaises :
    let s := planned .shed (linked .up .c2)
    s.builder.runtimes.length = (activeBank s).entries.length ∧ ((activeBank s).entries.map fun e => e.lane).Nodup ∧
      ((activeBank s).entries[0]? = some entry0 ∧ s.builder.runtimes[0]? = some ⟨0, .shed⟩ ∧
        (ladder (activeBank s).entries (16 * (slotsDown s.builder.classApplied - 2))).1[0]? = some .carried) := by
  decide

/-- A switch of the head's that is due in a state of the link. -/
def dueIn (state : LinkState) (d : Due) : State :=
  let s := holding (.counting .head) [entry0] (planned .thinned (linked state .c5))
  { s with plan := { s.plan with due := some d } }

theorem due_keeps_the_plan_law (state : LinkState) (d : Due) : PlanLaw (dueIn state d).plan :=
  ⟨⟨Nat.le_of_ble_eq_true rfl, List.nodup_singleton _⟩, ⟨Nat.le_of_ble_eq_true rfl, List.nodup_singleton _⟩, rfl,
    Nat.zero_le _, fun _ => rfl, rfl, rfl, .inr rfl⟩

theorem witness_ASwitchMakesThePendingBankActive :
    (PlanLaw (dueIn .up .counted).plan ∧ (dueIn .up .counted).plan.due = some .counted ∧
        (dueIn .up .counted).plan.hold = .counting .head ∧ (dueIn .up .counted).link.state = .up ∧
        (dueIn .up .counted).pins.resetLow = false) ∧
      PlanLaw (dueIn .down .uncounted).plan ∧ (dueIn .down .uncounted).link.state ≠ .up ∧
      (pendingBank (dueIn .up .counted)).entries[0]? = some entry0 ∧
      ((activeBank (dueIn .up .counted)).entries[0]? = some entry0 ∧
        (dueIn .up .counted).builder.runtimes[0]? = some ⟨0, .thinned⟩) ∧
      ∀ f ∈ (activeBank (dueIn .up .counted)).entries, f.lane ≠ .l1 :=
  ⟨⟨due_keeps_the_plan_law _ _, by decide⟩, due_keeps_the_plan_law _ _, by decide, rfl, by decide, by decide⟩

theorem witness_TheLadderGivesUpWholeLevels :
    (ladderPlan.map (·.share)).sum ≤ 800 ∧ ¬ (ladder ladderPlan 352).2 ≤ 352 ∧
      (∃ x ∈ ladderPlan.zip (ladder ladderPlan 352).1, ∃ y ∈ ladderPlan.zip (ladder ladderPlan 352).1,
        x.1.priority < y.1.priority ∧ x.2 ≠ .carried) := by
  exact ⟨by decide, by decide, (⟨.l1, 128, 2, true, false⟩, .shed), by decide, (⟨.l3, 64, 3, false, false⟩, .shed),
    by decide, by decide, by decide⟩

theorem witness_TheFillGrantsWholeSlots :
    let s := assembling 0 2
    s.builder.runtimes.length = (activeBank s).entries.length ∧ ((activeBank s).entries.map fun e => e.lane).Nodup ∧
      ((activeBank s).entries[0]? = some entry0 ∧ s.builder.runtimes[0]? = some ⟨0, .carried⟩) ∧ CarryState.carried ≠ .shed ∧
      ∀ r ∈ (s.lane .l0).queue, r.state = .released → r.carried < r.tiles.length := by decide

theorem witness_ATickInUpBuildsACarriageFrame :
    (assembling 0 2).pins.resetLow = false ∧ (assembling 0 2).link.state = .up ∧ (assembling 0 2).plan.due = none ∧
      (assembling 0 2).plan.echo = .idle ∧
      { quiet.plan with echo := .running 62 0 none }.echo = .running 62 0 none ∧ (62 : Nat) < 63 ∧
      (∀ l, ((assembling 0 2).lane l).state = .running → ((assembling 0 2).lane l).silence < 7) ∧
      ∃ t, exec .referenceTick (assembling 0 2) = .next t ∧ t.link.state = .up :=
  ⟨rfl, rfl, rfl, rfl, rfl, by decide, fun l => by cases l <;> decide, _, rfl, by decide +kernel⟩

theorem witness_TicksOutsideUp :
    (carried.pins.resetLow = false ∧ carried.link.state = .offer) ∧ (linked .measure .c5).link.state = .measure ∧
      ((linked .trainSwitch .c5).link.state = .trainSwitch ∧
        { (linked .trainSwitch .c5).link with selected := some .c3 }.selected = some .c3) ∧
      (quiet.link.state = .down ∧ quiet.plan.due = none) ∧
      { quiet.plan with due := some Due.uncounted }.due ≠ none := by decide

theorem witness_ATickInTestBuildsAPatternFrame :
    (linked .test .c2).pins.resetLow = false ∧ (linked .test .c2).link.state = .test ∧
      (linked .test .c2).test.mode ≠ .patternLoop ∧ (linked .test .c2).test.checked ≤ 65535 ∧
      { (linked .test .c2).test with mode := .patternLoop }.mode = .patternLoop ∧
      (patternSamples 0)[255]? ≠ none ∧ (0 : Word16).toNat % 32768 = 0 := by decide +kernel

theorem witness_TheControlSlotServesInOrder :
    quiet.control.announce = [] ∧ carried.control.responses = ⟨16, 0, .done, []⟩ :: List.replicate 6 ⟨16, 0, .done, []⟩ ∧
      quiet.control.responses = [] ∧ quiet.control.relayOut = [] ∧ quiet.control.notices = [] ∧
      crowded.control.notices = resetDone 1 :: List.replicate 7 (resetDone 1) ∧
      (announcement .inForce 24)[7]? = some { kind := .inForce, tag := 7, part := .lanes } ∧
      (List.replicate 24 entry0)[4 * 5 + 3]? = some entry0 := by decide

/-! What ends at a tick. -/

/-- Fifteen training switch frames have been handed over. -/
def switching : State :=
  { linked .trainSwitch .c5 with link := { (linked .trainSwitch .c5).link with trainFrames := 15, selected := some .c3 } }

theorem witness_CountsHoldsAndWatchesRunOut :
    (quiet.pins.resetLow = false ∧ { quiet.plan with countdown := 1 }.countdown = 1 ∧ quiet.plan.countdown ≠ 1 ∧
      { quiet.link with proposal := .counting 1 .c3 true }.proposal = .counting 1 .c3 true ∧
      (∀ k b, quiet.link.proposal ≠ .counting 1 k b) ∧ (Tally.mk true true true 1).hold = 1 ∧ quiet.rx.upValid = false ∧
      quiet.tally.hold ≠ 1 ∧ quiet.refWatch ≠ .fired ∧ { quiet with refWatch := .fired }.refWatch = .fired) ∧
    (switching.pins.resetLow = false ∧ switching.link.state = .trainSwitch ∧ 15 ≤ switching.link.trainFrames ∧
      switching.link.selected = some .c3 ∧ quiet.link.state ≠ .trainSwitch ∧
      (linked .trainSwitch .c5).link.trainFrames < 15) ∧
    (linked .up .c2).link.state = .up ∧
    { quiet.plan with echo := .running 63 0 none }.echo = .running 63 0 none ∧ quiet.plan.baseStanding = .inStep ∧
    { quiet.plan with baseStanding := .lagging }.baseStanding = .lagging ∧ quiet.plan.echo = .idle ∧ (62 : Nat) < 63 :=
  ⟨⟨rfl, rfl, by decide, rfl, by rintro _ _ ⟨⟩, rfl, rfl, by decide, by decide, rfl⟩, by decide⟩

/-- The supervision counts one verdict short of each threshold. -/
def nearly (c : Supervision) (p : Period) : State :=
  { linked .up .c2 with
    link := { (linked .up .c2).link with supervision := c }, rx := { quiet.rx with period := p } }

theorem witness_ALossCriterionDropsTheLink :
    (quiet.pins.resetLow = false ∧ (nearly ⟨3, 0, none, []⟩ .empty).link.state = .up) ∧
      SyncMet (nearly ⟨3, 0, none, []⟩ .empty) ∧
      (let s := nearly ⟨0, 63, some 5, []⟩ (.valid 5)
       ¬ SyncMet s ∧ BeaconMet s) ∧
      (let s := nearly ⟨2, 64, some 5, []⟩ .failed
       ¬ SyncMet s ∧ BeaconMet s) ∧
      (let s := nearly ⟨2, 63, none, List.replicate 15 .failed⟩ .failed
       ¬ SyncMet s ∧ ¬ BeaconMet s ∧ BurstMet s) ∧
      (let s := nearly ⟨2, 63, none, List.replicate 14 .failed⟩ .failed
       ¬ SyncMet s ∧ ¬ BeaconMet s ∧ ¬ BurstMet s) ∧
      (quiet.link.state ≠ .up ∧ quiet.link.state ≠ .trainSwitch) := by decide

theorem witness_CountsAreKeptByTheTick :
    (quiet.pins.resetLow = false ∧ quiet.tally.hold = 0 ∧ { quiet.rx with upValid := true }.upValid = true) ∧
      (quiet.rx.upValid = false ∧ (Tally.mk true false false 1).hold = 1 ∧ (Tally.mk true false false 32).hold = 30 + 2) ∧
      ((quiet.lane .l0).state ≠ .running ∧ ((runs .running).lane .l0).silence < 7 ∧
        7 ≤ { plain with silence := 7 }.silence) ∧
      (quiet.link.state ≠ .trainSwitch ∧ quiet.link.state ≠ .up) ∧
      (let s := nearly ⟨3, 0, none, []⟩ .empty
       s.link.state = .up ∧ s.rx.period = .empty ∧ SyncMet s) ∧
      (let s := nearly ⟨0, 63, some 5, []⟩ (.valid 5)
       s.rx.period ≠ .empty ∧ ¬ SyncMet s ∧ BeaconMet s) ∧
      (let s := nearly ⟨2, 63, none, List.replicate 15 .failed⟩ .failed
       ¬ SyncMet s ∧ ¬ BeaconMet s ∧ BurstMet s) ∧
      (let s := nearly ⟨2, 63, none, []⟩ .empty
       ¬ SyncMet s ∧ ¬ BeaconMet s ∧ ¬ BurstMet s) := by decide

/-! Timers and the modem. -/

theorem witness_HoldAndRetryTimersRunOut :
    (editing .base).plan.hold = .held .base 5 ∧ (∀ o ms, quiet.plan.hold ≠ .held o ms) ∧
      (quiet.pins.resetLow = false ∧ quiet.link.state = .down ∧ quiet.pins.carrier = false ∧
        quiet.link.timers.retry = .expired) ∧
      { quiet.pins with carrier := true }.carrier = true ∧ (linked .up .c2).link.state ≠ .down ∧
      (linked .down .c2).link.timers.retry ≠ .expired :=
  ⟨rfl, by rintro _ _ ⟨⟩, by decide⟩

theorem witness_TrainingEndsOrFails :
    (carried.pins.resetLow = false ∧ carried.link.state = .offer ∧ carried.link.attempts + 1 < 4) ∧
      (linked .measure .c5).link.state = .measure ∧ 4 ≤ { carried.link with attempts := 3 }.attempts + 1 ∧
      (quiet.link.state ≠ .measure ∧ quiet.link.state ≠ .offer) := by decide

/-- A proposal of the part's own for a class. -/
def proposing (k : RateClass) : State :=
  { linked .up .c3 with link := { (linked .up .c3).link with proposal := .proposing k } }

/-- Both timers of the class running. -/
def timed (k : RateClass) : State :=
  { linked .up k with
    link := { (linked .up k).link with timers := { Timers.stopped with margin := some 1, stepUp := some 1 } } }

theorem witness_AnswerMarginAndStepUpTimersRunOut :
    (((proposing .c2).link.state = .up ∧ (proposing .c2).link.proposal = .proposing .c2 ∧
          classNum .c2 < classNum (proposing .c2).link.classInForce) ∧
        (classNum (proposing .c4).link.classInForce ≤ classNum .c4 ∧ (proposing .c4).link.criteria.classTimeout = true) ∧
        { (proposing .c4).link.criteria with classTimeout := false }.classTimeout = false ∧ quiet.link.state ≠ .up) ∧
      ((timed .c3).pins.resetLow = false ∧ (timed .c3).link.state = .up ∧ (timed .c3).link.timers.margin = some 1 ∧
        (timed .c3).link.timers.stepUp = some 1) ∧
      (timed .c5).link.classInForce = .c5 ∧ classNum .c4 = classNum (timed .c3).link.classInForce + 1 ∧
      ((timed .c3).link.ceiling = some .c2 ∧ classNum .c2 < classNum (timed .c3).link.classInForce ∧
        (timed .c3).link.proposal = .idle ∧ classNum .c2 + 1 = classNum (timed .c3).link.classInForce) ∧
      classNum (timed .c2).link.classInForce ≤ classNum .c2 ∧ (linked .up .c3).link.timers.margin = none ∧
      (linked .up .c3).link.timers.stepUp = none := by decide

theorem witness_CarrierAndMarginWarningMoveTheLink :
    Carrying (linked .up .c3).link.state ∧ ¬ Carrying quiet.link.state ∧
      (quiet.pins.marginWarning = false ∧ quiet.link.state ≠ .up) ∧
      { quiet.pins with marginWarning := true }.marginWarning = true ∧
      ((linked .up .c3).link.state = .up ∧ (linked .up .c3).link.proposal = .idle) ∧
      classNum .c2 < classNum (proposing .c2).link.classInForce ∧
      classNum (proposing .c4).link.classInForce ≤ classNum .c4 :=
  ⟨.inr (.inr (.inr rfl)), by unfold Carrying; decide, by decide, rfl, by decide, by decide, by decide⟩

/-! Upstream frames. -/

/-- An upstream frame of class 5: header, control cell, return slot 0 of a kind, and everything else code zero. -/
def upBody (cell : Cell) (kind : Byte) : List Byte :=
  [0, 9, 1, 7, 0, 0, 0, 0, 0, 5] ++ padSlot (cellBytes cell) ++ List.replicate 400 0 ++ padSlot [kind, 0, 0, 3, 0, 4, 1, 32]
    ++ List.replicate 1200 0

def goodFrame (cell : Cell) (kind : Byte) : List Byte := upBody cell kind ++ crc32Bytes (crc32 (upBody cell kind))

theorem good_frame_passes (cell : Cell) (kind : Byte) (h : cell.payload.length ≤ 44) :
    upFramePasses .c5 (goodFrame cell kind) = true := by
  have length : (upBody cell kind).length = 2410 := by
    simp [upBody, padSlot, cellBytes, cellBody, wordBytes, -List.reduceReplicate]
    omega
  have tail (r : BitVec 32) : (crc32Bytes r).length = 4 := rfl
  have whole : (upBody cell kind ++ crc32Bytes (crc32 (upBody cell kind))).length = 2414 := by
    rw [List.length_append, length, tail]
  simp only [upFramePasses, upFrameLength, slotsUp, goodFrame, slice, whole, Bool.and_eq_true, beq_iff_eq]
  refine ⟨by trivial, ?_⟩
  rw [List.drop_left' length, List.take_left' length, List.take_of_length_le (by rw [tail])]

theorem witness_UpstreamFramesAreCheckedAndTheirCommandTaken :
    receives quiet = false ∧ (receives carried = true ∧ carried.rx.period = .empty) ∧
      { carried.rx with period := .failed }.period ≠ .empty ∧ ([] : List Byte).length ≠ 10 + 400 * slotsUp .c5 + 4 ∧
      ((linked .measure .c5).pins.resetLow = false ∧ (linked .measure .c5).link.state = .measure ∧
        (linked .measure .c5).rx.period = .empty ∧ (linked .measure .c5).plan.echo = .idle ∧
        (linked .measure .c5).rx.expected = .c5 ∧ Cmd.decode 8 [] = some .planOpen) ∧
      upFramePasses .c5 (goodFrame ⟨1, 6, [8]⟩ 0) = true ∧
      (upFrameOf .c5 (goodFrame ⟨1, 6, [8]⟩ 0)).cell = some { kind := 1, tag := 6, payload := 8 :: [] } :=
  ⟨rfl, by decide, by decide, by decide, by decide, good_frame_passes _ _ (by decide), by decide +kernel⟩

/-- 47 tiles in the return buffer. -/
def nearlyFull : State :=
  { linked .up .c2 with ret := { buffer := List.replicate 47 ⟨0, 0, 0, false, []⟩, taken := none } }

theorem witness_AFrameInUpServesTallyAndReturns :
    (nearlyFull.pins.resetLow = false ∧ nearlyFull.link.state = .up ∧ nearlyFull.rx.period = .empty ∧
        nearlyFull.plan.echo = .idle ∧ nearlyFull.rx.expected = .c5) ∧
      upFramePasses .c5 (goodFrame ⟨0, 0, []⟩ 1) = true ∧
      (let u := upFrameOf .c5 (goodFrame ⟨0, 0, []⟩ 1)
       u.cell = some { kind := 0, tag := 0, payload := [] } ∧ u.classField = .none ∧ u.aux = ⟨[], [], []⟩ ∧
         ((u.returns.filter fun r => r.kind == 1).map returned).length = 1 ∧
         nearlyFull.ret.buffer.length + 1 ≤ 48) :=
  ⟨by decide, good_frame_passes _ _ (by decide), by decide +kernel⟩

/-- A side line with 63 bytes in its in queue, even parity, a byte on the line and a marked byte to follow. -/
def busy : SideLine :=
  { SideLine.reset with
    parity := .even, inQueue := List.replicate 63 ⟨0, .clean⟩, outQueue := [⟨7, .parity⟩],
    shifting := some ⟨1, none, .r38400⟩ }

theorem witness_EachPartOfAFrameReachesItsOwner :
    (carried.pins.resetLow = false ∧ receives carried = true ∧ carried.rx.period = .empty ∧ carried.rx.expected = .c5 ∧
        upFramePasses .c5 (goodFrame ⟨1, 6, [8]⟩ 0) = true) ∧
      (upFrameOf .c5 (goodFrame ⟨1, 6, [8]⟩ 0)).cell = some { kind := 1, tag := 6, payload := 8 :: [] } ∧
      Cmd.decode 8 [] = some .planOpen ∧ (Cmd.decode 35 [] = none ∧ carried.control.responses.length < 8) ∧
      ((linked .up .c2).link.state = .up ∧ (linked .test .c2).link.state = .test ∧ quiet.plan.echo = .idle ∧
        { quiet.plan with echo := .running 0 0 none }.echo = .running 0 0 none ∧ (1 : Byte) ≠ (activeBank quiet).epoch ∧
        (0 : Byte) = (activeBank quiet).epoch ∧ quiet.plan.baseStanding = .inStep) ∧
      (64 ≤ (List.replicate 64 (⟨0, .clean⟩ : ByteRecord)).length ∧ busy.outQueue.length < 64 ∧ busy.shifting ≠ none ∧
        ((quiet.side .s0).shifting = none ∧ (quiet.side .s0).outQueue = [] ∧ (quiet.side .s0).parity = .none)) ∧
      (nearlyFull.ret.buffer.length < 48 ∧ 48 ≤ (List.replicate 48 (0 : Byte)).length ∧ (0 : Byte) ≠ 1 ∧ (0 : Byte) ≠ 3) ∧
      (65534 < 65535 ∧ (65535 : Nat) ≤ 65535) :=
  ⟨⟨rfl, rfl, rfl, rfl, good_frame_passes _ _ (by decide)⟩, by decide +kernel, by decide, by decide, by decide, by decide,
    by decide, by decide⟩

theorem witness_TheBaseSelectsAgreesAndProposes :
    (carried.link.ceiling = some .c2 ∧ carried.link.state = .offer ∧ classNum .c2 ≤ classNum .c2) ∧
      classNum .c1 < classNum .c2 ∧ quiet.link.state ≠ .offer ∧
      ((linked .up .c3).link.proposal = .idle ∧ RateClass.c2 ≠ (linked .up .c3).link.classInForce) ∧
      ((proposing .c2).link.proposal = .proposing .c2 ∧ classNum .c2 < classNum .c3 ∧
        RateClass.c3 = (proposing .c2).link.classInForce) ∧
      { (linked .up .c3).link with proposal := .counting 8 .c4 true }.proposal = .counting 8 .c4 true := by decide

/-! Head port, events, services. -/

theorem witness_ACommandTransactionIsItsCommand :
    (quiet.pins.resetLow = false ∧ quiet.pins.selectLow = false ∧ quiet.port.holding = none) ∧
      (Cmd.relaySend (List.replicate 44 0)).wellFormed = true ∧
      { quiet.port with holding := some emptyResponse }.holding ≠ none ∧ 48 < (List.replicate 49 (0 : Byte)).length ∧
      commandFrameOf [1, 7, 0, 0] = none ∧
      (∀ c : Cmd, c.wellFormed = true → c.opcode = 35 → c.args ≠ []) ∧
      (∀ c : Cmd, c.wellFormed = true → c.opcode = 1 → c.args ≠ [0]) :=
  ⟨by decide, by decide, by decide, by decide, by decide, fun c _ h => by cases c <;> simp [Cmd.opcode] at h,
    fun c _ h => by cases c <;> simp [Cmd.opcode, Cmd.args] at h ⊢⟩

theorem witness_FetchAndSelect :
    (quiet.pins.resetLow = false ∧ quiet.pins.selectLow = false ∧ quiet.port.holding = none) ∧
      { quiet.port with holding := some emptyResponse }.holding = some emptyResponse ∧
      ((responseBytes emptyResponse).length ≤ 5 ∧ 4 < (responseBytes emptyResponse).length) ∧
      ((162 : Byte) ≠ 161 ∧ (162 : Byte) ≠ 178) ∧
      ({ quiet.pins with selectLow := true }.selectLow = true ∧ quiet.port.transaction = none) ∧
      ((none : Option Byte) ≠ some 161 ∧ (some 162 : Option Byte) ≠ some 178) ∧ inReset.pins.resetLow = true := by decide

theorem witness_EventsAreRecordedReadAndMasked :
    (Ready .head quiet ∧ Ready .base carried) ∧
      (quiet.events.headMask.getLsbD (eventNum .testWrap) = true ∧
        quiet.events.baseMask.getLsbD (eventNum .testWrap) = false ∧ quiet.events.queue.length < 32) ∧
      { quiet.events with headMask := 0 }.headMask.getLsbD (eventNum .linkUp) = false ∧
      32 ≤ (List.replicate 32 (resetDone 1)).length ∧
      ({ quiet.events with baseMask := 0xFFFFFE }.baseMask.getLsbD (eventNum .linkUp) = true ∧
        (List.replicate 7 (resetDone 1)).length < 8) ∧
      (8 ≤ crowded.control.notices.length ∧ (crowded.counter (.link .noticesLost)).count ≠ 32767) :=
  ⟨⟨ready_quiet, ready_carried⟩, by decide⟩

/-- Eight notices waiting under a full base mask, and the lost ones one short of half way. -/
def halfLost : State :=
  { crowded with
    events := { crowded.events with baseMask := 0xFFFFFE, queue := List.replicate 30 (resetDone 1) },
    counters := { crowded.counters with
      relayOverruns := ⟨32767, true⟩, link := { crowded.counters.link with noticesLost := ⟨32767, true⟩ } } }

theorem witness_CountersCountAreReadAndCleared :
    (65535 ≤ (crowded.counter (.link .framesMissing)).count ∧ (quiet.counter (.link .framesMissing)).count < 65535 ∧
        (quiet.counter (.link .framesMissing)).count ≠ 32767) ∧
      ((halfLost.counter .relayOverruns).count = 32767 ∧ (halfLost.counter .relayOverruns).armed = true ∧
        CounterId.relayOverruns ≠ .link .noticesLost ∧ (halfLost.counter (.link .noticesLost)).count = 32767 ∧
        (halfLost.counter (.link .noticesLost)).armed = true) ∧
      (halfLost.events.baseMask.getLsbD (eventNum .counterHalf) = true ∧ 8 ≤ halfLost.control.notices.length ∧
        halfLost.counter (.link .noticesLost) = { count := 32767, armed := true }) ∧
      quiet.events.baseMask.getLsbD (eventNum .counterHalf) = false ∧
      (maskHolds halfLost.events.headMask .counterHalf = true ∧ halfLost.events.queue.length < 31) ∧
      (Ready .head quiet ∧ 8 < (9 : Byte).toNat ∧ counterGroupOf (8 : Byte).toNat = some (.side .s2)) :=
  ⟨by decide, by decide, by decide, by decide, by decide, ready_quiet, by decide, by decide⟩

theorem witness_SideLineBytesAndReturnTilesMove :
    (quiet.pins.resetLow = false ∧ busy.inQueue.length < 64) ∧
      (busy.parity = .even ∧ false ≠ decide (((List.range 8).countP fun k => (7 : Byte).getLsbD k) % 2 = 1)) ∧
      64 ≤ (⟨0, .clean⟩ :: busy.inQueue : List ByteRecord).length ∧
      ((quiet.side .s0).shifting = none ∧ (quiet.side .s0).parity = .none) ∧
      (busy.shifting ≠ none ∧ busy.outQueue = ⟨7, .parity⟩ :: []) ∧ quiet.ret.buffer = [] ∧
      nearlyFull.ret.buffer = ⟨0, 0, 0, false, []⟩ :: List.replicate 46 ⟨0, 0, 0, false, []⟩ := by decide

end Sys2Proof.Tests
end

/-! # Proofs: records

Raising an event and counting read and write the head event queue, the notice queue, the counters and the frame stamp, and
nothing else. So they commute with every operation on the other blocks; that is said once here, by `onto`. -/

namespace Sys2Proof.Proofs

open Sys2Proof.Machine Sys2Proof.Claims

/-- The records and the frame count of a state `s` on the blocks of a state `p`. -/
def onto (p s : State) : State :=
  { p with
    events := s.events, counters := s.counters, control := { p.control with notices := s.control.notices },
    builder := { p.builder with frameCount := s.builder.frameCount } }

@[simp] theorem onto_events (p s : State) : (onto p s).events = s.events := rfl
@[simp] theorem onto_counters (p s : State) : (onto p s).counters = s.counters := rfl
@[simp] theorem onto_notices (p s : State) : (onto p s).control.notices = s.control.notices := rfl
@[simp] theorem onto_frameCount (p s : State) : (onto p s).builder.frameCount = s.builder.frameCount := rfl
@[simp] theorem onto_counter (p s : State) (id : CounterId) : (onto p s).counter id = s.counter id := rfl
@[simp] theorem onto_self (s : State) : onto s s = s := rfl

/-- An operation on the records alone: it reads and writes nothing else. -/
def Recording (f : State → State) : Prop := ∀ p s, f (onto p s) = onto p (f s)

/-- An operation on the other blocks alone. -/
def Apart (g : State → State) : Prop := ∀ p s, g (onto p s) = onto (g p) s

variable {f g : State → State} {s u : State}

theorem Recording.eq_onto (hf : Recording f) (s : State) : f s = onto s (f s) := hf s s

/-- An operation on the records commutes with one on the other blocks. -/
theorem Recording.comm (hf : Recording f) (hg : Apart g) (s : State) : f (g s) = g (f s) := by
  have split_state : g s = onto (g s) s := hg s s
  rw [split_state, hf, ← hg, ← hf.eq_onto]

theorem Recording.comp (hf : Recording f) (hg : Recording g) : Recording fun s => f (g s) := by
  intro p s
  change f (g (onto p s)) = onto p (f (g s))
  rw [hg, hf]

/-- A choice that the records alone decide. -/
theorem Recording.ite {c : State → Prop} [DecidablePred c] (hc : ∀ p s, c (onto p s) ↔ c s) (hf : Recording f)
    (hg : Recording g) : Recording fun s => if c s then f s else g s := by
  intro p s
  by_cases h : c s
  · simp only [if_pos h, if_pos ((hc p s).mpr h)]
    exact hf p s
  · simp only [if_neg h, if_neg (mt (hc p s).mp h)]
    exact hg p s

theorem recording_id : Recording fun s => s := fun _ _ => rfl

/-! ### The recording operations -/

theorem joinHead_recording (e : EventRecord) : Recording (joinHead e) :=
  .ite (fun _ _ => Iff.rfl) (.ite (fun _ _ => Iff.rfl) (fun _ _ => rfl) fun _ _ => rfl) recording_id

theorem recordWith_recording {lose : State → State} (hl : Recording lose) (forced : Bool) (e : EventRecord) :
    Recording (recordWith lose forced e) :=
  Recording.comp (f := fun s => if noticeWanted forced e s then
      if s.control.notices.length < 8 then joinNotice e s else lose s else s)
    (.ite (fun _ _ => Iff.rfl) (.ite (fun _ _ => Iff.rfl) (fun _ _ => rfl) hl) recording_id) (joinHead_recording e)

theorem noticeLostPastHalf_recording : Recording noticeLostPastHalf := fun _ _ => rfl

theorem halfNoticeLost_recording : Recording halfNoticeLost :=
  .ite (c := fun s => counterHalfDue (s.counter (.link .noticesLost)) = true) (fun _ _ => Iff.rfl)
    (fun p s => recordWith_recording noticeLostPastHalf_recording _ _ p (noticeLostPastHalf s))
    noticeLostPastHalf_recording

theorem recordHalf_recording (id : CounterId) : Recording (recordHalf id) :=
  fun p s => recordWith_recording halfNoticeLost_recording _ (halfRecord id s) p s

theorem bump_recording (id : CounterId) : Recording (State.bump id) :=
  .ite (c := fun s => counterHalfDue (s.counter id) = true) (fun _ _ => Iff.rfl)
    (fun p s => recordHalf_recording id p (s.modCounters fun cs => counterSet cs id (counterUp (s.counter id))))
    fun _ _ => rfl

theorem record_recording (forced : Bool) (e : EventRecord) : Recording (record forced e) :=
  recordWith_recording (bump_recording _) _ _

theorem raise_recording (k : EventKind) (subject detail : Nat) : Recording (State.raise k subject detail) :=
  fun p s => record_recording false _ p s

theorem bumps_recording (n : Nat) (id : CounterId) : Recording (bumps n id) := by
  induction n with
  | zero => exact fun _ _ => rfl
  | succ n ih => exact ih.comp (bump_recording id)

theorem raiseAll_recording (es : List (EventKind × Nat × Nat)) : Recording (raiseAll es) := by
  induction es with
  | nil => exact fun _ _ => rfl
  | cons e rest ih =>
    obtain ⟨k, subject, detail⟩ := e
    exact ih.comp (raise_recording k subject detail)

theorem countCut_recording (l : LaneId) (q : List LineRecord) : Recording (countCut l q) :=
  .ite (fun _ _ => Iff.rfl) (bump_recording _) recording_id

/-! ### Operations on the other blocks -/

theorem modLane_apart (l : LaneId) (f : Lane → Lane) : Apart (State.modLane l f) := fun _ _ => rfl
theorem setLane_apart (l : LaneId) (x : Lane) : Apart (setLane l x) := fun _ _ => rfl
theorem addFree_apart (n : Nat) : Apart (State.addFree n) := fun _ _ => rfl
theorem takeFree_apart (n : Nat) : Apart fun s => { s with poolFree := s.poolFree - n } := fun _ _ => rfl
theorem setStanding_apart (l : LaneId) (v : Option Standing) : Apart (State.setStanding l v) := fun _ _ => rfl
theorem modGroup_apart (g : GroupId) (f : Group → Group) : Apart (State.modGroup g f) := fun _ _ => rfl
theorem setBoardReady_apart (l : LaneId) (b : Bool) : Apart (setBoardReady l b) := fun _ _ => rfl

/-! ### Two states with the same records -/

/-- Two states have the same records and the same frame stamp, so that recording does the same in both. -/
def Agree (s u : State) : Prop := SameRecords s u ∧ u.builder.frameCount = s.builder.frameCount

theorem Agree.refl (s : State) : Agree s s := ⟨⟨rfl, rfl, rfl⟩, rfl⟩

theorem agree_onto (p s : State) : Agree s (onto p s) := ⟨⟨rfl, rfl, rfl⟩, rfl⟩

theorem Agree.eq_onto (h : Agree s u) : u = onto u s := by
  obtain ⟨⟨he, hn, hc⟩, hb⟩ := h
  simp only [onto, ← he, ← hn, ← hc, ← hb]

theorem Agree.trans {v : State} (h : Agree s u) (k : Agree u v) : Agree s v :=
  ⟨⟨k.1.1.trans h.1.1, k.1.2.1.trans h.1.2.1, k.1.2.2.trans h.1.2.2⟩, k.2.trans h.2⟩

theorem Agree.symm (h : Agree s u) : Agree u s :=
  ⟨⟨h.1.1.symm, h.1.2.1.symm, h.1.2.2.symm⟩, h.2.symm⟩

/-- Recording keeps two states in agreement. -/
theorem Recording.agree (hf : Recording f) (h : Agree s u) : Agree (f s) (f u) := by
  rw [h.eq_onto, hf]
  exact agree_onto _ _

/-- What leaves the record blocks and the builder alone leaves the records as they are. -/
theorem agree_of_only {ps : List Part} (h : OnlyChanges ps s u)
    (hp : ∀ p ∈ [Part.events, .notices, .counters, .builder], p ∉ ps := by decide) : Agree s u :=
  ⟨⟨h .events (hp _ (by decide)), h .notices (hp _ (by decide)), h .counters (hp _ (by decide))⟩,
    congrArg Builder.frameCount (h .builder (hp _ (by decide)))⟩

/-! ### What recording does to the counters -/

theorem counter_modCounters_same (id : CounterId) (v : Counter) (s : State) :
    (s.modCounters fun c => counterSet c id v).counter id = v := by
  simp [State.counter]

theorem counter_modCounters_other {id k : CounterId} (h : k ≠ id) (v : Counter) (s : State) :
    (s.modCounters fun c => counterSet c id v).counter k = s.counter k := by
  simp [State.counter, counterGet_counterSet_other _ _ _ _ h]

/-- What does not touch the counters block leaves every counter as it is. -/
theorem counter_of_only {ps : List Part} (h : OnlyChanges ps s u) (k : CounterId)
    (hp : Part.counters ∉ ps := by decide) : u.counter k = s.counter k :=
  congrArg (counterGet · k) (h .counters hp)

theorem counter_recordWith {lose : State → State} {k : CounterId} (hl : ∀ s, (lose s).counter k = s.counter k)
    (forced : Bool) (e : EventRecord) (s : State) : (recordWith lose forced e s).counter k = s.counter k := by
  have joined : (joinHead e s).counter k = s.counter k := counter_of_only (joinHead_only e s) k
  simp only [recordWith]
  split
  · split
    · exact joined
    · rw [hl, joined]
  · exact joined

theorem counter_noticeLostPastHalf {k : CounterId} (hk : k ≠ .link .noticesLost) (s : State) :
    (noticeLostPastHalf s).counter k = s.counter k :=
  counter_modCounters_other hk _ s

theorem counter_halfNoticeLost {k : CounterId} (hk : k ≠ .link .noticesLost) (s : State) :
    (halfNoticeLost s).counter k = s.counter k := by
  simp only [halfNoticeLost]
  split
  · rw [counter_recordWith (counter_noticeLostPastHalf hk), counter_noticeLostPastHalf hk]
  · exact counter_noticeLostPastHalf hk s

theorem counter_recordHalf {k : CounterId} (hk : k ≠ .link .noticesLost) (id : CounterId) (s : State) :
    (recordHalf id s).counter k = s.counter k :=
  counter_recordWith (counter_halfNoticeLost hk) _ _ s

/-- The counter that is incremented goes up by one, to 65535 at most (R172). -/
theorem counter_bump_same {id : CounterId} (h : id ≠ .link .noticesLost) (s : State) :
    (s.bump id).counter id = counterUp (s.counter id) := by
  simp only [State.bump]
  split
  · rw [counter_recordHalf h]
    exact counter_modCounters_same id _ s
  · exact counter_modCounters_same id _ s

/-- An increment leaves every other counter as it is, but for the notices lost one. -/
theorem counter_bump_other {id k : CounterId} (hk : k ≠ id) (hn : k ≠ .link .noticesLost) (s : State) :
    (s.bump id).counter k = s.counter k := by
  simp only [State.bump]
  split
  · rw [counter_recordHalf hn]
    exact counter_modCounters_other hk _ s
  · exact counter_modCounters_other hk _ s

theorem counter_bumps_other {id k : CounterId} (hk : k ≠ id) (hn : k ≠ .link .noticesLost) (n : Nat) (s : State) :
    (bumps n id s).counter k = s.counter k := by
  induction n generalizing s with
  | zero => rfl
  | succ n ih => rw [bumps, ih, counter_bump_other hk hn]

theorem counter_raise {k : CounterId} (hn : k ≠ .link .noticesLost) (e : EventKind) (a b : Nat) (s : State) :
    (s.raise e a b).counter k = s.counter k :=
  counter_recordWith (fun s => counter_bump_other hn hn s) _ _ s

theorem counter_countCut_other {k : CounterId} {l : LaneId} (hk : k ≠ .lane l .cutLines) (hn : k ≠ .link .noticesLost)
    (q : List LineRecord) (s : State) : (countCut l q s).counter k = s.counter k := by
  unfold countCut
  split
  · exact counter_bump_other hk hn s
  · rfl

end Sys2Proof.Proofs

/-! # Proofs: line queues

What the line queue of a lane looks like (R26, R27), how many buffers it holds, and that lines which leave it or are released
keep its shape. -/

namespace Sys2Proof.Proofs

open Sys2Proof.Machine Sys2Proof.Claims

/-! ### Buffers held -/

@[simp] theorem heldIn_nil : heldIn [] = 0 := rfl

@[simp] theorem heldIn_cons (r : LineRecord) (q : List LineRecord) : heldIn (r :: q) = unsent r + heldIn q := by
  simp [heldIn]

@[simp] theorem heldIn_append (p q : List LineRecord) : heldIn (p ++ q) = heldIn p + heldIn q := by
  simp [heldIn]

/-- The lines that are released and the lines that are not hold all the buffers of the queue between them. -/
theorem heldIn_filter_released (q : List LineRecord) :
    releasedIn q + heldIn (q.filter fun r => r.state != .released) = heldIn q := by
  induction q with
  | nil => rfl
  | cons r q ih =>
    cases h : r.state <;> simp [releasedIn, h] at ih ⊢ <;> omega

/-! ### The newest line -/

@[simp] theorem modNewest_concat (f : LineRecord → LineRecord) (q : List LineRecord) (r : LineRecord) :
    modNewest f (q ++ [r]) = q ++ [f r] := by
  induction q with
  | nil => rfl
  | cons x q ih => cases q <;> simp_all [modNewest]

@[simp] theorem splitNewest_concat (q : List LineRecord) (r : LineRecord) : splitNewest (q ++ [r]) = some (q, r) := by
  induction q with
  | nil => rfl
  | cons x q ih => cases q <;> simp_all [splitNewest]

/-- A queue is empty or has a newest line. -/
theorem queue_cases (q : List LineRecord) : q = [] ∨ ∃ before r, q = before ++ [r] := by
  obtain rfl | ⟨before, r, rfl⟩ := List.eq_nil_or_concat q
  · exact .inl rfl
  · exact .inr ⟨before, r, by simp⟩

/-! ### The oldest COMPLETE line -/

/-- No line of a queue waits for its release. -/
def NoneComplete (q : List LineRecord) : Prop := ∀ r ∈ q, r.state ≠ .complete

theorem splitComplete_none {q : List LineRecord} (h : splitComplete q = none) : NoneComplete q := by
  induction q with
  | nil => simp [NoneComplete]
  | cons r q ih =>
    by_cases hr : r.state = .complete
    · simp [splitComplete, hr] at h
    · simp only [splitComplete, if_neg hr, Option.map_eq_none_iff] at h
      simpa [NoneComplete, hr] using ih h

theorem splitComplete_some {q before after : List LineRecord} {r : LineRecord}
    (h : splitComplete q = some (before, r, after)) :
    q = before ++ r :: after ∧ r.state = .complete ∧ NoneComplete before := by
  induction q generalizing before with
  | nil => simp [splitComplete] at h
  | cons x q ih =>
    by_cases hx : x.state = .complete
    · simp only [splitComplete, if_pos hx, Option.some.injEq, Prod.mk.injEq] at h
      obtain ⟨rfl, rfl, rfl⟩ := h
      exact ⟨rfl, hx, by simp [NoneComplete]⟩
    · simp only [splitComplete, if_neg hx, Option.map_eq_some_iff, Prod.mk.injEq] at h
      obtain ⟨⟨b, y, a⟩, hsome, rfl, rfl, rfl⟩ := h
      obtain ⟨rfl, hy, hb⟩ := ih hsome
      exact ⟨rfl, hy, by simpa [NoneComplete, hx] using hb⟩

theorem splitComplete_of_none {q : List LineRecord} (h : NoneComplete q) : splitComplete q = none := by
  induction q with
  | nil => rfl
  | cons r q ih =>
    simp only [NoneComplete, List.mem_cons, forall_eq_or_imp] at h
    simp [splitComplete, h.1, ih h.2]

theorem splitComplete_append {before after : List LineRecord} {r : LineRecord} (hb : NoneComplete before)
    (hr : r.state = .complete) : splitComplete (before ++ r :: after) = some (before, r, after) := by
  induction before with
  | nil => simp [splitComplete, hr]
  | cons x before ih =>
    simp only [NoneComplete, List.mem_cons, forall_eq_or_imp] at hb
    simp [splitComplete, hb.1, ih hb.2]

/-! ### The front tile -/

/-- The tile that is sent is the next one of a RELEASED line; the line stays with one tile fewer, or goes. -/
theorem takeFront_some {q q' : List LineRecord} {r : LineRecord} {t : Tile} (h : takeFront q = some (r, t, q')) :
    ∃ before after, q = before ++ r :: after ∧ r.state = .released ∧ r.carried < r.tiles.length ∧
      (∀ x ∈ before, x.state = .released → x.tiles.length ≤ x.carried) ∧
      q' = before ++ (if r.carried + 1 = r.tiles.length then [] else [{ r with carried := r.carried + 1 }]) ++ after := by
  induction q generalizing q' with
  | nil => simp [takeFront] at h
  | cons x q ih =>
    rw [takeFront] at h
    split at h
    · rename_i front hfront
      simp only [Option.some.injEq, Prod.mk.injEq] at h
      obtain ⟨rfl, rfl, rfl⟩ := h
      split at hfront
      · rename_i hreleased
        refine ⟨[], q, rfl, hreleased, (List.getElem?_eq_some_iff.mp hfront).1, by simp, ?_⟩
        split <;> simp
      · cases hfront
    · rename_i hnone
      simp only [Option.map_eq_some_iff, Prod.mk.injEq] at h
      obtain ⟨⟨y, z, rest⟩, hsome, hy, ht, rfl⟩ := h
      dsimp only at hy ht
      subst hy ht
      obtain ⟨before, after, rfl, hstate, hcarried, hbefore, rfl⟩ := ih hsome
      refine ⟨x :: before, after, rfl, hstate, hcarried, ?_, rfl⟩
      intro w hw hreleased
      obtain rfl | hw := List.mem_cons.mp hw
      · simpa [hreleased] using hnone
      · exact hbefore w hw hreleased

/-! ### The shape of a queue -/

/-- Between lines no line is in assembly; otherwise one is, the newest. -/
def OpenLine (a : Assembly) (q : List LineRecord) : Prop :=
  match a with
  | .betweenLines => assemblingIn q = []
  | .assembling _ _ => ∃ r, q.getLast? = some r ∧ assemblingIn q = [r]

/-- What LaneShape asks of a queue under an assembly state. -/
def QueueShape (a : Assembly) (q : List LineRecord) : Prop :=
  (q.map fun r => lineRank r.state).Pairwise (· ≤ ·) ∧
    (∀ r ∈ q, r.carried < r.tiles.length ∧ (r.state ≠ .released → r.carried = 0)) ∧
    (∀ r ∈ q.tail, r.carried = 0) ∧ OpenLine a q

theorem laneShape_iff (x : Lane) :
    LaneShape x ↔ QueueShape x.assembly x.queue ∧ (x.state = .stopped → x.queue = []) := by
  obtain ⟨desc, state, silence, recovery, assembly, lastLine, dropMark, queue⟩ := x
  cases assembly <;> simp only [LaneShape, QueueShape, OpenLine] <;> tauto

theorem queueShape_nil : QueueShape .betweenLines [] := by simp [QueueShape, OpenLine, assemblingIn]

/-- Whether there is a line in assembly, and that it is the newest, does not depend on the lines that intake has closed. -/
theorem open_line_replace {before after rs : List LineRecord} {r : LineRecord} {a : Assembly}
    (hr : r.state ≠ .assembling) (hrs : ∀ x ∈ rs, x.state ≠ .assembling)
    (h : OpenLine a (before ++ r :: after)) : OpenLine a (before ++ rs ++ after) := by
  have none_of_rs : rs.filter (fun x => x.state == .assembling) = [] := by
    simpa [List.filter_eq_nil_iff] using hrs
  have same : assemblingIn (before ++ rs ++ after) = assemblingIn (before ++ r :: after) := by
    simp [assemblingIn, none_of_rs, hr]
  cases a with
  | betweenLines => exact same.trans h
  | assembling p n =>
    obtain ⟨x, hlast, hx⟩ := h
    refine ⟨x, ?_, same.trans hx⟩
    obtain rfl | ⟨rest, y, rfl⟩ := queue_cases after
    · have assembling_x : x.state = .assembling := by
        have : x ∈ assemblingIn (before ++ [r]) := by simp [hx]
        simpa using (List.mem_filter.mp this).2
      simp only [List.getLast?_concat, Option.some.injEq] at hlast
      exact absurd assembling_x (hlast ▸ hr)
    · rw [← List.cons_append, ← List.append_assoc, List.getLast?_concat] at hlast
      rw [← List.append_assoc, List.getLast?_concat, hlast]

/-- A line that intake has closed leaves the queue, or another that is RELEASED takes its place. -/
theorem queueShape_replace {before after rs : List LineRecord} {r : LineRecord} {a : Assembly}
    (h : QueueShape a (before ++ r :: after)) (hr : r.state ≠ .assembling)
    (hrs : rs = [] ∨ ∃ x, rs = [x] ∧ x.state = .released ∧ x.carried < x.tiles.length ∧ (before ≠ [] → x.carried = 0) ∧
      ∀ y ∈ before, y.state = .released) :
    QueueShape a (before ++ rs ++ after) := by
  obtain ⟨hrank, hfine, htail, hopen⟩ := h
  simp only [List.map_append, List.map_cons, List.pairwise_append, List.pairwise_cons] at hrank
  obtain ⟨hbefore, ⟨-, hafter⟩, hcross⟩ := hrank
  have fine_before : ∀ y ∈ before, y.carried < y.tiles.length ∧ (y.state ≠ .released → y.carried = 0) :=
    fun y hy => hfine y (by simp [hy])
  have fine_after : ∀ y ∈ after, y.carried < y.tiles.length ∧ (y.state ≠ .released → y.carried = 0) :=
    fun y hy => hfine y (by simp [hy])
  have unsent_after : ∀ y ∈ after, y.carried = 0 := by
    intro y hy
    refine htail y ?_
    cases before <;> simp [hy]
  have unsent_before : ∀ y ∈ before.tail, y.carried = 0 := by
    intro y hy
    refine htail y ?_
    cases before with
    | nil => simp at hy
    | cons b before => simp only [List.tail_cons] at hy; simp [hy]
  obtain rfl | ⟨x, rfl, hreleased, hcarried, hunsent, hall⟩ := hrs
  · refine ⟨?_, ?_, ?_, open_line_replace hr (by simp) hopen⟩
    · simp only [List.append_nil, List.map_append, List.pairwise_append]
      exact ⟨hbefore, hafter, fun a ha b hb => hcross a ha b (by simp [hb])⟩
    · intro y hy
      simp only [List.append_nil, List.mem_append] at hy
      exact hy.elim (fine_before y) (fine_after y)
    · intro y hy
      cases before with
      | nil => exact unsent_after y (List.mem_of_mem_tail (by simpa using hy))
      | cons b before =>
        simp only [List.append_nil, List.cons_append, List.tail_cons, List.mem_append] at hy
        exact hy.elim (unsent_before y) (unsent_after y)
  · have rank_x : lineRank x.state = 0 := by rw [hreleased]; rfl
    have rank_before : ∀ n ∈ before.map (fun y => lineRank y.state), n = 0 := by
      intro n hn
      obtain ⟨y, hy, rfl⟩ := List.mem_map.mp hn
      rw [hall y hy]; rfl
    refine ⟨?_, ?_, ?_, open_line_replace hr (by simp [hreleased]) hopen⟩
    · simp only [List.append_assoc, List.singleton_append, List.map_append, List.map_cons, List.pairwise_append,
        List.pairwise_cons, rank_x]
      exact ⟨hbefore, ⟨fun _ _ => Nat.zero_le _, hafter⟩, fun a ha b _ => by rw [rank_before a ha]; exact Nat.zero_le _⟩
    · intro y hy
      simp only [List.append_assoc, List.singleton_append, List.mem_append, List.mem_cons] at hy
      obtain hy | rfl | hy := hy
      · exact fine_before y hy
      · exact ⟨hcarried, fun hne => absurd hreleased hne⟩
      · exact fine_after y hy
    · intro y hy
      cases before with
      | nil => exact unsent_after y (by simpa using hy)
      | cons b before =>
        simp only [List.append_assoc, List.cons_append, List.nil_append, List.tail_cons, List.mem_append,
          List.mem_cons] at hy
        obtain hy | rfl | hy := hy
        · exact unsent_before y hy
        · exact hunsent (by simp)
        · exact unsent_after y hy

/-- Every line before a RELEASED one is RELEASED (R26). -/
theorem released_before {before after : List LineRecord} {r : LineRecord} {a : Assembly}
    (h : QueueShape a (before ++ r :: after)) (hr : r.state = .released) : ∀ y ∈ before, y.state = .released := by
  intro y hy
  obtain ⟨hrank, -⟩ := h
  simp only [List.map_append, List.map_cons, List.pairwise_append] at hrank
  have hle := hrank.2.2 _ (List.mem_map_of_mem hy) (lineRank r.state) (by simp)
  cases hs : y.state <;> simp [hs, hr, lineRank] at hle ⊢

/-- Every line before the oldest COMPLETE one is RELEASED (R26). -/
theorem released_before_complete {before after : List LineRecord} {r : LineRecord} {a : Assembly}
    (h : QueueShape a (before ++ r :: after)) (hr : r.state = .complete) (hb : NoneComplete before) :
    ∀ y ∈ before, y.state = .released := by
  intro y hy
  obtain ⟨hrank, -⟩ := h
  simp only [List.map_append, List.map_cons, List.pairwise_append] at hrank
  have hle := hrank.2.2 _ (List.mem_map_of_mem hy) (lineRank r.state) (by simp)
  cases hs : y.state with
  | released => rfl
  | complete => exact absurd hs (hb y hy)
  | assembling => simp [hs, hr, lineRank] at hle

/-- The RELEASED lines leave the queue. -/
theorem queueShape_filter_released {q : List LineRecord} {a : Assembly} (h : QueueShape a q) :
    QueueShape a (q.filter fun r => r.state != .released) := by
  obtain ⟨hrank, hfine, -, hopen⟩ := h
  have same : assemblingIn (q.filter fun r => r.state != .released) = assemblingIn q := by
    simp only [assemblingIn, List.filter_filter]
    exact List.filter_congr fun r _ => by cases r.state <;> rfl
  refine ⟨hrank.sublist (List.Sublist.map _ List.filter_sublist), fun r hr => hfine r (List.mem_filter.mp hr).1, ?_, ?_⟩
  · intro r hr
    obtain ⟨hmem, hstate⟩ := List.mem_filter.mp (List.mem_of_mem_tail hr)
    exact (hfine r hmem).2 (by simpa using hstate)
  · cases a with
    | betweenLines => exact same.trans hopen
    | assembling p n =>
      obtain ⟨x, hlast, hx⟩ := hopen
      have assembling_x : x.state = .assembling := by
        have : x ∈ assemblingIn q := by simp [hx]
        simpa using (List.mem_filter.mp this).2
      obtain rfl | ⟨before, y, rfl⟩ := queue_cases q
      · simp at hlast
      · simp only [List.getLast?_concat, Option.some.injEq] at hlast
        subst hlast
        refine ⟨y, ?_, same.trans hx⟩
        simp [List.filter_append, assembling_x]

/-! ### Lines that leave a queue or are released -/

/-- A queue after lines of it have left or have been released. -/
structure QueueThins (q q' : List LineRecord) : Prop where
  held : heldIn q' ≤ heldIn q
  empty : q = [] → q' = []
  shape : ∀ a, QueueShape a q → QueueShape a q'

theorem QueueThins.refl (q : List LineRecord) : QueueThins q q := ⟨le_refl _, id, fun _ h => h⟩

theorem QueueThins.trans {p q r : List LineRecord} (h : QueueThins p q) (k : QueueThins q r) : QueueThins p r :=
  ⟨k.held.trans h.held, fun hp => k.empty (h.empty hp), fun a ha => k.shape a (h.shape a ha)⟩

theorem queueThins_filter_released (q : List LineRecord) :
    QueueThins q (q.filter fun r => r.state != .released) :=
  ⟨by have := heldIn_filter_released q; omega, by rintro rfl; rfl, fun _ h => queueShape_filter_released h⟩

/-- The oldest COMPLETE line is discarded. -/
theorem queueThins_discard {before after : List LineRecord} {r : LineRecord} (hr : r.state = .complete) :
    QueueThins (before ++ r :: after) (before ++ after) where
  held := by simp
  empty h := by simp at h
  shape a h := by simpa using queueShape_replace (rs := []) h (by simp [hr]) (.inl rfl)

/-- The oldest COMPLETE line is released. -/
theorem queueThins_release {before after : List LineRecord} {r : LineRecord} (hr : r.state = .complete)
    (hb : NoneComplete before) (mark : Option GroupMark) :
    QueueThins (before ++ r :: after) (before ++ { r with state := .released, mark := mark } :: after) where
  held := by simp [unsent]
  empty h := by simp at h
  shape a h := by
    have fine := h.2.1 r (by simp)
    have unsent_r : r.carried = 0 := fine.2 (by simp [hr])
    have released := released_before_complete h hr hb
    have shaped := queueShape_replace (rs := [{ r with state := .released, mark := mark }]) h (by simp [hr])
      (.inr ⟨_, rfl, rfl, fine.1, fun _ => unsent_r, released⟩)
    simpa using shaped

/-- The front tile is sent. -/
theorem queueThins_takeFront {q q' : List LineRecord} {r : LineRecord} {t : Tile}
    (h : takeFront q = some (r, t, q')) : QueueThins q q' ∧ heldIn q' + 1 = heldIn q := by
  obtain ⟨before, after, rfl, hstate, hcarried, hbefore, rfl⟩ := takeFront_some h
  have one_fewer : heldIn (before ++ (if r.carried + 1 = r.tiles.length then [] else
      [{ r with carried := r.carried + 1 }]) ++ after) + 1 = heldIn (before ++ r :: after) := by
    split <;> simp [unsent] <;> omega
  refine ⟨⟨by omega, by simp, fun a ha => ?_⟩, one_fewer⟩
  have released := released_before ha hstate
  have front : before = [] := by
    cases before with
    | nil => rfl
    | cons x rest =>
      have sent := hbefore x (by simp) (released x (by simp))
      have fine := (ha.2.1 x (by simp)).1
      omega
  refine queueShape_replace ha (by simp [hstate]) ?_
  split
  · exact .inl rfl
  · exact .inr ⟨_, rfl, hstate, by simp; omega, fun hne => absurd front hne, released⟩

end Sys2Proof.Proofs

/-! # Proofs: the release unit

What a release, the evaluation of a group and the sending of tiles do to the lanes, the pool, the standings and the counters:
lines leave the line queues or are released, their buffers return, and nothing else of a lane changes. -/

namespace Sys2Proof.Proofs

open Sys2Proof.Machine Sys2Proof.Claims

variable {s t u : State} {l k : LaneId} {g : GroupId}

/-! ### The pool -/

/-- The free buffers and those that the lanes hold (R23). -/
def poolTotal (s : State) : Nat := s.poolFree + held s .l0 + held s .l1 + held s .l2 + held s .l3

theorem held_congr (h : t.lane l = s.lane l) : held t l = held s l := by rw [held, held, h]

theorem lane_congr (h : t.lanes = s.lanes) (l : LaneId) : t.lane l = s.lane l := by rw [State.lane, State.lane, h]

theorem standing_congr (h : t.release = s.release) (l : LaneId) : t.standing l = s.standing l := by
  rw [State.standing, State.standing, h]

/-- Only one lane changes, and what it gives up the pool gets. -/
theorem poolTotal_of_lane (l : LaneId) (others : ∀ k, k ≠ l → t.lane k = s.lane k)
    (exchange : t.poolFree + held t l = s.poolFree + held s l) : poolTotal t = poolTotal s := by
  have same (k : LaneId) (hk : k ≠ l) : held t k = held s k := held_congr (others k hk)
  unfold poolTotal
  cases l with
  | l0 => rw [same .l1 (by decide), same .l2 (by decide), same .l3 (by decide)]; omega
  | l1 => rw [same .l0 (by decide), same .l2 (by decide), same .l3 (by decide)]; omega
  | l2 => rw [same .l0 (by decide), same .l1 (by decide), same .l3 (by decide)]; omega
  | l3 => rw [same .l0 (by decide), same .l1 (by decide), same .l2 (by decide)]; omega

theorem poolTotal_congr (hl : t.lanes = s.lanes) (hp : t.poolFree = s.poolFree) : poolTotal t = poolTotal s := by
  simp only [poolTotal, hp, held_congr (lane_congr hl _)]

/-! ### Lines leave the queues -/

/-- Lines leave the line queues or are released, and their buffers return; nothing else of a lane changes, and no counter of
the link but the one of the notices lost. -/
structure Thins (s t : State) : Prop where
  lane : ∀ l, ∃ q, t.lane l = { s.lane l with queue := q } ∧ QueueThins (s.lane l).queue q
  pool : poolTotal t = poolTotal s
  counter : ∀ c, c ≠ .noticesLost → t.counter (.link c) = s.counter (.link c)

theorem Thins.refl (s : State) : Thins s s := ⟨fun _ => ⟨_, rfl, .refl _⟩, rfl, fun _ _ => rfl⟩

theorem Thins.trans (h : Thins s t) (k : Thins t u) : Thins s u where
  lane l := by
    obtain ⟨q, ht, hq⟩ := h.lane l
    obtain ⟨q', hu, hq'⟩ := k.lane l
    rw [ht] at hu hq'
    exact ⟨q', hu, hq.trans hq'⟩
  pool := k.pool.trans h.pool
  counter c hc := (k.counter c hc).trans (h.counter c hc)

theorem Thins.desc (h : Thins s t) (l : LaneId) : (t.lane l).desc = (s.lane l).desc := by
  obtain ⟨q, hq, -⟩ := h.lane l; rw [hq]

theorem Thins.state (h : Thins s t) (l : LaneId) : (t.lane l).state = (s.lane l).state := by
  obtain ⟨q, hq, -⟩ := h.lane l; rw [hq]

theorem Thins.with_queue (h : Thins s t) (l : LaneId) : t.lane l = { s.lane l with queue := (t.lane l).queue } := by
  obtain ⟨q, hq, -⟩ := h.lane l; rw [hq]

theorem Thins.queue (h : Thins s t) (l : LaneId) : QueueThins (s.lane l).queue (t.lane l).queue := by
  obtain ⟨q, hq, hthins⟩ := h.lane l; rw [hq]; exact hthins

/-- The lanes and the pool stand. -/
theorem thins_of_same (hl : t.lanes = s.lanes) (hp : t.poolFree = s.poolFree)
    (hc : ∀ c, c ≠ .noticesLost → t.counter (.link c) = s.counter (.link c)) : Thins s t :=
  ⟨fun l => ⟨(s.lane l).queue, by rw [lane_congr hl], .refl _⟩, poolTotal_congr hl hp, hc⟩

/-- An operation that touches neither the lanes nor the pool nor the counters. -/
theorem thins_of_only {ps : List Part} (h : OnlyChanges ps s t)
    (hp : ∀ p ∈ [Part.lanes, .poolFree, .counters], p ∉ ps := by decide) : Thins s t :=
  thins_of_same (h .lanes (hp _ (by decide))) (h .poolFree (hp _ (by decide)))
    fun _ _ => counter_of_only h _ (hp _ (by decide))

/-- Lines leave the queue of one lane. -/
theorem thins_of_queue {l : LaneId} {q : List LineRecord} (hl : t.lane l = { s.lane l with queue := q })
    (others : ∀ k, k ≠ l → t.lane k = s.lane k) (hq : QueueThins (s.lane l).queue q)
    (exchange : t.poolFree + heldIn q = s.poolFree + held s l)
    (hc : ∀ c, c ≠ .noticesLost → t.counter (.link c) = s.counter (.link c)) : Thins s t where
  lane k := by
    by_cases hk : k = l
    · subst hk; exact ⟨q, hl, hq⟩
    · exact ⟨(s.lane k).queue, by rw [others k hk], .refl _⟩
  pool := poolTotal_of_lane l others (by rw [held, hl]; exact exchange)
  counter := hc

theorem thins_bump_lane (l : LaneId) (c : LaneCounter) (s : State) : Thins s (s.bump (.lane l c)) :=
  thins_of_same (bump_only _ _ .lanes (by decide)) (bump_only _ _ .poolFree (by decide)) fun _ hc =>
    counter_bump_other (by simp) (by simpa using hc) s

theorem thins_raise (e : EventKind) (a b : Nat) (s : State) : Thins s (s.raise e a b) :=
  thins_of_same (raise_only _ _ _ _ .lanes (by decide)) (raise_only _ _ _ _ .poolFree (by decide)) fun _ hc =>
    counter_raise (by simpa using hc) e a b s

theorem thins_each {α : Type} {f : α → State → State} (h : ∀ a s, Thins s (f a s)) (xs : List α) (s : State) :
    Thins s (State.each f xs s) := by
  induction xs generalizing s with
  | nil => exact .refl s
  | cons a rest ih => exact (h a s).trans (ih _)

/-- The queue of one lane is replaced and buffers return to the pool. -/
theorem lane_requeue (l : LaneId) (q : List LineRecord) (n : Nat) (s : State) :
    ((s.modLane l fun x => { x with queue := q }).addFree n).lane l = { s.lane l with queue := q } := by
  simp [State.lane]

theorem lane_requeue_other {k l : LaneId} (hk : k ≠ l) (f : Lane → Lane) (n : Nat) (s : State) :
    ((s.modLane l f).addFree n).lane k = s.lane k := by
  simp [State.lane, perLane_get_set_other _ _ _ _ hk]

theorem thins_requeue {l : LaneId} {q : List LineRecord} {n : Nat} (hq : QueueThins (s.lane l).queue q)
    (exchange : n + heldIn q = held s l) :
    Thins s ((s.modLane l fun x => { x with queue := q }).addFree n) :=
  thins_of_queue (lane_requeue l q n s) (fun _ hk => lane_requeue_other hk _ n s) hq
    (by simp only [State.addFree, modLane_poolFree]; omega) fun _ _ => rfl

/-! ### Release of one line -/

/-- What releasing the oldest COMPLETE line can do: nothing where none waits; else the line is released or discarded, by the
discard tests (R35, R36). -/
theorem releaseOldest_cases (mark : Option GroupMark) (l : LaneId) (s : State) :
    (NoneComplete (s.lane l).queue ∧ releaseOldest mark l s = s) ∨
    ∃ before r after, (s.lane l).queue = before ++ r :: after ∧ r.state = .complete ∧ NoneComplete before ∧
      ((discardTest s l r.pos.line = none ∧ releaseOldest mark l s =
          s.modLane l fun x => { x with queue := before ++ { r with state := .released, mark := mark } :: after }) ∨
        ∃ c, discardTest s l r.pos.line = some c ∧ releaseOldest mark l s =
          ((s.modLane l fun x => { x with queue := before ++ after }).addFree (unsent r)).bump (.lane l c)) := by
  cases hsplit : splitComplete (s.lane l).queue with
  | none => exact .inl ⟨splitComplete_none hsplit, by simp [releaseOldest, hsplit]⟩
  | some x =>
    obtain ⟨before, r, after⟩ := x
    obtain ⟨hq, hr, hb⟩ := splitComplete_some hsplit
    refine .inr ⟨before, r, after, hq, hr, hb, ?_⟩
    cases hd : discardTest s l r.pos.line with
    | none => exact .inl ⟨rfl, by simp [releaseOldest, hsplit, hd]⟩
    | some c => exact .inr ⟨c, rfl, by simp [releaseOldest, hsplit, hd]⟩

/-- The counters of the discard tests (Table 3-1). -/
def ReleaseCounter : CounterId → Prop
  | .lane _ c => c = .uncarriedLines ∨ c = .shedLines ∨ c = .thinnedLines
  | .link c => c = .noticesLost
  | _ => False

theorem discardTest_counter {line : Nat} {c : LaneCounter} (h : discardTest s l line = some c) :
    ReleaseCounter (.lane l c) := by
  unfold discardTest at h
  split at h
  · cases h; exact .inl rfl
  · split at h
    · cases h; exact .inl rfl
    · split at h
      · cases h; exact .inr (.inl rfl)
      · split at h
        · cases h; exact .inr (.inr rfl)
        · cases h
      · cases h

theorem releaseOldest_thins (mark : Option GroupMark) (l : LaneId) (s : State) : Thins s (releaseOldest mark l s) := by
  obtain ⟨-, h⟩ | ⟨before, r, after, hq, hr, hb, ⟨-, h⟩ | ⟨c, -, h⟩⟩ := releaseOldest_cases mark l s
  · rw [h]; exact .refl s
  · rw [h]
    refine thins_of_queue (q := before ++ { r with state := .released, mark := mark } :: after) ?_
      (fun k hk => lane_modLane_other l k _ s hk) ?_ ?_ fun _ _ => rfl
    · exact lane_modLane_same l _ s
    · rw [hq]; exact queueThins_release hr hb mark
    · simp [held, hq, unsent]
  · rw [h]
    refine (thins_requeue ?_ ?_).trans (thins_bump_lane l c _)
    · rw [hq]; exact queueThins_discard hr
    · simp [held, hq]; omega

/-! ### Evaluation -/

/-- What the evaluation of a group does, `M` being its members: the lanes outside it stand with their standings and their
counters; so does a lane without a COMPLETE line, but for its standing; a lane that neither runs nor is IN_STEP keeps its
standing; and only lines that the discard tests take are counted (R44 to R50). -/
structure Evaluates (M : LaneId → Prop) (s t : State) : Prop where
  thins : Thins s t
  outside : ∀ l, ¬ M l → t.lane l = s.lane l ∧ t.standing l = s.standing l ∧
    ∀ n, t.counter (.lane l n) = s.counter (.lane l n)
  waiting : ∀ l, NoneComplete (s.lane l).queue → t.lane l = s.lane l ∧ ∀ n, t.counter (.lane l n) = s.counter (.lane l n)
  standing : ∀ l, (s.lane l).state ≠ .running → s.standing l ≠ some .inStep → t.standing l = s.standing l
  counter : ∀ id, ¬ ReleaseCounter id → t.counter id = s.counter id

variable {M : LaneId → Prop}

theorem Evaluates.refl (M : LaneId → Prop) (s : State) : Evaluates M s s :=
  ⟨.refl s, fun _ _ => ⟨rfl, rfl, fun _ => rfl⟩, fun _ _ => ⟨rfl, fun _ => rfl⟩, fun _ _ _ => rfl, fun _ _ => rfl⟩

theorem Evaluates.trans (h : Evaluates M s t) (k : Evaluates M t u) : Evaluates M s u where
  thins := h.thins.trans k.thins
  outside l hl := by
    obtain ⟨h1, h2, h3⟩ := h.outside l hl
    obtain ⟨k1, k2, k3⟩ := k.outside l hl
    exact ⟨k1.trans h1, k2.trans h2, fun n => (k3 n).trans (h3 n)⟩
  waiting l hl := by
    obtain ⟨h1, h2⟩ := h.waiting l hl
    obtain ⟨k1, k2⟩ := k.waiting l (h1 ▸ hl)
    exact ⟨k1.trans h1, fun n => (k2 n).trans (h2 n)⟩
  standing l hr hs := by
    have same := h.standing l hr hs
    exact (k.standing l (by rwa [h.thins.state]) (by rwa [same])).trans same
  counter id hid := (k.counter id hid).trans (h.counter id hid)

theorem Evaluates.mono {N : LaneId → Prop} (h : Evaluates M s t) (hMN : ∀ l, M l → N l) : Evaluates N s t :=
  { h with outside := fun l hl => h.outside l fun hM => hl (hMN l hM) }

/-- The lanes and the standings stand, and at most a notice is lost. -/
theorem evaluates_of_same (hl : t.lanes = s.lanes) (hp : t.poolFree = s.poolFree) (hs : ∀ l, t.standing l = s.standing l)
    (hc : ∀ id, id ≠ .link .noticesLost → t.counter id = s.counter id) : Evaluates M s t where
  thins := thins_of_same hl hp fun c h => hc _ (by simpa using h)
  outside l _ := ⟨lane_congr hl l, hs l, fun _ => hc _ (by simp)⟩
  waiting l _ := ⟨lane_congr hl l, fun _ => hc _ (by simp)⟩
  standing l _ _ := hs l
  counter id h := hc id (by rintro rfl; exact h rfl)

theorem evaluates_raise (e : EventKind) (a b : Nat) (s : State) : Evaluates M s (s.raise e a b) :=
  have only := raise_only e a b s
  evaluates_of_same (only .lanes (by decide)) (only .poolFree (by decide))
    (standing_congr (only .release (by decide))) fun _ hc => counter_raise hc e a b s

theorem evaluates_cursor (g : GroupId) (p : Option Position) (s : State) :
    Evaluates M s (s.modGroup g fun x => { x with cursor := p }) :=
  evaluates_of_same rfl rfl (fun _ => rfl) fun _ _ => rfl

theorem evaluates_skew (g : GroupId) (n : Nat) (s : State) :
    Evaluates M s (s.modGroup g fun x => { x with skew := n }) :=
  evaluates_of_same rfl rfl (fun _ => rfl) fun _ _ => rfl

theorem releaseOldest_evaluates (mark : Option GroupMark) (hM : M l) (s : State) :
    Evaluates M s (releaseOldest mark l s) := by
  have only := releaseOldest_only mark l s
  have other (k : LaneId) (hk : k ≠ l) : (releaseOldest mark l s).lane k = s.lane k ∧
      ∀ n, (releaseOldest mark l s).counter (.lane k n) = s.counter (.lane k n) := by
    obtain ⟨-, h⟩ | ⟨before, r, after, -, -, -, ⟨-, h⟩ | ⟨c, -, h⟩⟩ := releaseOldest_cases mark l s
    · rw [h]; exact ⟨rfl, fun _ => rfl⟩
    · rw [h]; exact ⟨lane_modLane_other l k _ s hk, fun _ => rfl⟩
    · rw [h]
      refine ⟨(lane_congr (bump_only _ _ .lanes (by decide)) k).trans (lane_requeue_other hk _ _ s), fun n => ?_⟩
      exact (counter_bump_other (by simp [hk]) (by simp) _).trans rfl
  have idle (h : NoneComplete (s.lane l).queue) : releaseOldest mark l s = s := by
    simp [releaseOldest, splitComplete_of_none h]
  exact
    { thins := releaseOldest_thins mark l s
      outside := fun k hk => by
        obtain ⟨hlane, hcounter⟩ := other k (by rintro rfl; exact hk hM)
        exact ⟨hlane, standing_congr (only .release (by decide)) k, hcounter⟩
      waiting := fun k hk => by
        by_cases hkl : k = l
        · subst hkl; rw [idle hk]; exact ⟨rfl, fun _ => rfl⟩
        · exact other k hkl
      standing := fun k _ _ => standing_congr (only .release (by decide)) k
      counter := fun id hid => by
        obtain ⟨-, h⟩ | ⟨before, r, after, -, -, -, ⟨-, h⟩ | ⟨c, hc, h⟩⟩ := releaseOldest_cases mark l s
        · rw [h]
        · rw [h]; rfl
        · rw [h]
          refine (counter_bump_other ?_ ?_ _).trans rfl
          · rintro rfl; exact hid (discardTest_counter hc)
          · rintro rfl; exact hid rfl }

theorem releaseMany_evaluates (mark : Option GroupMark) (hM : M l) (n : Nat) (s : State) :
    Evaluates M s (releaseMany mark l n s) := by
  induction n generalizing s with
  | zero => exact .refl M s
  | succ n ih => exact (releaseOldest_evaluates mark hM s).trans (ih _)

/-- Operations for the items of a list, each allowed in the states that the ones before it can leave. -/
theorem evaluates_each {α : Type} {f : α → State → State} {xs : List α}
    (h : ∀ a ∈ xs, ∀ u, Evaluates M s u → Evaluates M s (f a u)) (hu : Evaluates M s u) :
    Evaluates M s (State.each f xs u) := by
  induction xs generalizing u with
  | nil => exact hu
  | cons a rest ih =>
    exact ih (fun b hb => h b (List.mem_cons_of_mem a hb)) (h a List.mem_cons_self u hu)

theorem standing_setStanding_same (l : LaneId) (v : Option Standing) (s : State) : (s.setStanding l v).standing l = v := by
  simp [State.standing]

theorem standing_setStanding_other (h : k ≠ l) (v : Option Standing) (s : State) :
    (s.setStanding l v).standing k = s.standing k := by
  simp [State.standing, perLane_get_set_other _ _ _ _ h]

/-- A member that runs, or that is IN_STEP, gets a new standing. -/
theorem evaluates_setStanding (hM : M l) (hl : (s.lane l).state = .running ∨ s.standing l = some .inStep)
    (v : Option Standing) (hu : Evaluates M s u) : Evaluates M s (u.setStanding l v) where
  thins := hu.thins.trans (thins_of_only (setStanding_only l v u))
  outside k hk := by
    have hkl : k ≠ l := by rintro rfl; exact hk hM
    rw [standing_setStanding_other hkl]
    exact hu.outside k hk
  waiting := hu.waiting
  standing k hr hs := by
    have hkl : k ≠ l := by
      rintro rfl
      exact hl.elim hr hs
    rw [standing_setStanding_other hkl]
    exact hu.standing k hr hs
  counter := hu.counter

theorem mem_members : l ∈ members s g ↔ groupOf (s.lane l).desc = some g := by
  have listed : l ∈ laneIds := by cases l <;> decide
  simp [members, List.mem_filter, listed]

theorem Evaluates.members_eq (h : Evaluates M s t) (g : GroupId) : members t g = members s g := by
  simp only [members, h.thins.desc]

theorem evaluatePass_evaluates {c : Position} (h : evaluatePass g c s = some t) :
    Evaluates (· ∈ members s g) s t := by
  have present (p : LaneId → Bool) (l : LaneId) (hl : l ∈ (members s g).filter p) : l ∈ members s g :=
    (List.mem_filter.mp hl).1
  unfold evaluatePass at h
  simp only at h
  split at h
  · rename_i l hfind
    cases h
    exact releaseOldest_evaluates _ (List.mem_of_find?_eq_some hfind) s
  · split at h
    · split at h
      · split at h
        · cases h
        · cases h
          exact evaluates_cursor g _ s
      · cases h
        refine .trans (evaluates_each ?_ (evaluates_each ?_ (.refl _ s))) (evaluates_cursor g _ _)
        · intro l hl u hu
          obtain ⟨hl, hrun⟩ := List.mem_filter.mp hl
          simp only [Bool.and_eq_true, isRunning, beq_iff_eq] at hrun
          exact (evaluates_setStanding (present _ l hl) (.inl hrun.2) _ hu).trans (evaluates_raise _ _ _ _)
        · intro l hl u hu
          exact hu.trans (releaseOldest_evaluates _ (present _ l hl) u)
    · split at h
      · cases h
        refine evaluates_each (fun l hl u hu => ?_) (.refl _ s)
        have hstep := (List.mem_filter.mp hl).2
        simp only [Bool.and_eq_true, isInStep, beq_iff_eq] at hstep
        exact (evaluates_setStanding (present _ l hl) (.inr hstep.2) _ hu).trans (evaluates_raise _ _ _ _)
      · cases h

theorem evaluateLoop_evaluates (g : GroupId) (n : Nat) (s : State) :
    Evaluates (· ∈ members s g) s (evaluateLoop g n s) := by
  induction n generalizing s with
  | zero => exact .refl _ s
  | succ n ih =>
    unfold evaluateLoop
    split
    · exact .refl _ s
    · split
      · exact .refl _ s
      · rename_i u hu
        have pass := evaluatePass_evaluates hu
        exact pass.trans (pass.members_eq g ▸ ih u)

theorem evaluate_evaluates (g : GroupId) (s : State) : Evaluates (· ∈ members s g) s (evaluate g s) := by
  unfold evaluate
  simp only
  split
  · split
    · exact evaluateLoop_evaluates g _ s
    · split
      · exact .refl _ s
      · rename_i p _ _
        exact (evaluates_cursor g (some p) s).trans
          (evaluateLoop_evaluates g _ (s.modGroup g fun x => { x with cursor := some p }))
  · exact evaluates_each (fun l hl u hu => hu.trans (releaseMany_evaluates _ hl _ u)) (evaluates_cursor g _ s)

theorem evaluateOption_evaluates (g : Option GroupId) (s : State) :
    Evaluates (fun l => ∃ j, g = some j ∧ groupOf (s.lane l).desc = some j) s (evaluateOption g s) := by
  cases g with
  | none => exact .refl _ s
  | some g => exact (evaluate_evaluates g s).mono fun l hl => ⟨g, rfl, mem_members.mp hl⟩

theorem evaluateLane_evaluates (l : LaneId) (s : State) : Evaluates (fun _ => True) s (evaluateLane l s) := by
  unfold evaluateLane
  split
  · exact .refl _ s
  · exact (evaluate_evaluates _ s).mono fun _ _ => trivial

theorem lineCompleted_evaluates (l : LaneId) (s : State) : Evaluates (fun _ => True) s (lineCompleted l s) := by
  unfold lineCompleted
  split
  · exact releaseOldest_evaluates _ trivial s
  · exact (evaluate_evaluates _ s).mono fun _ _ => trivial

/-! ### Discards and sending -/

theorem thins_countCut (l : LaneId) (q : List LineRecord) (s : State) : Thins s (countCut l q s) := by
  unfold countCut
  split
  · exact thins_bump_lane l _ s
  · exact .refl s

theorem discardReleased_thins (l : LaneId) (s : State) : Thins s (discardReleased l s) :=
  (thins_requeue (queueThins_filter_released (s.lane l).queue) (heldIn_filter_released _)).trans (thins_countCut _ _ _)

theorem sendTiles_thins (slot : TileLabel → List Sample → DataSlot) (entry : Nat) (l : LaneId) (n : Nat) (s : State) :
    Thins s (sendTiles slot entry l n s).2 := by
  induction n generalizing s with
  | zero => exact .refl s
  | succ n ih =>
    unfold sendTiles
    split
    · exact .refl s
    · rename_i r x q hfront
      obtain ⟨hq, hheld⟩ := queueThins_takeFront hfront
      exact (thins_requeue hq (by simp only [held]; omega)).trans (ih _)

theorem creditPass_thins (i : Nat) (es : List Entry) (rs : List Runtime) (free : Nat) (s : State) :
    Thins s (creditPass i es rs free s).state := by
  induction es generalizing i rs free s with
  | nil => exact .refl s
  | cons e es ih =>
    cases rs with
    | nil => exact .refl s
    | cons r rs =>
      unfold creditPass
      split
      · exact ih _ _ _ _
      · exact (sendTiles_thins _ _ _ _ _).trans (ih _ _ _ _)

theorem drainPass_thins (i : Nat) (es : List Entry) (rs : List Runtime) (free : Nat) (s : State) :
    Thins s (drainPass i es rs free s).2.2 := by
  induction es generalizing i rs free s with
  | nil => exact .refl s
  | cons e es ih =>
    cases rs with
    | nil => exact .refl s
    | cons r rs =>
      unfold drainPass
      split
      · exact (sendTiles_thins _ _ _ _ _).trans (ih _ _ _ _)
      · exact ih _ _ _ _

theorem fill_thins (s : State) : Thins s (fill s).2 :=
  ((creditPass_thins _ _ _ _ _).trans (drainPass_thins _ _ _ _ _)).trans (thins_of_only (modBuilder_only _ _))

/-! ### A frame event -/

theorem thins_ite {c : Prop} [Decidable c] {a b : State} (ha : Thins s a) (hb : Thins s b) :
    Thins s (if c then a else b) := by
  split
  · exact ha
  · exact hb

theorem assess_thins (s : State) : Thins s (assess s) := by
  have cut (f : Builder → Builder) (ls : List LaneId) : Thins s (State.each discardReleased ls (s.modBuilder f)) :=
    (thins_of_only (modBuilder_only f s)).trans (thins_each discardReleased_thins ls _)
  have changed {v : State} {c : Prop} [Decidable c] (hv : Thins s v) (e : EventKind) (a b : Nat) :
      Thins s (if c then v else v.raise e a b) := thins_ite hv (hv.trans (thins_raise e a b v))
  unfold assess
  exact thins_ite ((changed (cut _ _) _ _ _).trans (thins_raise _ _ _ _)) (changed (cut _ _) _ _ _)

theorem takeSwitch_thins (s : State) : Thins s (takeSwitch s) := by
  have switched (f : PlanStore → PlanStore) (h : Builder → Builder) (ls : List LaneId) (e : EventKind) (a b : Nat) :
      Thins s ((State.each discardReleased ls ((s.modPlan f).modBuilder h)).raise e a b) :=
    (((thins_of_only (modPlan_only f s)).trans (thins_of_only (modBuilder_only h _))).trans
      (thins_each discardReleased_thins ls _)).trans (thins_raise e a b _)
  unfold takeSwitch
  cases s.plan.due with
  | none => exact .refl s
  | some d =>
    exact thins_ite
      ((thins_ite ((switched _ _ _ _ _ _).trans (thins_of_only (announceInForce_only _))) (switched _ _ _ _ _ _)).trans
        (thins_of_only (startEcho_only _)))
      ((switched _ _ _ _ _ _).trans (thins_of_only (stopEcho_only _)))

theorem applyDueClass_thins (s : State) : Thins s (applyDueClass s) := by
  unfold applyDueClass
  split
  · exact ((thins_of_only (modLink_only _ s)).trans (thins_raise _ _ _ _)).trans
      (thins_of_only (proposalToNone_only _ _))
  · exact .refl s

theorem prepareUp_thins (switched : Bool) (s : State) : Thins s (prepareUp switched s) := by
  have applied : Thins s ((applyDueClass s).modBuilder fun b =>
      { b with classApplied := (applyDueClass s).link.classInForce }) :=
    (applyDueClass_thins s).trans (thins_of_only (modBuilder_only _ _))
  unfold prepareUp
  exact (thins_ite (applied.trans (assess_thins _)) applied).trans (thins_of_only (modBuilder_only _ _))

theorem echoExpire_thins (repeats : Nat) (last : Option Byte) (s : State) : Thins s (echoExpire repeats last s) := by
  have announced : Thins s (announceInForce s) := thins_of_only (announceInForce_only s)
  unfold echoExpire
  exact (thins_ite ((announced.trans (thins_of_only (modPlan_only _ _))).trans (thins_raise _ _ _ _)) announced).trans
    (thins_of_only (modPlan_only _ _))

theorem echoTick_thins (s : State) : Thins s (echoTick s) := by
  unfold echoTick
  split
  · exact .refl s
  · exact thins_ite (echoExpire_thins _ _ s) (thins_of_only (modPlan_only _ s))

theorem handOverUp_thins (switched : Bool) (s : State) : Thins s (handOverUp switched s) := by
  have counted : Thins s (auxLeave ((classCountTick (countdownTick s)).modLink fun c => { c with pendingRefusal := false })) :=
    (((thins_of_only (countdownTick_only s)).trans (thins_of_only (classCountTick_only _))).trans
      (thins_of_only (modLink_only _ _))).trans (thins_of_only (auxLeave_only _))
  unfold handOverUp
  exact thins_ite counted (counted.trans (echoTick_thins _))

theorem carriageFrame_thins (switched : Bool) (s : State) : Thins s (carriageFrame switched s) := by
  unfold carriageFrame
  exact ((((prepareUp_thins _ s).trans (fill_thins _)).trans (thins_of_only (chooseCell_only _))).trans
    (thins_of_only (handToLine_only _ _))).trans (handOverUp_thins _ _)

theorem enterUp_thins (s : State) : Thins s (enterUp s) := by
  unfold enterUp
  exact ((((thins_of_only (modLink_only _ s)).trans (thins_of_only (modBuilder_only _ _))).trans
    (thins_raise _ _ _ _)).trans (thins_of_only (announceInForce_only _))).trans (thins_of_only (startEcho_only _))

theorem trainTick_thins (s : State) : Thins s (trainTick s) :=
  thins_ite (enterUp_thins s) (thins_of_only (modLink_only _ s))

theorem trainingFrame_thins (s : State) : Thins s (trainingFrame s) := by
  have sent (f : Frame) : Thins s (countdownTick (handToLine f (chooseCell s).2)) :=
    ((thins_of_only (chooseCell_only s)).trans (thins_of_only (handToLine_only f _))).trans
      (thins_of_only (countdownTick_only _))
  unfold trainingFrame
  exact thins_ite ((sent _).trans (trainTick_thins _)) (sent _)

theorem countTile_thins (errored : Bool) (s : State) : Thins s (countTile errored s) := by
  have kept (f : TestUnit → TestUnit) : Thins s (s.modTest f) := thins_of_only (modTest_only f s)
  unfold countTile
  simp only
  split
  · split
    · exact kept _
    · split
      · exact kept _
      · exact (kept _).trans (thins_raise _ _ _ _)
  · exact kept _

theorem checkSlot_thins (d : DataSlot) (s : State) : Thins s (checkSlot d s) := by
  unfold checkSlot
  split
  · exact countTile_thins _ s
  · exact .refl s

theorem testFrame_thins (s : State) : Thins s (testFrame s) := by
  have chosen (f : TestUnit → TestUnit) : Thins s ((chooseCell s).2.modTest f) :=
    (thins_of_only (chooseCell_only s)).trans (thins_of_only (modTest_only f _))
  unfold testFrame
  exact (thins_ite ((chosen _).trans (thins_each checkSlot_thins _ _))
    ((chosen _).trans (thins_of_only (handToLine_only _ _)))).trans (thins_of_only (countdownTick_only _))

theorem frameEvent_thins (s : State) : Thins s (frameEvent s) := by
  have switched : Thins s (takeSwitch (countFrame s)) :=
    (thins_of_only (countFrame_only s)).trans (takeSwitch_thins _)
  unfold frameEvent
  simp only
  split
  · exact switched.trans (carriageFrame_thins _ _)
  · exact switched.trans (trainingFrame_thins _)
  · exact switched.trans (trainingFrame_thins _)
  · exact switched.trans (trainingFrame_thins _)
  · exact switched.trans (testFrame_thins _)
  · exact switched
  · exact switched

end Sys2Proof.Proofs

/-! # Proofs: line assembly

What placing tiles does to the line in assembly, in equations: as many tiles as the pool can give buffers for join it, and
where one cannot be had the line is dropped whole (R17, R19, R25). The records follow, for they commute with the rest. -/

namespace Sys2Proof.Proofs

open Sys2Proof.Machine Sys2Proof.Claims

variable {s : State} {l : LaneId} {before : List LineRecord} {r : LineRecord} {ts : List Tile}

/-! ### One lane of the four -/

@[simp] theorem perLane_set_get {α : Type} (p : PerLane α) (l : LaneId) : p.set l (p.get l) = p := by
  cases l <;> rfl

@[simp] theorem perLane_set_set {α : Type} (p : PerLane α) (l : LaneId) (v w : α) : (p.set l v).set l w = p.set l w := by
  cases l <;> rfl

@[simp] theorem lane_setLane_same (l : LaneId) (x : Lane) (s : State) : (setLane l x s).lane l = x := by
  simp [State.lane, setLane]

theorem lane_setLane_other {k l : LaneId} (h : k ≠ l) (x : Lane) (s : State) : (setLane l x s).lane k = s.lane k := by
  simp [State.lane, setLane, perLane_get_set_other _ _ _ _ h]

/-- Changing a lane is putting the changed lane in its place. -/
theorem modLane_eq_setLane (l : LaneId) (f : Lane → Lane) (s : State) : s.modLane l f = setLane l (f (s.lane l)) s := rfl

@[simp] theorem setLane_setLane (l : LaneId) (x y : Lane) (s : State) : setLane l x (setLane l y s) = setLane l x s := by
  simp [setLane]

@[simp] theorem setLane_self (l : LaneId) (s : State) : setLane l (s.lane l) s = s := by
  simp [setLane, State.lane]

/-! ### Recording leaves the lanes, the pool and the pins alone -/

section
variable {f : State → State}

theorem Recording.lane (hf : Recording f) (s : State) (l : LaneId) : (f s).lane l = s.lane l := by rw [hf.eq_onto]; rfl
theorem Recording.lanes (hf : Recording f) (s : State) : (f s).lanes = s.lanes := by rw [hf.eq_onto]; rfl
theorem Recording.poolFree (hf : Recording f) (s : State) : (f s).poolFree = s.poolFree := by rw [hf.eq_onto]; rfl
theorem Recording.pins (hf : Recording f) (s : State) : (f s).pins = s.pins := by rw [hf.eq_onto]; rfl
theorem Recording.held (hf : Recording f) (s : State) (l : LaneId) : held (f s) l = held s l := held_congr (hf.lane s l)

theorem Recording.room (hf : Recording f) (s : State) (l : LaneId) : room (f s) l = room s l := by
  simp only [Claims.room, hf.lane, hf.held, hf.poolFree]

theorem Recording.setLane (hf : Recording f) (l : LaneId) (x : Lane) (s : State) :
    f (setLane l x s) = setLane l x (f s) := hf.comm (setLane_apart l x) s

theorem Recording.modLane (hf : Recording f) (l : LaneId) (h : Lane → Lane) (s : State) :
    f (s.modLane l h) = (f s).modLane l h := hf.comm (modLane_apart l h) s

theorem Recording.each {α : Type} {f : α → State → State} (h : ∀ a, Recording (f a)) (xs : List α) :
    Recording (State.each f xs) := by
  induction xs with
  | nil => exact recording_id
  | cons a rest ih => exact ih.comp (h a)

end

/-! ### The counts of tiles -/

/-- The count of a tile that is placed (R14, R17). -/
def noteTile (l : LaneId) (t : Tile) (s : State) : State :=
  if t.filled then s.bump (.lane l .fillTiles) else if t.damaged then s.bump (.lane l .damagedTiles) else s

theorem noteTile_recording (l : LaneId) (t : Tile) : Recording (noteTile l t) :=
  .ite (fun _ _ => Iff.rfl) (bump_recording _) (.ite (fun _ _ => Iff.rfl) (bump_recording _) recording_id)

/-- The counts of the tiles that are placed, in their order. -/
def noteTiles (l : LaneId) (ts : List Tile) : State → State := State.each (noteTile l) ts

theorem noteTiles_recording (l : LaneId) (ts : List Tile) : Recording (noteTiles l ts) :=
  .each (noteTile_recording l) ts

@[simp] theorem noteTiles_nil (l : LaneId) (s : State) : noteTiles l [] s = s := rfl

theorem noteTiles_append (l : LaneId) (as bs : List Tile) (s : State) :
    noteTiles l (as ++ bs) s = noteTiles l bs (noteTiles l as s) := by
  induction as generalizing s with
  | nil => rfl
  | cons a as ih => exact ih _

/-- Fill tiles are counted one by one. -/
theorem noteTiles_filled (h : ∀ t ∈ ts, t.filled = true) (s : State) :
    noteTiles l ts s = bumps ts.length (.lane l .fillTiles) s := by
  induction ts generalizing s with
  | nil => rfl
  | cons t ts ih =>
    have filled : noteTile l t s = s.bump (.lane l .fillTiles) := by simp [noteTile, h t]
    rw [List.length_cons, bumps, ← filled]
    exact ih (fun x hx => h x (List.mem_cons_of_mem t hx)) _

theorem noteTiles_arrived (l : LaneId) (b : Burst) (s : State) :
    noteTiles l [arrived b] s = if b.ok then s else s.bump (.lane l .damagedTiles) := by
  cases h : b.ok <;> simp [noteTiles, State.each, noteTile, arrived, h]

theorem fillTiles_eq_fillers (start stop : Nat) : Machine.fillTiles start stop = fillers start stop := by
  simp only [fillTiles, fillers, List.range'_eq_map_range, List.map_map]
  rfl

theorem tileOf_eq_arrived (b : Burst) : tileOf b = arrived b := rfl

@[simp] theorem length_fillers (start stop : Nat) : (fillers start stop).length = stop - start := by simp [fillers]

theorem filled_of_mem_fillers {start stop : Nat} {t : Tile} (h : t ∈ fillers start stop) : t.filled = true := by
  obtain ⟨i, -, rfl⟩ := List.mem_map.mp h
  rfl

/-! ### Placing tiles -/

/-- The line in assembly with more tiles, each with a buffer from the pool; nothing is counted yet. -/
def grown (l : LaneId) (before : List LineRecord) (r : LineRecord) (ts : List Tile) (s : State) : State :=
  { setLane l { s.lane l with queue := before ++ [{ r with tiles := r.tiles ++ ts }] } s with
    poolFree := s.poolFree - ts.length }

theorem grown_apart (l : LaneId) (before : List LineRecord) (r : LineRecord) (ts : List Tile) :
    Apart (grown l before r ts) := fun _ _ => rfl

theorem grown_nil (hq : (s.lane l).queue = before ++ [r]) : grown l before r [] s = s := by
  have same : { s.lane l with queue := before ++ [{ r with tiles := r.tiles ++ [] }] } = s.lane l := by
    simp [← hq]
  rw [grown, same, setLane_self]
  rfl

theorem grown_lane (l : LaneId) (before : List LineRecord) (r : LineRecord) (ts : List Tile) (s : State) :
    (grown l before r ts s).lane l = { s.lane l with queue := before ++ [{ r with tiles := r.tiles ++ ts }] } :=
  lane_setLane_same l _ s

theorem grown_lane_other {k : LaneId} (h : k ≠ l) : (grown l before r ts s).lane k = s.lane k :=
  lane_setLane_other h _ s

theorem grown_grown (as bs : List Tile) (s : State) :
    grown l before { r with tiles := r.tiles ++ as } bs (grown l before r as s) = grown l before r (as ++ bs) s := by
  rw [grown, grown_lane]
  simp only [grown, setLane, perLane_set_set, List.append_assoc, List.length_append, Nat.sub_sub]

theorem appendTile_eq (hq : (s.lane l).queue = before ++ [r]) (t : Tile) :
    appendTile l t s = noteTile l t (grown l before r [t] s) := by
  simp only [appendTile, modLane_eq_setLane, hq, modNewest_concat]
  rfl

/-- Each tile takes one of the buffers that the lane can still be given. -/
theorem room_grown (hq : (s.lane l).queue = before ++ [r]) (hc : r.carried ≤ r.tiles.length) (ts : List Tile) :
    room (grown l before r ts s) l = room s l - ts.length := by
  have grown_held : held (grown l before r ts s) l = held s l + ts.length := by
    simp only [held, grown_lane, hq, heldIn_append, heldIn_cons, heldIn_nil, unsent, List.length_append]
    omega
  have grown_free : (grown l before r ts s).poolFree = s.poolFree - ts.length := rfl
  simp only [room, grown_lane, grown_held, grown_free]
  omega

theorem bufferGranted_iff (s : State) (l : LaneId) : bufferGranted s l = true ↔ 0 < room s l := by
  simp only [bufferGranted, room, decide_eq_true_eq]
  omega

/-- Tiles that all find a buffer join the line. -/
theorem placeTiles_fits (hq : (s.lane l).queue = before ++ [r]) (hc : r.carried ≤ r.tiles.length)
    (hn : ts.length ≤ room s l) : placeTiles l ts s = (noteTiles l ts (grown l before r ts s), true) := by
  induction ts generalizing s r with
  | nil => rw [grown_nil hq]; rfl
  | cons t ts ih =>
    have granted : bufferGranted s l = true := (bufferGranted_iff s l).mpr (by simp at hn; omega)
    have note := noteTile_recording l t
    have room_left : room (noteTile l t (grown l before r [t] s)) l = room s l - 1 := by
      rw [note.room, room_grown hq hc]; rfl
    rw [placeTiles, if_pos granted, appendTile_eq hq, ih (r := { r with tiles := r.tiles ++ [t] })]
    · rw [← note.comm (grown_apart l before _ ts), grown_grown]
      rfl
    · rw [note.lane, grown_lane]
    · simp; omega
    · rw [room_left]; simp at hn; omega

theorem placeTiles_append (l : LaneId) (as bs : List Tile) (s : State) :
    placeTiles l (as ++ bs) s =
      if (placeTiles l as s).2 then placeTiles l bs (placeTiles l as s).1 else ((placeTiles l as s).1, false) := by
  induction as generalizing s with
  | nil => rfl
  | cons a as ih =>
    rw [List.cons_append, placeTiles, placeTiles]
    split
    · exact ih _
    · rfl

/-- The line in assembly gone whole, its buffers back and the drop mark set; nothing is counted yet. -/
def discarded (l : LaneId) (before : List LineRecord) (r : LineRecord) (s : State) : State :=
  { setLane l { s.lane l with assembly := .betweenLines, dropMark := some r.pos, queue := before } s with
    poolFree := s.poolFree + unsent r }

theorem discarded_apart (l : LaneId) (before : List LineRecord) (r : LineRecord) : Apart (discarded l before r) :=
  fun _ _ => rfl

theorem dropLine_eq (hq : (s.lane l).queue = before ++ [r]) :
    dropLine l s = (discarded l before r s).bump (.lane l .lineDrops) := by
  rw [dropLine, hq, splitNewest_concat]
  rfl

/-- Dropping the line returns the buffers that it has just been given with the others. -/
theorem discarded_grown (hc : r.carried ≤ r.tiles.length) (hn : ts.length ≤ s.poolFree) :
    discarded l before { r with tiles := r.tiles ++ ts } (grown l before r ts s) = discarded l before r s := by
  have free : s.poolFree - ts.length + (r.tiles.length + ts.length - r.carried) =
      s.poolFree + (r.tiles.length - r.carried) := by omega
  rw [discarded, grown_lane]
  simp only [grown, discarded, setLane, perLane_set_set, unsent, List.length_append, free]

/-- At the first tile that cannot have a buffer the line is dropped whole; the tiles before it have been counted. -/
theorem placeTiles_short (hq : (s.lane l).queue = before ++ [r]) (hc : r.carried ≤ r.tiles.length)
    (hn : room s l < ts.length) :
    placeTiles l ts s =
      ((noteTiles l (ts.take (room s l)) (discarded l before r s)).bump (.lane l .lineDrops), false) := by
  obtain ⟨t, rest, hrest⟩ : ∃ t rest, ts.drop (room s l) = t :: rest := by
    cases h : ts.drop (room s l) with
    | nil => simp at h; omega
    | cons t rest => exact ⟨t, rest, rfl⟩
  have taken : (ts.take (room s l)).length = room s l := by simp; omega
  have note := noteTiles_recording l (ts.take (room s l))
  have placed := placeTiles_fits hq hc (ts := ts.take (room s l)) taken.le
  have full : room (noteTiles l (ts.take (room s l)) (grown l before r (ts.take (room s l)) s)) l = 0 := by
    rw [note.room, room_grown hq hc, taken]; omega
  have within : (ts.take (room s l)).length ≤ s.poolFree := by rw [taken]; exact min_le_right _ _
  conv_lhs => rw [← List.take_append_drop (room s l) ts, placeTiles_append, placed, hrest]
  rw [if_pos rfl, placeTiles, if_neg (by rw [bufferGranted_iff, full]; omega),
    dropLine_eq (before := before) (r := { r with tiles := r.tiles ++ ts.take (room s l) })
      (by rw [note.lane, grown_lane]),
    ← note.comm (discarded_apart l before _), discarded_grown hc within]

/-! ### In the words of the statements -/

/-- A line that is dropped after fill tiles alone. -/
theorem droppedLine_eq (hc : r.carried = 0) (n : Nat) (s : State) :
    (bumps n (.lane l .fillTiles) (discarded l before r s)).bump (.lane l .lineDrops) = droppedLine l before r n s := by
  simp only [droppedLine, discarded, unsent, hc, Nat.sub_zero]

/-- What the line becomes, and the assembly with it, is written after the tiles are placed; the records commute. -/
theorem modLane_grown (f : Lane → Lane) (l : LaneId) (before : List LineRecord) (r : LineRecord) (ts : List Tile)
    (s : State) :
    (grown l before r ts s).modLane l f =
      { setLane l (f { s.lane l with queue := before ++ [{ r with tiles := r.tiles ++ ts }] }) s with
        poolFree := s.poolFree - ts.length } := by
  rw [modLane_eq_setLane, grown_lane]
  simp only [grown, setLane, perLane_set_set]

theorem withTiles_setLane (l : LaneId) (before : List LineRecord) (r : LineRecord) (a : Assembly) (x : Lane) (s : State)
    (n : Nat) :
    withTiles l before r a (setLane l x s) n =
      { setLane l { x with assembly := a, queue := before ++ [r] } s with poolFree := s.poolFree - n } := by
  rw [withTiles, lane_setLane_same, setLane_setLane]
  rfl

/-- Completing a line that has just been filled. -/
theorem completeLine_grown (l : LaneId) (truncated : Bool) (before : List LineRecord) (r : LineRecord) (ts : List Tile)
    (s : State) :
    completeLine l truncated (grown l before r ts s) =
      withTiles l before { r with tiles := r.tiles ++ ts, truncated := truncated, state := .complete } .betweenLines
        (setLane l { s.lane l with dropMark := none } s) ts.length := by
  rw [completeLine, modLane_grown, withTiles_setLane, modNewest_concat]

theorem completeLine_recording {f : State → State} (hf : Recording f) (l : LaneId) (truncated : Bool) (s : State) :
    completeLine l truncated (f s) = f (completeLine l truncated s) := (hf.modLane l _ s).symm

/-- The line in assembly is closed as TRUNCATED where every fill tile finds a buffer. -/
theorem closeTruncated_fits (hq : (s.lane l).queue = before ++ [r]) (hc : r.carried = 0) {next : Nat}
    (hn : tiles (s.lane l).desc - next ≤ room s l) :
    closeTruncated l next s = (closedLine l before r next s, true) := by
  have placed := placeTiles_fits hq (by omega) (ts := fillers next (tiles (s.lane l).desc)) (by simpa using hn)
  rw [closeTruncated, fillTiles_eq_fillers, tilesPerLine, ← tiles, placed]
  simp only [closedLine, if_pos hn, Prod.mk.injEq, and_true]
  rw [completeLine_recording (noteTiles_recording _ _), completeLine_grown, noteTiles_filled fun t h => filled_of_mem_fillers h,
    length_fillers]

/-- The line in assembly is dropped where a buffer for one of its fill tiles cannot be had. -/
theorem closeTruncated_short (hq : (s.lane l).queue = before ++ [r]) (hc : r.carried = 0) {next : Nat}
    (hn : room s l < tiles (s.lane l).desc - next) :
    closeTruncated l next s = (closedLine l before r next s, false) := by
  have dropped := placeTiles_short hq (by omega) (ts := fillers next (tiles (s.lane l).desc)) (by simpa using hn)
  have fills : ∀ t ∈ (fillers next (tiles (s.lane l).desc)).take (room s l), t.filled = true :=
    fun t ht => filled_of_mem_fillers (List.mem_of_mem_take ht)
  have count : ((fillers next (tiles (s.lane l).desc)).take (room s l)).length = room s l := by simp; omega
  rw [closeTruncated, fillTiles_eq_fillers, tilesPerLine, ← tiles, dropped]
  simp only [closedLine, if_neg (Nat.not_le.mpr hn), Prod.mk.injEq, and_true]
  rw [noteTiles_filled fills, count, droppedLine_eq hc]

end Sys2Proof.Proofs

/-! # Proofs: what intake does to the lanes

A burst, a fault and the tick of a lane, said once as a relation between the states before and after, and the law of the pool
while a line is open. -/

namespace Sys2Proof.Proofs

open Sys2Proof.Machine Sys2Proof.Claims

variable {s t u : State} {l k : LaneId} {before : List LineRecord} {r : LineRecord} {ts : List Tile} {g : GroupId}
  {p : Position} {d e : Nat}

/-! ### Assembly -/

/-- The counters that line assembly can raise: those of its lane, but for the gaps, which the opening of a line counts. -/
def AssemblyCounter (l : LaneId) (id : CounterId) : Prop :=
  id = .link .noticesLost ∨ ∃ c, c ≠ .lineGaps ∧ id = .lane l c

/-- Line assembly on a lane: its queue, its assembly state and its drop mark change, and it holds no more buffers than its
allotment, or than it held before. -/
structure Assembles (l : LaneId) (s t : State) : Prop where
  others : ∀ k, k ≠ l → t.lane k = s.lane k
  lane : ∃ q a m, t.lane l = { s.lane l with queue := q, assembly := a, dropMark := m }
  held : held t l ≤ max (held s l) (s.lane l).desc.allotment
  counter : ∀ id, ¬ AssemblyCounter l id → t.counter id = s.counter id

theorem Assembles.refl (l : LaneId) (s : State) : Assembles l s s :=
  ⟨fun _ _ => rfl, ⟨_, _, _, rfl⟩, le_max_left _ _, fun _ _ => rfl⟩

theorem Assembles.desc (h : Assembles l s t) : (t.lane l).desc = (s.lane l).desc := by
  obtain ⟨q, a, m, hl⟩ := h.lane; rw [hl]

theorem Assembles.trans (h : Assembles l s t) (k : Assembles l t u) : Assembles l s u where
  others j hj := (k.others j hj).trans (h.others j hj)
  lane := by
    obtain ⟨q, a, m, ht⟩ := h.lane
    obtain ⟨q', a', m', hu⟩ := k.lane
    exact ⟨q', a', m', by rw [hu, ht]⟩
  held := by
    have := h.held
    have := k.held
    rw [h.desc] at this
    omega
  counter id hid := (k.counter id hid).trans (h.counter id hid)

/-- One lane and the pool change, and no counter. -/
theorem assembles_modLane {f : Lane → Lane} {n : Nat} (hf : ∃ q a m, f (s.lane l) =
    { s.lane l with queue := q, assembly := a, dropMark := m })
    (hh : heldIn (f (s.lane l)).queue ≤ max (held s l) (s.lane l).desc.allotment) :
    Assembles l s { s.modLane l f with poolFree := n } where
  others k hk := lane_modLane_other l k f s hk
  lane := (lane_modLane_same l f s).symm ▸ hf
  held := by
    change heldIn ((s.modLane l f).lane l).queue ≤ _
    rwa [lane_modLane_same]
  counter _ _ := rfl

theorem assembles_bump {c : LaneCounter} (hc : c ≠ .lineGaps) (s : State) : Assembles l s (s.bump (.lane l c)) where
  others k _ := (bump_recording _).lane s k
  lane := ⟨_, _, _, (bump_recording _).lane s l⟩
  held := ((bump_recording _).held s l).le.trans (le_max_left _ _)
  counter id hid := by
    refine counter_bump_other ?_ ?_ s
    · rintro rfl; exact hid (.inr ⟨c, hc, rfl⟩)
    · rintro rfl; exact hid (.inl rfl)

theorem noteTile_assembles (t : Tile) (s : State) : Assembles l s (noteTile l t s) := by
  unfold noteTile
  split
  · exact assembles_bump (by decide) s
  · split
    · exact assembles_bump (by decide) s
    · exact .refl l s

theorem heldIn_modNewest_append (t : Tile) (q : List LineRecord) :
    heldIn (modNewest (fun r => { r with tiles := r.tiles ++ [t] }) q) ≤ heldIn q + 1 := by
  obtain rfl | ⟨before, r, rfl⟩ := queue_cases q
  · simp [modNewest]
  · simp [unsent]; omega

theorem appendTile_assembles (h : bufferGranted s l = true) (t : Tile) : Assembles l s (appendTile l t s) := by
  have below : held s l < (s.lane l).desc.allotment := (of_decide_eq_true h).1
  refine .trans (assembles_modLane (f := fun x =>
    { x with queue := modNewest (fun r => { r with tiles := r.tiles ++ [t] }) x.queue }) (n := s.poolFree - 1)
    ⟨_, _, _, rfl⟩ ?_) (noteTile_assembles t _)
  have := heldIn_modNewest_append t (s.lane l).queue
  simp only [held] at below ⊢
  omega

theorem dropLine_assembles (s : State) : Assembles l s (dropLine l s) := by
  obtain hq | ⟨before, r, hq⟩ := queue_cases (s.lane l).queue
  · have idle : dropLine l s = s := by rw [dropLine, hq]; rfl
    rw [idle]; exact .refl l s
  · rw [dropLine_eq hq]
    refine .trans (assembles_modLane (f := fun x =>
      { x with assembly := .betweenLines, dropMark := some r.pos, queue := before })
      (n := s.poolFree + unsent r) ⟨_, _, _, rfl⟩ ?_) (assembles_bump (by decide) _)
    simp only [held, hq, heldIn_append]
    omega

theorem placeTiles_assembles (ts : List Tile) (s : State) : Assembles l s (placeTiles l ts s).1 := by
  induction ts generalizing s with
  | nil => exact .refl l s
  | cons t ts ih =>
    unfold placeTiles
    split
    · rename_i granted
      exact (appendTile_assembles granted t).trans (ih _)
    · exact dropLine_assembles s

theorem heldIn_modNewest_complete (truncated : Bool) (q : List LineRecord) :
    heldIn (modNewest (fun r => { r with state := .complete, truncated := truncated }) q) = heldIn q := by
  obtain rfl | ⟨before, r, rfl⟩ := queue_cases q
  · rfl
  · simp [unsent]

theorem completeLine_assembles (truncated : Bool) (s : State) : Assembles l s (completeLine l truncated s) :=
  assembles_modLane (n := s.poolFree) (f := fun x =>
      { x with queue := modNewest (fun r => { r with state := .complete, truncated := truncated }) x.queue,
               assembly := .betweenLines, dropMark := none })
    ⟨_, _, _, rfl⟩ ((heldIn_modNewest_complete truncated _).le.trans (le_max_left _ _))

theorem closeTruncated_assembles (next : Nat) (s : State) : Assembles l s (closeTruncated l next s).1 := by
  have placed := placeTiles_assembles (l := l) (Machine.fillTiles next (tilesPerLine (s.lane l).desc)) s
  unfold closeTruncated
  split
  · rename_i h; rw [h] at placed; exact placed.trans (completeLine_assembles true _)
  · rename_i h; rw [h] at placed; exact placed

theorem setAssembly_assembles (a : Assembly) (s : State) : Assembles l s (s.modLane l fun x => { x with assembly := a }) :=
  assembles_modLane (f := fun x => { x with assembly := a }) (n := s.poolFree) ⟨_, _, _, rfl⟩ (le_max_left _ _)

/-- A burst is placed in the open line, and the line may then be completed and go to the release unit. -/
theorem placeBurst_assembles (b : Burst) (p : Position) (next : Nat) (s : State) :
    ∃ u, Assembles l s u ∧ Evaluates (fun _ => True) u (placeBurst l b p next s) := by
  have placed := placeTiles_assembles (l := l) (Machine.fillTiles next b.index ++ [tileOf b]) s
  unfold placeBurst
  simp only
  split
  · exact ⟨_, assembles_bump (by decide) s, .refl _ _⟩
  · split
    · rename_i h; rw [h] at placed; exact ⟨_, placed, .refl _ _⟩
    · rename_i u h
      rw [h] at placed
      split
      · have tail := placeTiles_assembles (l := l)
          (if b.last then Machine.fillTiles (b.index + 1) (tilesPerLine (s.lane l).desc) else []) u
        split
        · rename_i h'; rw [h'] at tail; exact ⟨_, placed.trans tail, .refl _ _⟩
        · rename_i h'; rw [h'] at tail
          exact ⟨_, (placed.trans tail).trans (completeLine_assembles false _), lineCompleted_evaluates l _⟩
      · exact ⟨_, placed.trans (setAssembly_assembles _ u), .refl _ _⟩

/-! ### A burst -/

/-- What a burst on a RUNNING lane can do to the lanes: descriptors, states, silence counts and recovery flags stand; no lane
gets beyond its allotment; a lane without lines gets one only where the burst is its own. -/
structure Feeds (l : LaneId) (s t : State) : Prop where
  lane : ∀ k, ∃ q a m p, t.lane k = { s.lane k with queue := q, assembly := a, dropMark := m, lastLine := p }
  held : ∀ k, held t k ≤ max (held s k) (s.lane k).desc.allotment
  empty : ∀ k, k ≠ l → (s.lane k).queue = [] → (t.lane k).queue = []
  counter : ∀ c, c ≠ .noticesLost → t.counter (.link c) = s.counter (.link c)

theorem Feeds.desc (h : Feeds l s t) (k : LaneId) : (t.lane k).desc = (s.lane k).desc := by
  obtain ⟨q, a, m, p, hk⟩ := h.lane k; rw [hk]

theorem Feeds.state (h : Feeds l s t) (k : LaneId) : (t.lane k).state = (s.lane k).state := by
  obtain ⟨q, a, m, p, hk⟩ := h.lane k; rw [hk]

theorem Feeds.silence (h : Feeds l s t) (k : LaneId) : (t.lane k).silence = (s.lane k).silence := by
  obtain ⟨q, a, m, p, hk⟩ := h.lane k; rw [hk]

theorem Feeds.trans (h : Feeds l s t) (k : Feeds l t u) : Feeds l s u where
  lane j := by
    obtain ⟨q, a, m, p, ht⟩ := h.lane j
    obtain ⟨q', a', m', p', hu⟩ := k.lane j
    exact ⟨q', a', m', p', by rw [hu, ht]⟩
  held j := by
    have := h.held j
    have := k.held j
    rw [h.desc] at this
    omega
  empty j hj he := k.empty j hj (h.empty j hj he)
  counter c hc := (k.counter c hc).trans (h.counter c hc)

theorem Thins.feeds (h : Thins s t) (l : LaneId) : Feeds l s t where
  lane k := ⟨_, _, _, _, h.with_queue k⟩
  held k := (h.queue k).held.trans (le_max_left _ _)
  empty k _ := (h.queue k).empty
  counter := h.counter

theorem Assembles.feeds (h : Assembles l s t) : Feeds l s t where
  lane k := by
    by_cases hk : k = l
    · subst hk
      obtain ⟨q, a, m, hl⟩ := h.lane
      exact ⟨q, a, m, _, hl⟩
    · exact ⟨_, _, _, _, h.others k hk⟩
  held k := by
    by_cases hk : k = l
    · subst hk; exact h.held
    · rw [held_congr (h.others k hk)]; exact le_max_left _ _
  empty k hk he := by rw [h.others k hk, he]
  counter c hc := h.counter _ (by rintro (h | ⟨_, _, h⟩) <;> simp_all)

theorem Feeds.refl (l : LaneId) (s : State) : Feeds l s s := (Thins.refl s).feeds l

/-- The line that opens has no tile yet. -/
theorem openLine_eq (l : LaneId) (p : Position) (s : State) :
    ∃ v, (v = s ∨ v = s.bump (.lane l .lineGaps)) ∧
      openLine l p s = setLane l { s.lane l with
        queue := (s.lane l).queue ++ [openedLine p []], assembly := .assembling p 0, lastLine := some p } v := by
  unfold openLine
  simp only
  split
  · exact ⟨s, .inl rfl, rfl⟩
  · split
    · exact ⟨s, .inl rfl, rfl⟩
    · refine ⟨_, .inr rfl, ?_⟩
      rw [modLane_eq_setLane, (bump_recording _).lane]
      rfl

theorem openLine_lane (l : LaneId) (p : Position) (s : State) :
    (openLine l p s).lane l = { s.lane l with
      queue := (s.lane l).queue ++ [openedLine p []], assembly := .assembling p 0, lastLine := some p } := by
  obtain ⟨v, -, h⟩ := openLine_eq l p s
  rw [h, lane_setLane_same]

theorem openLine_lane_other (hk : k ≠ l) (p : Position) (s : State) : (openLine l p s).lane k = s.lane k := by
  obtain ⟨v, hv, h⟩ := openLine_eq l p s
  rw [h, lane_setLane_other hk]
  obtain rfl | rfl := hv
  · rfl
  · exact (bump_recording _).lane s k

theorem openLine_poolFree (l : LaneId) (p : Position) (s : State) : (openLine l p s).poolFree = s.poolFree :=
  openLine_only l p s .poolFree (by decide)

theorem held_openLine (l k : LaneId) (p : Position) (s : State) : held (openLine l p s) k = held s k := by
  by_cases hk : k = l
  · subst hk
    rw [held, openLine_lane, held, heldIn_append]
    rfl
  · exact held_congr (openLine_lane_other hk p s)

theorem openLine_feeds (l : LaneId) (p : Position) (s : State) : Feeds l s (openLine l p s) where
  lane k := by
    by_cases hk : k = l
    · subst hk; exact ⟨_, _, _, _, openLine_lane k p s⟩
    · exact ⟨_, _, _, _, openLine_lane_other hk p s⟩
  held k := (held_openLine l k p s).le.trans (le_max_left _ _)
  empty k hk he := by rw [openLine_lane_other hk, he]
  counter c hc := by
    obtain ⟨v, hv, h⟩ := openLine_eq l p s
    rw [h]
    obtain rfl | rfl := hv
    · rfl
    · exact (counter_bump_other (by simp) (by simpa using hc) s)

theorem placeBurst_feeds (l : LaneId) (b : Burst) (p : Position) (next : Nat) (s : State) :
    Feeds l s (placeBurst l b p next s) := by
  obtain ⟨u, hu, ht⟩ := placeBurst_assembles (l := l) b p next s
  exact hu.feeds.trans (ht.thins.feeds l)

theorem openAndPlace_feeds (l : LaneId) (b : Burst) (s : State) : Feeds l s (openAndPlace l b s) :=
  (openLine_feeds l b.pos s).trans (placeBurst_feeds l b b.pos 0 _)

theorem assemble_feeds (l : LaneId) (b : Burst) (s : State) : Feeds l s (assemble l b s) := by
  unfold assemble
  simp only
  split
  · exact (assembles_bump (by decide) s).feeds
  · split
    · exact .refl l s
    · split
      · exact openAndPlace_feeds l b s
      · rename_i p next _
        split
        · exact placeBurst_feeds l b p next s
        · have closed := (closeTruncated_assembles (l := l) next s).feeds
          split
          · rename_i h; rw [h] at closed
            exact (closed.trans ((lineCompleted_evaluates l _).thins.feeds l)).trans (openAndPlace_feeds l b _)
          · rename_i h; rw [h] at closed
            exact closed.trans (openAndPlace_feeds l b _)

/-! ### The steps of a fault -/

/-- The lane FAULTED, and LAGGING where it is a member of a group (R9, R39). -/
def fallen (l : LaneId) (s : State) : State := lagQuietly l (setLane l { s.lane l with state := .faulted } s)

/-- The lane marked, its line closed, and LANE_FAULT raised (R9). -/
def faultRaised (d : Nat) (l : LaneId) (s : State) : State :=
  (setLane l { s.lane l with assembly := .betweenLines, dropMark := none, recovery := true } s).raise .laneFault
    (laneNum l) d

/-- What the release unit is given at the end of a fault: the group of a member, and the line of a lane in no group where it
was kept (R34, R44). -/
def faultHandedOver (kept : Bool) (l : LaneId) (s : State) : State :=
  match groupOf (s.lane l).desc with
  | some g => evaluate g s
  | none => if kept then releaseOldest none l s else s

theorem faultLane_between (h : (s.lane l).assembly = .betweenLines) :
    faultLane d l s = faultHandedOver false l (faultRaised d l (fallen l s)) := by
  simp only [faultLane, h]
  rfl

theorem faultLane_closes (h : (s.lane l).assembly = .assembling p e) :
    faultLane d l s = faultHandedOver (closeTruncated l e (fallen l s)).2 l
      (faultRaised d l (closeTruncated l e (fallen l s)).1) := by
  simp only [faultLane, h]
  rfl

/-! ### What they leave -/

theorem fallen_lane (l : LaneId) (s : State) : (fallen l s).lane l = { s.lane l with state := .faulted } := by
  rw [fallen, lane_congr (lagQuietly_only l _ .lanes (by decide)), lane_setLane_same]

theorem fallen_poolFree (l : LaneId) (s : State) : (fallen l s).poolFree = s.poolFree :=
  lagQuietly_only l _ .poolFree (by decide)

theorem room_fallen (l : LaneId) (s : State) : room (fallen l s) l = room s l := by
  simp only [room, held, fallen_lane, fallen_poolFree]

theorem fallen_member (h : groupOf (s.lane l).desc = some g) :
    fallen l s = (setLane l { s.lane l with state := .faulted } s).setStanding l (some .lagging) := by
  rw [fallen, lagQuietly, lane_setLane_same]
  simp only [h]

theorem fallen_alone (h : groupOf (s.lane l).desc = none) :
    fallen l s = setLane l { s.lane l with state := .faulted } s := by
  rw [fallen, lagQuietly, lane_setLane_same]
  simp only [h]

theorem faultRaised_lane (d : Nat) (l : LaneId) (s : State) : (faultRaised d l s).lane l =
    { s.lane l with assembly := .betweenLines, dropMark := none, recovery := true } := by
  rw [faultRaised, (raise_recording _ _ _).lane, lane_setLane_same]

/-- A line that has been closed already is not closed again. -/
theorem faultRaised_between (h : (s.lane l).assembly = .betweenLines) :
    faultRaised d l s =
      (setLane l { s.lane l with dropMark := none, recovery := true } s).raise .laneFault (laneNum l) d := by
  have closed : { s.lane l with assembly := .betweenLines, dropMark := none, recovery := true } =
      { s.lane l with dropMark := none, recovery := true } := by rw [← h]
  rw [faultRaised, closed]

theorem faultHandedOver_member (h : groupOf (s.lane l).desc = some g) (kept : Bool) :
    faultHandedOver kept l s = evaluate g s := by simp only [faultHandedOver, h]

theorem faultHandedOver_alone (h : groupOf (s.lane l).desc = none) (kept : Bool) :
    faultHandedOver kept l s = if kept then releaseOldest none l s else s := by simp only [faultHandedOver, h]

theorem faultHandedOver_thins (kept : Bool) (l : LaneId) (s : State) : Thins s (faultHandedOver kept l s) := by
  unfold faultHandedOver
  split
  · exact (evaluate_evaluates _ s).thins
  · exact thins_ite (releaseOldest_thins none l s) (.refl s)

theorem faultHandedOver_lane (kept : Bool) (d : Nat) (l : LaneId) (s : State) :
    ∃ q, (faultHandedOver kept l (faultRaised d l s)).lane l =
      { s.lane l with assembly := .betweenLines, dropMark := none, recovery := true, queue := q } :=
  ⟨_, by rw [(faultHandedOver_thins kept l _).with_queue, faultRaised_lane]⟩

/-- A fault leaves the descriptor and the silence count of its lane, which is FAULTED and between lines. -/
theorem faultLane_lane (d : Nat) (l : LaneId) (s : State) : ∃ q, (faultLane d l s).lane l =
    { s.lane l with
      state := .faulted, assembly := .betweenLines, dropMark := none, recovery := true, queue := q } := by
  cases h : (s.lane l).assembly with
  | betweenLines =>
    rw [faultLane_between h]
    obtain ⟨q, hq⟩ := faultHandedOver_lane false d l (fallen l s)
    exact ⟨q, by rw [hq, fallen_lane]⟩
  | assembling p e =>
    rw [faultLane_closes h]
    obtain ⟨q, hq⟩ := faultHandedOver_lane (closeTruncated l e (fallen l s)).2 d l (closeTruncated l e (fallen l s)).1
    obtain ⟨_, _, _, hz⟩ := (closeTruncated_assembles (l := l) e (fallen l s)).lane
    exact ⟨q, by rw [hq, hz, fallen_lane]⟩

/-! ### The pool while a line is open -/

/-- The law of the pool but for the line in assembly of one lane, which may have no tile yet. -/
structure OpenAt (l : LaneId) (before : List LineRecord) (r : LineRecord) (s : State) : Prop where
  others : ∀ k, k ≠ l → LaneShape (s.lane k)
  queue : (s.lane l).queue = before ++ [r]
  closed : QueueShape .betweenLines before
  assembling : r.state = .assembling
  unsent : r.carried = 0
  live : (s.lane l).state ≠ .stopped
  pool : poolTotal s = 1536

theorem poolConserved_congr (hl : t.lanes = s.lanes) (hp : t.poolFree = s.poolFree) (h : PoolConserved s) :
    PoolConserved t :=
  ⟨fun l => by rw [lane_congr hl]; exact h.1 l, (poolTotal_congr hl hp).trans h.2⟩

theorem Recording.poolConserved {f : State → State} (hf : Recording f) (h : PoolConserved s) : PoolConserved (f s) :=
  poolConserved_congr (hf.lanes s) (hf.poolFree s) h

theorem Thins.poolConserved (h : Thins s t) (hs : PoolConserved s) : PoolConserved t := by
  refine ⟨fun l => ?_, h.pool.trans hs.2⟩
  obtain ⟨q, hl, hq⟩ := h.lane l
  obtain ⟨shape, stopped⟩ := (laneShape_iff _).mp (hs.1 l)
  rw [hl, laneShape_iff]
  exact ⟨hq.shape _ shape, fun h => hq.empty (stopped h)⟩

theorem Recording.openAt {f : State → State} (hf : Recording f) (h : OpenAt l before r s) : OpenAt l before r (f s) where
  others k hk := by rw [hf.lane]; exact h.others k hk
  queue := by rw [hf.lane]; exact h.queue
  closed := h.closed
  assembling := h.assembling
  unsent := h.unsent
  live := by rw [hf.lane]; exact h.live
  pool := (poolTotal_congr (hf.lanes s) (hf.poolFree s)).trans h.pool

/-- A lane that assembles a line: the line is the newest, has a tile and has sent none. -/
theorem queueShape_assembling {p : Position} {n : Nat} {q : List LineRecord} (h : QueueShape (.assembling p n) q) :
    ∃ before r, q = before ++ [r] ∧ QueueShape .betweenLines before ∧ r.state = .assembling ∧ r.carried = 0 ∧
      r.tiles ≠ [] := by
  obtain ⟨hrank, hfine, htail, r, hlast, hr⟩ := h
  obtain rfl | ⟨before, x, rfl⟩ := queue_cases q
  · simp at hlast
  · simp only [List.getLast?_concat, Option.some.injEq] at hlast
    subst hlast
    have assembling : x.state = .assembling := by
      have : x ∈ assemblingIn (before ++ [x]) := by simp [hr]
      simpa using (List.mem_filter.mp this).2
    have carried : x.carried = 0 := (hfine x (by simp)).2 (by simp [assembling])
    refine ⟨before, x, rfl, ⟨?_, fun y hy => hfine y (by simp [hy]), fun y hy => htail y ?_, ?_⟩, assembling, carried, ?_⟩
    · exact hrank.sublist (List.Sublist.map _ (List.sublist_append_left before [x]))
    · cases before with
      | nil => simp at hy
      | cons b before => simp only [List.tail_cons] at hy; simp [hy]
    · have : assemblingIn before ++ [x] = [] ++ [x] := by
        simpa [assemblingIn, List.filter_append, assembling] using hr
      exact List.append_cancel_right this
    · intro hnil
      have := (hfine x (by simp)).1
      simp [hnil] at this

/-- A line with tiles of which none is sent goes at the end of a queue of closed lines, in assembly or COMPLETE. -/
theorem queueShape_concat {a : Assembly} (h : QueueShape .betweenLines before) (hc : r.carried = 0) (ht : r.tiles ≠ [])
    (hr : (r.state = .assembling ∧ a ≠ .betweenLines) ∨ (r.state = .complete ∧ a = .betweenLines)) :
    QueueShape a (before ++ [r]) := by
  obtain ⟨hrank, hfine, htail, hopen⟩ := h
  have tiled : 0 < r.tiles.length := List.length_pos_iff.mpr ht
  have last : ∀ y ∈ before, lineRank y.state ≤ lineRank r.state := by
    intro y hy
    have closed : y.state ≠ .assembling := by
      intro hs
      have : y ∈ assemblingIn before := List.mem_filter.mpr ⟨hy, by simp [hs]⟩
      rw [show assemblingIn before = [] from hopen] at this
      cases this
    obtain ⟨hr, -⟩ | ⟨hr, -⟩ := hr <;> cases hs : y.state <;> simp_all [lineRank]
  refine ⟨?_, ?_, ?_, ?_⟩
  · simp only [List.map_append, List.map_cons, List.map_nil, List.pairwise_append, List.pairwise_singleton, true_and]
    refine ⟨hrank, fun n hn m hm => ?_⟩
    obtain ⟨y, hy, rfl⟩ := List.mem_map.mp hn
    rw [List.mem_singleton.mp hm]
    exact last y hy
  · intro y hy
    obtain hy | hy := List.mem_append.mp hy
    · exact hfine y hy
    · rw [List.mem_singleton.mp hy]
      exact ⟨by omega, fun _ => hc⟩
  · intro y hy
    cases before with
    | nil => simp at hy
    | cons b before =>
      simp only [List.cons_append, List.tail_cons, List.mem_append, List.mem_singleton] at hy
      obtain hy | rfl := hy
      · exact htail y hy
      · exact hc
  · have none_before : assemblingIn before = [] := hopen
    simp only [assemblingIn] at none_before
    obtain ⟨hs, ha⟩ | ⟨hs, rfl⟩ := hr
    · cases a with
      | betweenLines => exact absurd rfl ha
      | assembling p n => exact ⟨r, by simp, by simp [assemblingIn, none_before, hs]⟩
    · simp [OpenLine, assemblingIn, none_before, hs]

/-- The law of the pool with the lane's lines in their place again. -/
theorem OpenAt.close (h : OpenAt l before r s) (ho : ∀ k, k ≠ l → t.lane k = s.lane k)
    (hstate : (t.lane l).state = (s.lane l).state) (hshape : QueueShape (t.lane l).assembly (t.lane l).queue)
    (exchange : t.poolFree + held t l = s.poolFree + held s l) : PoolConserved t := by
  refine ⟨fun k => ?_, (poolTotal_of_lane l ho exchange).trans h.pool⟩
  by_cases hk : k = l
  · subst hk
    exact (laneShape_iff _).mpr ⟨hshape, fun hs => absurd (hstate ▸ hs) h.live⟩
  · rw [ho k hk]; exact h.others k hk

theorem poolConserved_openAt {p : Position} {n : Nat} (h : PoolConserved s) (ha : (s.lane l).assembly = .assembling p n) :
    ∃ before r, OpenAt l before r s ∧ r.tiles ≠ [] := by
  obtain ⟨shape, stopped⟩ := (laneShape_iff _).mp (h.1 l)
  rw [ha] at shape
  obtain ⟨before, r, hq, hclosed, hr, hc, ht⟩ := queueShape_assembling shape
  exact ⟨before, r, ⟨fun k _ => h.1 k, hq, hclosed, hr, hc, fun hs => by simp [stopped hs] at hq, h.2⟩, ht⟩

theorem OpenAt.grown (h : OpenAt l before r s) (hn : ts.length ≤ s.poolFree) :
    OpenAt l before { r with tiles := r.tiles ++ ts } (grown l before r ts s) where
  others k hk := by rw [grown_lane_other hk]; exact h.others k hk
  queue := by rw [grown_lane]
  closed := h.closed
  assembling := h.assembling
  unsent := h.unsent
  live := by rw [grown_lane]; exact h.live
  pool := by
    refine (poolTotal_of_lane l (fun k hk => grown_lane_other hk) ?_).trans h.pool
    have free : (Proofs.grown l before r ts s).poolFree = s.poolFree - ts.length := rfl
    simp only [held, free, grown_lane, h.queue, heldIn_append, heldIn_cons, heldIn_nil, Machine.unsent, h.unsent,
      List.length_append]
    omega

theorem OpenAt.discarded (h : OpenAt l before r s) : PoolConserved (discarded l before r s) := by
  have lane : (Proofs.discarded l before r s).lane l =
      { s.lane l with assembly := .betweenLines, dropMark := some r.pos, queue := before } := lane_setLane_same l _ s
  refine h.close (fun k hk => lane_setLane_other hk _ s) (by rw [lane]) (by rw [lane]; exact h.closed) ?_
  have free : (Proofs.discarded l before r s).poolFree = s.poolFree + Machine.unsent r := rfl
  simp only [held, free, lane, h.queue, heldIn_append, heldIn_cons, heldIn_nil]
  omega

/-- Tiles are placed in the open line, or it is dropped. -/
theorem OpenAt.placeTiles (h : OpenAt l before r s) (ts : List Tile) :
    ((placeTiles l ts s).2 = true ∧ OpenAt l before { r with tiles := r.tiles ++ ts } (placeTiles l ts s).1) ∨
      ((placeTiles l ts s).2 = false ∧ PoolConserved (placeTiles l ts s).1) := by
  have carried : r.carried ≤ r.tiles.length := by rw [h.unsent]; exact Nat.zero_le _
  by_cases hn : ts.length ≤ room s l
  · rw [placeTiles_fits h.queue carried hn]
    exact .inl ⟨rfl, (noteTiles_recording l ts).openAt (h.grown (hn.trans (min_le_right _ _)))⟩
  · rw [placeTiles_short h.queue carried (Nat.not_le.mp hn)]
    exact .inr ⟨rfl, (bump_recording _).poolConserved ((noteTiles_recording l _).poolConserved h.discarded)⟩

theorem OpenAt.completeLine (h : OpenAt l before r s) (ht : r.tiles ≠ []) (truncated : Bool) :
    PoolConserved (completeLine l truncated s) := by
  have lane : (Machine.completeLine l truncated s).lane l = { s.lane l with
      queue := before ++ [{ r with state := .complete, truncated := truncated }], assembly := .betweenLines,
      dropMark := none } := by
    rw [Machine.completeLine, lane_modLane_same, h.queue, modNewest_concat]
  refine h.close (fun k hk => lane_modLane_other l k _ s hk) (by rw [lane]) ?_ ?_
  · rw [lane]
    exact queueShape_concat h.closed h.unsent ht (.inr ⟨rfl, rfl⟩)
  · have free : (Machine.completeLine l truncated s).poolFree = s.poolFree := rfl
    simp only [held, free, lane, h.queue, heldIn_append, heldIn_cons, Machine.unsent]

theorem OpenAt.goesOn (h : OpenAt l before r s) (ht : r.tiles ≠ []) (p : Position) (n : Nat) :
    PoolConserved (s.modLane l fun x => { x with assembly := .assembling p n }) := by
  refine h.close (fun k hk => lane_modLane_other l k _ s hk) (by rw [lane_modLane_same]) ?_ ?_
  · rw [lane_modLane_same, h.queue]
    exact queueShape_concat h.closed h.unsent ht (.inl ⟨h.assembling, by simp⟩)
  · rw [held, lane_modLane_same]; rfl

theorem OpenAt.placeBurst (h : OpenAt l before r s) {b : Burst} {next : Nat} (hn : next ≤ b.index) (p : Position) :
    PoolConserved (placeBurst l b p next s) := by
  have placed := h.placeTiles (Machine.fillTiles next b.index ++ [tileOf b])
  unfold Machine.placeBurst
  simp only [if_neg (Nat.not_lt.mpr hn)]
  split
  · rename_i h1; rw [h1] at placed
    exact (placed.resolve_left (by simp)).2
  · rename_i v h1; rw [h1] at placed
    obtain ⟨-, grown⟩ := placed.resolve_right (by simp)
    split
    · have tail := grown.placeTiles
        (if b.last then Machine.fillTiles (b.index + 1) (tilesPerLine (s.lane l).desc) else [])
      split
      · rename_i h2; rw [h2] at tail
        exact (tail.resolve_left (by simp)).2
      · rename_i h2; rw [h2] at tail
        obtain ⟨-, filled⟩ := tail.resolve_right (by simp)
        exact (lineCompleted_evaluates l _).thins.poolConserved (filled.completeLine (by simp) false)
    · exact grown.goesOn (by simp) _ _

theorem poolConserved_closeTruncated {p : Position} {n : Nat} (h : PoolConserved s)
    (ha : (s.lane l).assembly = .assembling p n) : PoolConserved (closeTruncated l n s).1 ∧
      ((closeTruncated l n s).1.lane l).assembly = .betweenLines := by
  obtain ⟨before, r, hopen, ht⟩ := poolConserved_openAt h ha
  have placed := hopen.placeTiles (Machine.fillTiles n (tilesPerLine (s.lane l).desc))
  unfold Machine.closeTruncated
  split
  · rename_i v h1; rw [h1] at placed
    obtain ⟨-, grown⟩ := placed.resolve_right (by simp)
    exact ⟨grown.completeLine (by simp [ht]) true, by simp [Machine.completeLine]⟩
  · rename_i v h1
    rw [h1] at placed
    refine ⟨(placed.resolve_left (by simp)).2, ?_⟩
    have short : room s l < (Machine.fillTiles n (tilesPerLine (s.lane l).desc)).length := by
      by_contra hfit
      rw [placeTiles_fits hopen.queue (by rw [hopen.unsent]; exact Nat.zero_le _) (Nat.not_lt.mp hfit)] at h1
      simp at h1
    rw [placeTiles_short hopen.queue (by rw [hopen.unsent]; exact Nat.zero_le _) short] at h1
    obtain ⟨rfl, -⟩ := Prod.mk.inj h1
    rw [(bump_recording _).lane, (noteTiles_recording l _).lane]
    exact congrArg Lane.assembly (lane_setLane_same l _ s)

/-- A line opens in a lane that is between lines. -/
theorem poolConserved_openLine (h : PoolConserved s) (ha : (s.lane l).assembly = .betweenLines)
    (hlive : (s.lane l).state ≠ .stopped) (p : Position) :
    OpenAt l (s.lane l).queue (openedLine p []) (openLine l p s) where
  others k hk := by rw [openLine_lane_other hk]; exact h.1 k
  queue := by rw [openLine_lane]
  closed := by
    have shape := ((laneShape_iff _).mp (h.1 l)).1
    rwa [ha] at shape
  assembling := rfl
  unsent := rfl
  live := by rw [openLine_lane]; exact hlive
  pool := by
    have total : poolTotal (Machine.openLine l p s) = poolTotal s := by
      simp only [poolTotal, held_openLine, openLine_poolFree]
    exact total.trans h.2

theorem poolConserved_openAndPlace (h : PoolConserved s) (ha : (s.lane l).assembly = .betweenLines)
    (hlive : (s.lane l).state ≠ .stopped) (b : Burst) : PoolConserved (openAndPlace l b s) :=
  (poolConserved_openLine h ha hlive b.pos).placeBurst (Nat.zero_le _) b.pos

theorem poolConserved_assemble (h : PoolConserved s) (hlive : (s.lane l).state ≠ .stopped) (b : Burst) :
    PoolConserved (assemble l b s) := by
  have bumped (c : LaneCounter) : PoolConserved (s.bump (.lane l c)) := (bump_recording _).poolConserved h
  unfold Machine.assemble
  simp only
  split
  · exact bumped _
  · split
    · exact h
    · split
      · rename_i ha
        exact poolConserved_openAndPlace h ha hlive b
      · rename_i p next ha
        split
        · obtain ⟨before, r, hopen, -⟩ := poolConserved_openAt h ha
          by_cases hn : next ≤ b.index
          · exact hopen.placeBurst hn p
          · rw [Machine.placeBurst, if_pos (Nat.not_le.mp hn)]
            exact bumped _
        · obtain ⟨closed, between⟩ := poolConserved_closeTruncated h ha
          have live : ((Machine.closeTruncated l next s).1.lane l).state ≠ .stopped := by
            rw [(closeTruncated_assembles next s).feeds.state]; exact hlive
          split
          · rename_i v h1; rw [h1] at closed between live
            have released := lineCompleted_evaluates l v
            refine poolConserved_openAndPlace (released.thins.poolConserved closed) ?_ ?_ b
            · rw [released.thins.with_queue l]; exact between
            · rw [released.thins.state]; exact live
          · rename_i v h1; rw [h1] at closed between live
            exact poolConserved_openAndPlace closed between live b

end Sys2Proof.Proofs

/-! # Proofs: laws of the lanes and the pool

A law of the lanes and the pool that the few operations on them keep is kept by every step; the law of the pool and the law of
the allotments are two such laws. -/

namespace Sys2Proof.Proofs

open Sys2Proof.Machine Sys2Proof.Claims

variable {s t u : State} {l k : LaneId}

/-! ### The rows of the table -/

/-- Every row is the row of a command of an origin, or one of the events. -/
theorem instr_cases {motive : Instr → Prop} (command : ∀ o tag c, motive (row o tag c))
    (pinReset : motive .pinReset) (resetRelease : motive .resetRelease) (referenceTick : motive .referenceTick)
    (tileBurst : ∀ l b bytes, motive (.tileBurst l b bytes)) (boardReadyFall : ∀ l, motive (.boardReadyFall l))
    (laneSilenceExpiry : ∀ l, motive (.laneSilenceExpiry l)) (switchCountdownEnd : motive .switchCountdownEnd)
    (classCountdownEnd : motive .classCountdownEnd) (trainSwitchEnd : motive .trainSwitchEnd)
    (echoWatchExpiry : motive .echoWatchExpiry) (lossCriterionMet : motive .lossCriterionMet)
    (referenceLost : motive .referenceLost) (holdTimerExpiry : motive .holdTimerExpiry)
    (retryTimerExpiry : motive .retryTimerExpiry) (measureTimerExpiry : motive .measureTimerExpiry)
    (offerTimerExpiry : motive .offerTimerExpiry) (answerTimerExpiry : motive .answerTimerExpiry)
    (marginTimerExpiry : motive .marginTimerExpiry) (stepUpTimerExpiry : motive .stepUpTimerExpiry)
    (tallyHoldExpiry : motive .tallyHoldExpiry) (carrierRise : motive .carrierRise) (carrierFall : motive .carrierFall)
    (marginWarningRise : motive .marginWarningRise) (marginWarningFall : motive .marginWarningFall)
    (measurementResult : ∀ k, motive (.measurementResult k)) (upstreamFrame : ∀ bytes, motive (.upstreamFrame bytes))
    (headCommandFrame : ∀ bytes cut, motive (.headCommandFrame bytes cut)) (fetch : ∀ n, motive (.fetch n))
    (invalidTransaction : ∀ kind n, motive (.invalidTransaction kind n))
    (sidelineByteReceived : ∀ i d p b, motive (.sidelineByteReceived i d p b))
    (sidelineByteSent : ∀ i, motive (.sidelineByteSent i)) (returnTileTake : motive .returnTileTake)
    (selectFall : motive .selectFall) (i : Instr) : motive i := by
  cases i with
  | pinReset => exact pinReset
  | resetRelease => exact resetRelease
  | referenceTick => exact referenceTick
  | tileBurst l b bytes => exact tileBurst l b bytes
  | boardReadyFall l => exact boardReadyFall l
  | laneSilenceExpiry l => exact laneSilenceExpiry l
  | switchCountdownEnd => exact switchCountdownEnd
  | classCountdownEnd => exact classCountdownEnd
  | trainSwitchEnd => exact trainSwitchEnd
  | echoWatchExpiry => exact echoWatchExpiry
  | lossCriterionMet => exact lossCriterionMet
  | referenceLost => exact referenceLost
  | holdTimerExpiry => exact holdTimerExpiry
  | retryTimerExpiry => exact retryTimerExpiry
  | measureTimerExpiry => exact measureTimerExpiry
  | offerTimerExpiry => exact offerTimerExpiry
  | answerTimerExpiry => exact answerTimerExpiry
  | marginTimerExpiry => exact marginTimerExpiry
  | stepUpTimerExpiry => exact stepUpTimerExpiry
  | tallyHoldExpiry => exact tallyHoldExpiry
  | carrierRise => exact carrierRise
  | carrierFall => exact carrierFall
  | marginWarningRise => exact marginWarningRise
  | marginWarningFall => exact marginWarningFall
  | measurementResult k => exact measurementResult k
  | upstreamFrame bytes => exact upstreamFrame bytes
  | headCommandFrame bytes cut => exact headCommandFrame bytes cut
  | fetch n => exact fetch n
  | invalidTransaction kind n => exact invalidTransaction kind n
  | sidelineByteReceived i d p b => exact sidelineByteReceived i d p b
  | sidelineByteSent i => exact sidelineByteSent i
  | returnTileTake => exact returnTileTake
  | selectFall => exact selectFall
  | identify o tag => exact command o tag .identify
  | partReset o tag => exact command o tag .partReset
  | laneSet o tag l c w h m a g => exact command o tag (.laneSet l c w h m a g)
  | laneStart o tag l => exact command o tag (.laneStart l)
  | laneStop o tag l => exact command o tag (.laneStop l)
  | laneGet o tag l => exact command o tag (.laneGet l)
  | groupSet o tag g k => exact command o tag (.groupSet g k)
  | planOpen o tag => exact command o tag .planOpen
  | planPut o tag i l q p t d => exact command o tag (.planPut i l q p t d)
  | planInsert o tag i l q p t d => exact command o tag (.planInsert i l q p t d)
  | planRemove o tag i => exact command o tag (.planRemove i)
  | planRead o tag b i => exact command o tag (.planRead b i)
  | planCommit o tag => exact command o tag .planCommit
  | planAbandon o tag => exact command o tag .planAbandon
  | carryRead o tag i => exact command o tag (.carryRead i)
  | linkStatus o tag => exact command o tag .linkStatus
  | linkEnable o tag on => exact command o tag (.linkEnable on)
  | linkCriteria o tag c => exact command o tag (.linkCriteria c)
  | linkRetrain o tag => exact command o tag .linkRetrain
  | classRequest o tag d => exact command o tag (.classRequest d)
  | linkRestart o tag => exact command o tag .linkRestart
  | relaySend o tag m => exact command o tag (.relaySend m)
  | relayRead o tag => exact command o tag .relayRead
  | relayAck o tag => exact command o tag .relayAck
  | eventRead o tag => exact command o tag .eventRead
  | eventMask o tag m => exact command o tag (.eventMask m)
  | countersRead o tag g => exact command o tag (.countersRead g)
  | countersClear o tag g => exact command o tag (.countersClear g)
  | sidelineSet o tag i r p => exact command o tag (.sidelineSet i r p)
  | sidelineStatus o tag i => exact command o tag (.sidelineStatus i)
  | tallyRead o tag => exact command o tag .tallyRead
  | testStart o tag m n k => exact command o tag (.testStart m n k)
  | testStop o tag => exact command o tag .testStop
  | testRead o tag c => exact command o tag (.testRead c)

/-- The row of a command is that command, as its way in delivers it. -/
theorem exec_row (o : Origin) (tag : Byte) (c : Cmd) (s : State) : exec (row o tag c) s = .next (submit o tag c s) := by
  cases c <;> rfl

/-! ### Completion -/

/-- A row completes and leaves the commands that wait. -/
def Completes (outcome : Result) (s : State) : Prop := ∃ t, outcome = .next t ∧ t.pending = s.pending

theorem completes_of_only {ps : List Part} (h : OnlyChanges ps s t) (hp : Part.pending ∉ ps := by decide) :
    Completes (.next t) s := ⟨t, rfl, h .pending hp⟩

/-- An event on a state of which a pin has moved. -/
theorem completes_whenLive {ps qs : List Part} {f : State → State} (hu : OnlyChanges qs s u)
    (hf : ∀ s, OnlyChanges ps s (f s)) (hq : Part.pending ∉ qs := by decide) (hp : Part.pending ∉ ps := by decide) :
    Completes (.next (whenLive f u)) s := by
  refine ⟨_, rfl, ?_⟩
  unfold whenLive
  split
  · exact hu .pending hq
  · exact Eq.trans (hf u .pending hp) (hu .pending hq)

theorem completes_live {ps : List Part} {f : State → State} (hf : ∀ s, OnlyChanges ps s (f s))
    (hp : Part.pending ∉ ps := by decide) : Completes (.next (whenLive f s)) s :=
  completes_whenLive (.refl [] s) hf (by decide) hp

theorem releaseReset_pending (s : State) : (releaseReset s).pending = s.pending := by
  unfold releaseReset
  split
  · exact (startFromReset_only 1 _) .pending (by decide)
  · rfl

theorem not_namesKind {kind : Option Byte} {n : Nat} (h : (Instr.invalidTransaction kind n).wellFormed = true) :
    namesKind kind = false := by
  cases kind with
  | none => rfl
  | some k => simpa [Instr.wellFormed, namesKind] using h

/-- Every row but the two with operands that no interface can deliver completes. -/
theorem exec_completes (i : Instr) (s : State) (hb : ∀ l b bytes, i = .tileBurst l b bytes → bytes.length = 392)
    (hk : ∀ kind n, i = .invalidTransaction kind n → namesKind kind = false) : Completes (exec i s) s := by
  induction i using instr_cases with
  | command o tag c => rw [exec_row]; exact completes_of_only (submit_only o tag c s)
  | pinReset => exact ⟨_, rfl, rfl⟩
  | resetRelease => exact ⟨_, rfl, releaseReset_pending s⟩
  | referenceTick => exact completes_live referenceTick_only
  | tileBurst l b bytes =>
    have length : bytes.length = burstBytes := hb l b bytes rfl
    rw [exec, execTileBurst, if_pos length]
    exact completes_whenLive (modPins_only _ s) (takeBurst_only l _)
  | boardReadyFall l => exact completes_whenLive (modPins_only _ s) (boardReadyFall_only l)
  | laneSilenceExpiry l => exact completes_live (silenceExpiry_only l)
  | switchCountdownEnd => exact completes_live countdownEnd_only
  | classCountdownEnd => exact completes_live classCountEnd_only
  | trainSwitchEnd => exact completes_live trainEnd_only
  | echoWatchExpiry => exact completes_live echoExpiry_only
  | lossCriterionMet => exact completes_live lossCriterion_only
  | referenceLost => exact completes_live referenceGone_only
  | holdTimerExpiry => exact completes_live holdExpiry_only
  | retryTimerExpiry => exact completes_live retryExpiry_only
  | measureTimerExpiry => exact completes_live measureExpiry_only
  | offerTimerExpiry => exact completes_live offerExpiry_only
  | answerTimerExpiry => exact completes_live answerExpiry_only
  | marginTimerExpiry => exact completes_live marginExpiry_only
  | stepUpTimerExpiry => exact completes_live stepUpExpiry_only
  | tallyHoldExpiry => exact completes_live tallyExpiry_only
  | carrierRise => exact completes_whenLive (modPins_only _ s) settleDown_only
  | carrierFall => exact completes_whenLive (modPins_only _ s) carrierLost_only
  | marginWarningRise =>
    rw [exec, execMarginWarningRise]
    split
    · exact ⟨_, rfl, rfl⟩
    · exact completes_whenLive (modPins_only _ s) warningRises_only
  | marginWarningFall =>
    rw [exec, execMarginWarningFall]
    split
    · exact completes_whenLive (modPins_only _ s) warningFalls_only
    · exact ⟨_, rfl, rfl⟩
  | measurementResult k => exact completes_live (takeMeasurement_only k)
  | upstreamFrame bytes => exact completes_live (takeUpstream_only bytes)
  | headCommandFrame bytes cut =>
    exact completes_of_only (endTransaction_only (commandTransaction_only bytes cut) s)
  | fetch n =>
    exact completes_of_only (endTransaction_only (fun b s => (fetchTransaction_only n b s).wider) s)
  | invalidTransaction kind n =>
    rw [exec, execInvalidTransaction, hk kind n rfl]
    exact completes_of_only (endTransaction_only (fun b s => (invalidTransaction_only kind n b s).wider) s)
  | sidelineByteReceived i d p b => exact completes_live (sideIn_only i d p b)
  | sidelineByteSent i => exact completes_live (sideSent_only i)
  | returnTileTake => exact completes_live viewfinderTakes_only
  | selectFall => exact completes_of_only (selectFalls_only s)

/-- Settles O3, by the frame of every row. -/
theorem everyWellFormedCommandCompletes : Obligations.EveryWellFormedCommandCompletes := by
  refine ⟨fun c s hc => exec_completes c s ?_ ?_, ?_, ?_⟩
  · rintro l b bytes rfl
    have wf : (Instr.tileBurst l b bytes).wellFormed = true := hc.resolve_right (by rintro ⟨_, _, _, h⟩; cases h)
    simpa [Instr.wellFormed, burstBytes] using wf
  · rintro kind n rfl
    exact not_namesKind (hc.resolve_right (by rintro ⟨_, _, _, h⟩; cases h))
  · intro l b bytes s hne
    rw [exec, execTileBurst, if_neg (by simpa [burstBytes] using hne)]
  · intro k n s hk
    have named : namesKind (some k) = true := by obtain rfl | rfl := hk <;> rfl
    rw [exec, execInvalidTransaction, named, if_pos rfl]

/-! ### Laws of the lanes and the pool -/

/-- A law of the lanes and the pool that the operations on them keep. -/
structure LaneLaw (P : State → Prop) : Prop where
  /-- Lines leave the queues or are released. -/
  thins : ∀ {s t}, Thins s t → P s → P t
  /-- The lanes and the pool stand. -/
  congr : ∀ {s t : State}, t.lanes = s.lanes → t.poolFree = s.poolFree → P s → P t
  /-- A lane that is not STOPPED changes, but for its queue, its assembly state and its descriptor. -/
  relabel : ∀ {s : State} {l : LaneId} {f : Lane → Lane}, (∀ x, (f x).queue = x.queue ∧ (f x).assembly = x.assembly ∧
    (f x).desc = x.desc) → (f (s.lane l)).state ≠ .stopped → P s → P (s.modLane l f)
  assemble : ∀ {s : State} {l : LaneId} (b : Burst), (s.lane l).state ≠ .stopped → P s → P (assemble l b s)
  /-- The line in assembly of a lane is closed for good. -/
  close : ∀ {s : State} {l : LaneId} {p : Position} {n : Nat}, (s.lane l).assembly = .assembling p n →
    (s.lane l).state ≠ .stopped → P s →
    P ((closeTruncated l n s).1.modLane l fun x => { x with assembly := .betweenLines, dropMark := none, recovery := true })
  start : ∀ {s : State} {l : LaneId}, (s.lane l).state = .stopped → P s →
    P (s.modLane l fun x => { freshAssembly x with state := .armed })
  empty : ∀ {s : State} (l : LaneId) (v : LaneState), P s →
    P ((emptyLane l s).modLane l fun x => { freshAssembly x with state := v })
  install : ∀ {s : State} {l : LaneId} {d : Descriptor}, laneSetRefusal s l d = none → P s →
    P (s.modLane l fun x => { x with desc := d })
  blank : ∀ {s : State}, s.lanes = State.blank.lanes → s.poolFree = 1536 → P s

namespace LaneLaw

variable {P : State → Prop}

/-- An operation that touches neither the lanes nor the pool. -/
theorem only {ps : List Part} (law : LaneLaw P) (h : OnlyChanges ps s t) (hs : P s)
    (hp : ∀ p ∈ [Part.lanes, .poolFree], p ∉ ps := by decide) : P t :=
  law.congr (h .lanes (hp _ (by decide))) (h .poolFree (hp _ (by decide))) hs

theorem ite {c : Prop} [Decidable c] {f : State → State} (hf : P s → P (f s)) (hs : P s) :
    P (if c then f s else s) := by
  split
  · exact hf hs
  · exact hs

/-! #### Intake -/

theorem evaluateLane (law : LaneLaw P) (hs : P s) (l : LaneId) : P (evaluateLane l s) :=
  law.thins (evaluateLane_evaluates l s).thins hs

theorem armedArrival (law : LaneLaw P) (hs : P s) (l : LaneId) (b : Burst) : P (armedArrival l b s) := by
  unfold Machine.armedArrival
  split
  · have running : P (s.modLane l fun x => { x with state := .running, silence := 0, recovery := false }) :=
      law.relabel (fun _ => ⟨rfl, rfl, rfl⟩) (by simp) hs
    refine LaneLaw.ite (law.only (raise_only _ _ _ _)) (law.assemble b ?_ (law.evaluateLane running l))
    rw [(evaluateLane_evaluates l _).thins.state, lane_modLane_same]
    simp
  · exact law.only (bump_only _ s) hs

theorem takeBurst (law : LaneLaw P) (hs : P s) (l : LaneId) (b : Burst) : P (takeBurst l b s) := by
  unfold Machine.takeBurst
  split
  · exact hs
  · exact law.armedArrival hs l b
  · rename_i hrun
    refine law.assemble b ?_ (law.relabel (fun _ => ⟨rfl, rfl, rfl⟩) ?_ hs) <;> simp [hrun]
  · split
    · have armed : P (s.modLane l fun x => { x with state := .armed, lastLine := none, dropMark := none }) :=
        law.relabel (fun _ => ⟨rfl, rfl, rfl⟩) (by simp) hs
      exact law.armedArrival (law.evaluateLane armed l) l b
    · exact law.only (bump_only _ s) hs

/-- What a fault does once the line in assembly is closed: LANE_FAULT, and the release unit. -/
theorem faultRaised_handedOver (law : LaneLaw P) (l : LaneId) (d : Nat) (kept : Bool)
    (hs : P (setLane l { s.lane l with assembly := .betweenLines, dropMark := none, recovery := true } s)) :
    P (faultHandedOver kept l (faultRaised d l s)) :=
  law.thins (faultHandedOver_thins kept l _) (law.only (raise_only _ _ _ _) hs)

theorem faultLane (law : LaneLaw P) (hs : P s) (l : LaneId) (d : Nat) : P (faultLane d l s) := by
  have down : P (fallen l s) :=
    law.only (lagQuietly_only l _) (law.relabel (f := fun x => { x with state := .faulted })
      (fun _ => ⟨rfl, rfl, rfl⟩) (by simp) hs)
  have lane := fallen_lane l s
  cases hopen : (s.lane l).assembly with
  | betweenLines =>
    have between : { (fallen l s).lane l with assembly := .betweenLines, dropMark := none, recovery := true } =
        { (fallen l s).lane l with dropMark := none, recovery := true } := by rw [lane, ← hopen]
    rw [faultLane_between hopen]
    refine law.faultRaised_handedOver l d false ?_
    rw [between]
    exact law.relabel (f := fun x => { x with dropMark := none, recovery := true }) (fun _ => ⟨rfl, rfl, rfl⟩)
      (by rw [lane]; simp) down
  | assembling p n =>
    rw [faultLane_closes hopen]
    exact law.faultRaised_handedOver l d _
      (law.close (p := p) (by rw [lane]; exact hopen) (by rw [lane]; simp) down)

theorem silenceExpiry (law : LaneLaw P) (hs : P s) (l : LaneId) : P (silenceExpiry l s) := by
  unfold Machine.silenceExpiry
  split
  · rename_i h
    have running : (s.lane l).state = .running := by simpa [isRunning] using h.1
    have silent : P (s.modLane l fun x => { x with silence := 8 }) :=
      law.relabel (fun _ => ⟨rfl, rfl, rfl⟩) (by simp [running]) hs
    exact law.faultLane silent l 2
  · exact hs

theorem silenceTick (law : LaneLaw P) (hs : P s) (l : LaneId) : P (silenceTick l s) := by
  unfold Machine.silenceTick
  split
  · rename_i h
    have running : (s.lane l).state = .running := by simpa [isRunning] using h
    split
    · exact law.silenceExpiry hs l
    · exact law.relabel (fun _ => ⟨rfl, rfl, rfl⟩) (by simp [running]) hs
  · exact hs

theorem each {α : Type} {f : α → State → State} (hf : ∀ a s, P s → P (f a s)) (xs : List α) (hs : P s) :
    P (State.each f xs s) := by
  induction xs generalizing s with
  | nil => exact hs
  | cons a rest ih => exact ih (hf a s hs)

theorem stopLane (law : LaneLaw P) (hs : P s) (l : LaneId) : P (stopLane l s) := by
  unfold Machine.stopLane
  split
  · exact hs
  · exact law.evaluateLane (law.only (lagQuietly_only l _) (law.empty l .stopped hs)) l

theorem restartLane (law : LaneLaw P) (hs : P s) (l : LaneId) : P (restartLane l s) := by
  unfold Machine.restartLane
  split
  · exact hs
  · exact law.empty l .armed hs

theorem installDescriptor (law : LaneLaw P) (hs : P s) {d : Descriptor} (h : laneSetRefusal s l d = none) :
    P (installDescriptor l d s) := by
  have placed (v : Option Standing) : P ((s.setStanding l v).modLane l fun x => { x with desc := d }) :=
    law.only (setStanding_only l v _) (law.install h hs)
  unfold Machine.installDescriptor
  simp only
  split
  · exact placed _
  · exact law.thins (evaluateOption_evaluates _ _).thins (law.thins (evaluateOption_evaluates _ _).thins (placed _))

/-! #### Reset and commands -/

theorem startFromReset (law : LaneLaw P) (k : Byte) (s : State) : P (startFromReset k s) :=
  law.blank (settleDown_only _ .lanes (by decide)) (settleDown_only _ .poolFree (by decide))

theorem restartLink (law : LaneLaw P) (hs : P s) : P (restartLink s) := by
  have recorded : P ((restartRecords s).modLink restartedLink) :=
    law.only (modLink_only _ _) (law.only (restartRecords_only s) hs)
  have groups (v : State) (hv : P v) : P (restartGroups v) :=
    law.thins (evaluate_evaluates .b _).thins (law.thins (evaluate_evaluates .a _).thins
      (law.only (modRelease_only _ v) hv))
  have restarted : P (State.each Machine.restartLane laneIds ((restartRecords s).modLink restartedLink)) :=
    LaneLaw.each (P := P) (fun l s hs => law.restartLane (s := s) hs l) laneIds recorded
  have grouped := groups _ restarted
  unfold Machine.restartLink
  dsimp only
  generalize restartGroups _ = u at grouped ⊢
  refine law.only (restartServices_only _) (law.only (modPlan_only _ _) ?_)
  exact law.congr (s := u) rfl rfl grouped

theorem perform (law : LaneLaw P) (hs : P s) (o : Origin) (tag : Byte) (c : Cmd) : P (perform o tag c s).1 := by
  have unchanged {c : Cmd} (hc : ∀ p ∈ [Part.lanes, .poolFree], p ∉ cmdParts c) : P (Machine.perform o tag c s).1 :=
    law.only (perform_only o tag c s) hs hc
  cases c with
  | partReset => exact law.startFromReset 2 s
  | laneSet l c w h m a g =>
    simp only [Machine.perform, cmdLaneSet]
    split
    · split
      · exact hs
      · rename_i accepted
        exact law.installDescriptor hs accepted
    · exact hs
  | laneStart l =>
    simp only [Machine.perform, cmdLaneStart]
    split
    · exact hs
    · split
      · rename_i h
        exact law.evaluateLane (law.start h.1 hs) _
      · exact hs
  | laneStop l =>
    simp only [Machine.perform, cmdLaneStop]
    split
    · exact hs
    · exact law.stopLane hs _
  | groupSet g k =>
    simp only [Machine.perform, cmdGroupSet]
    split
    · exact hs
    · exact law.thins (evaluate_evaluates _ _).thins (law.only (modGroup_only _ _ _) hs)
  | linkRestart => exact law.restartLink hs
  | _ => exact unchanged (by simp [cmdParts])

theorem takeCommand (law : LaneLaw P) (hs : P s) (o : Origin) (op tag : Byte) (c : Option Cmd) :
    P (takeCommand o op tag c s).1 := by
  cases c with
  | none => exact hs
  | some c =>
    simp only [Machine.takeCommand]
    split
    · exact hs
    · split
      · exact hs
      · exact law.perform hs o tag c

theorem takeHeadCommand (law : LaneLaw P) (hs : P s) (op tag : Byte) (c : Option Cmd) :
    P (takeHeadCommand op tag c s) := by
  unfold Machine.takeHeadCommand
  split
  · exact law.only (modPort_only _ s) hs
  · exact law.only (answerHead_only _) (law.takeCommand hs .head op tag c)

theorem takeBaseCommand (law : LaneLaw P) (hs : P s) (op tag : Byte) (c : Option Cmd) :
    P (takeBaseCommand op tag c s) := by
  unfold Machine.takeBaseCommand
  split
  · exact law.only (bump_only _ s) hs
  · exact law.only (answerBase_only _) (law.takeCommand hs .base op tag c)

theorem submit (law : LaneLaw P) (hs : P s) (o : Origin) (tag : Byte) (c : Cmd) : P (submit o tag c s) := by
  unfold Machine.submit
  split
  · exact hs
  · split
    · exact law.takeHeadCommand hs _ tag _
    · exact LaneLaw.ite (fun hs => law.takeBaseCommand hs _ tag _) hs

/-! #### Head port, receiver, tick -/

theorem endTransaction (law : LaneLaw P) {body : Byte → State → State} (hb : ∀ b s, P s → P (body b s)) (hs : P s) :
    P (endTransaction body s) := by
  have fallen : P (selectFalls s) := law.only (selectFalls_only s) hs
  unfold Machine.endTransaction
  simp only
  split
  · exact law.only (selectHigh_only _) fallen
  · split
    · exact law.only (selectHigh_only _) fallen
    · exact law.only (selectHigh_only _) (hb _ _ fallen)

theorem commandTransaction (law : LaneLaw P) (hs : P s) (bytes : List Byte) (cut : Bool) (status : Byte) :
    P (commandTransaction bytes cut status s) := by
  have gathered : P (gatherFrame bytes cut (shiftOut (zeroBytes bytes.length) (clearShown status s))) :=
    law.only (modPort_only _ _) (law.only (modPort_only _ _) (law.only (modPort_only _ s) hs))
  unfold Machine.commandTransaction takeFrame
  split
  · exact law.only (modPort_only _ _) gathered
  · split
    · exact law.only (modPort_only _ _) gathered
    · exact law.takeHeadCommand gathered _ _ _

theorem deliverCell (law : LaneLaw P) (hs : P s) (c : Option Cell) : P (deliverCell c s) := by
  unfold Machine.deliverCell
  split
  · exact law.only (bump_only _ s) hs
  · split
    · unfold takeCommandCell
      split
      · exact law.takeBaseCommand hs _ _ none
      · exact law.takeBaseCommand hs _ _ _
    · exact LaneLaw.ite (law.only (relayArrives_only _ s)) hs

theorem takeUpstream (law : LaneLaw P) (hs : P s) (bytes : List Byte) : P (takeUpstream bytes s) := by
  have marked (f : UpReceiver → UpReceiver) : P (s.modRx f) := law.only (modRx_only f s) hs
  unfold Machine.takeUpstream
  split
  · exact hs
  · split
    · exact law.only (bump_only _ s) hs
    · split
      · exact law.only (deliverReturns_only _ _) (LaneLaw.ite (law.only (takeAux_only _ _))
          (law.deliverCell (law.only (deliverHeader_only _ _) (marked _)) _))
      · exact law.only (bump_only _ _) (marked _)

theorem referenceTick (law : LaneLaw P) (hs : P s) : P (referenceTick s) := by
  have framed : P (frameEvent (s.modPlan fun p => { p with lossTaken := false })) :=
    law.thins (frameEvent_thins _) (law.only (modPlan_only _ s) hs)
  unfold Machine.referenceTick
  generalize frameEvent _ = u at framed ⊢
  have supervised : P (if supervisedState s.link.state then superviseTick u else u) :=
    LaneLaw.ite (law.only (superviseTick_only u)) framed
  have silenced := LaneLaw.each (P := P) (fun l s hs => law.silenceTick (s := s) hs l) laneIds supervised
  exact law.only (endOfTick_only _) (law.only (tallyTick_only _) silenced)

theorem whenLive {f : State → State} (hf : P s → P (f s)) (hs : P s) : P (whenLive f s) := by
  unfold Machine.whenLive
  split
  · exact hs
  · exact hf hs

/-- An event that touches neither the lanes nor the pool. -/
theorem live (law : LaneLaw P) {ps : List Part} {f : State → State} (hf : ∀ s, OnlyChanges ps s (f s)) (hs : P s)
    (hp : ∀ p ∈ [Part.lanes, .poolFree], p ∉ ps := by decide) : P (Machine.whenLive f s) :=
  LaneLaw.whenLive (fun hs => law.only (hf s) hs hp) hs

theorem pinned (law : LaneLaw P) (f : Pins → Pins) (hs : P s) : P (s.modPins f) := law.only (modPins_only f s) hs

theorem exec (law : LaneLaw P) (hs : P s) (i : Instr) (h : exec i s = .next t) : P t := by
  induction i using instr_cases with
  | command o tag c => rw [exec_row] at h; cases h; exact law.submit hs o tag c
  | pinReset => cases h; exact law.blank rfl rfl
  | resetRelease =>
    cases h
    unfold releaseReset
    split
    · exact law.startFromReset 1 _
    · exact hs
  | referenceTick => cases h; exact LaneLaw.whenLive law.referenceTick hs
  | tileBurst l b bytes =>
    rw [Machine.exec, execTileBurst] at h
    split at h
    · cases h; exact LaneLaw.whenLive (fun hs => law.takeBurst hs l _) (law.pinned _ hs)
    · cases h
  | boardReadyFall l =>
    cases h
    exact LaneLaw.whenLive (fun hs => LaneLaw.ite (fun hs => law.faultLane hs l 1) hs) (law.pinned _ hs)
  | laneSilenceExpiry l => cases h; exact LaneLaw.whenLive (fun hs => law.silenceExpiry hs l) hs
  | switchCountdownEnd => cases h; exact law.live countdownEnd_only hs
  | classCountdownEnd => cases h; exact law.live classCountEnd_only hs
  | trainSwitchEnd => cases h; exact law.live trainEnd_only hs
  | echoWatchExpiry => cases h; exact law.live echoExpiry_only hs
  | lossCriterionMet => cases h; exact law.live lossCriterion_only hs
  | referenceLost => cases h; exact law.live referenceGone_only hs
  | holdTimerExpiry => cases h; exact law.live holdExpiry_only hs
  | retryTimerExpiry => cases h; exact law.live retryExpiry_only hs
  | measureTimerExpiry => cases h; exact law.live measureExpiry_only hs
  | offerTimerExpiry => cases h; exact law.live offerExpiry_only hs
  | answerTimerExpiry => cases h; exact law.live answerExpiry_only hs
  | marginTimerExpiry => cases h; exact law.live marginExpiry_only hs
  | stepUpTimerExpiry => cases h; exact law.live stepUpExpiry_only hs
  | tallyHoldExpiry => cases h; exact law.live tallyExpiry_only hs
  | carrierRise => cases h; exact law.live settleDown_only (law.pinned _ hs)
  | carrierFall => cases h; exact law.live carrierLost_only (law.pinned _ hs)
  | marginWarningRise =>
    rw [Machine.exec, execMarginWarningRise] at h
    split at h
    · cases h; exact hs
    · cases h; exact law.live warningRises_only (law.pinned _ hs)
  | marginWarningFall =>
    rw [Machine.exec, execMarginWarningFall] at h
    split at h
    · cases h; exact law.live warningFalls_only (law.pinned _ hs)
    · cases h; exact hs
  | measurementResult k => cases h; exact law.live (takeMeasurement_only k) hs
  | upstreamFrame bytes => cases h; exact LaneLaw.whenLive (fun hs => law.takeUpstream hs bytes) hs
  | headCommandFrame bytes cut =>
    cases h; exact law.endTransaction (fun b s hs => law.commandTransaction hs bytes cut b) hs
  | fetch n =>
    cases h; exact law.endTransaction (fun b s hs => law.only (fetchTransaction_only n b s) hs) hs
  | invalidTransaction kind n =>
    rw [Machine.exec, execInvalidTransaction] at h
    split at h
    · cases h
    · cases h; exact law.endTransaction (fun b s hs => law.only (invalidTransaction_only kind n b s) hs) hs
  | sidelineByteReceived i d p b => cases h; exact law.live (sideIn_only i d p b) hs
  | sidelineByteSent i => cases h; exact law.live (sideSent_only i) hs
  | returnTileTake => cases h; exact law.live viewfinderTakes_only hs
  | selectFall => cases h; exact law.only (selectFalls_only s) hs

/-- Such a law is kept by every step. -/
theorem step (law : LaneLaw P) (hs : P s) (h : step s = .next t) : P t := by
  unfold Machine.step at h
  split at h
  · cases h; exact law.only (idle_only s) hs
  · rename_i c rest _
    have popped : P { s with pending := rest } := law.congr (s := s) rfl rfl hs
    exact law.exec popped c h

end LaneLaw

/-! ### The law of the pool -/

theorem emptyLane_lane (l : LaneId) (s : State) : (emptyLane l s).lane l = { s.lane l with queue := [] } := by
  rw [emptyLane, (countCut_recording l _).lane, lane_requeue]

theorem emptyLane_lane_other (hk : k ≠ l) (s : State) : (emptyLane l s).lane k = s.lane k := by
  rw [emptyLane, (countCut_recording l _).lane, lane_requeue_other hk]

theorem emptyLane_poolFree (l : LaneId) (s : State) : (emptyLane l s).poolFree = s.poolFree + held s l := by
  rw [emptyLane, (countCut_recording l _).poolFree]; rfl

/-- One lane has another shape, and its buffers are where they were. -/
theorem poolConserved_lane (h : PoolConserved s) (others : ∀ k, k ≠ l → t.lane k = s.lane k) (hl : LaneShape (t.lane l))
    (exchange : t.poolFree + held t l = s.poolFree + held s l) : PoolConserved t := by
  refine ⟨fun k => ?_, (poolTotal_of_lane l others exchange).trans h.2⟩
  by_cases hk : k = l
  · subst hk; exact hl
  · rw [others k hk]; exact h.1 k

theorem poolConserved_modLane {f : Lane → Lane} (h : PoolConserved s)
    (hf : (f (s.lane l)).queue = (s.lane l).queue) (hl : LaneShape (f (s.lane l))) : PoolConserved (s.modLane l f) :=
  poolConserved_lane h (fun k hk => lane_modLane_other l k f s hk) (by rwa [lane_modLane_same])
    (by rw [held, lane_modLane_same, hf]; rfl)

theorem poolLaw : LaneLaw PoolConserved where
  thins h hs := h.poolConserved hs
  congr hl hp hs := poolConserved_congr hl hp hs
  relabel := by
    intro s l f hf hlive hs
    obtain ⟨hq, ha, -⟩ := hf (s.lane l)
    refine poolConserved_modLane hs hq ((laneShape_iff _).mpr ⟨?_, fun h => absurd h hlive⟩)
    rw [hq, ha]
    exact ((laneShape_iff _).mp (hs.1 l)).1
  assemble b hlive hs := poolConserved_assemble hs hlive b
  close := by
    intro s l p n ha hlive hs
    obtain ⟨closed, between⟩ := poolConserved_closeTruncated hs ha
    have live : ((closeTruncated l n s).1.lane l).state ≠ .stopped := by
      rw [(closeTruncated_assembles n s).feeds.state]; exact hlive
    refine poolConserved_modLane closed rfl ((laneShape_iff _).mpr ⟨?_, fun h => absurd h live⟩)
    have shape := ((laneShape_iff _).mp (closed.1 l)).1
    rwa [between] at shape
  start := by
    intro s l hstopped hs
    have empty : (s.lane l).queue = [] := ((laneShape_iff _).mp (hs.1 l)).2 hstopped
    refine poolConserved_modLane hs rfl ((laneShape_iff _).mpr ⟨?_, fun h => by simp at h⟩)
    change QueueShape .betweenLines (s.lane l).queue
    rw [empty]; exact queueShape_nil
  empty := by
    intro s l v hs
    have lane : ((emptyLane l s).modLane l fun x => { freshAssembly x with state := v }).lane l =
        { freshAssembly (s.lane l) with state := v, queue := [] } := by
      rw [lane_modLane_same, emptyLane_lane]; rfl
    refine poolConserved_lane hs (l := l) (fun k hk => ?_) ?_ ?_
    · rw [lane_modLane_other l k _ _ hk, emptyLane_lane_other hk]
    · rw [lane]; exact (laneShape_iff _).mpr ⟨queueShape_nil, fun _ => rfl⟩
    · rw [held, lane]; exact emptyLane_poolFree l s
  install := by
    intro s l d _ hs
    exact poolConserved_modLane hs rfl ((laneShape_iff _).mpr ((laneShape_iff _).mp (hs.1 l)))
  blank := by
    intro s hl hp
    have lane (l : LaneId) : s.lane l = Lane.reset := by rw [State.lane, hl]; cases l <;> rfl
    refine ⟨fun l => ?_, ?_⟩
    · rw [lane]; exact (laneShape_iff _).mpr ⟨queueShape_nil, fun _ => rfl⟩
    · simp only [held, lane, hp]; rfl

/-! ### The law of the allotments -/

/-- The allotments of the configured lanes, together (R24). -/
def allottedTotal (s : State) : Nat :=
  allotted (s.lane .l0).desc + allotted (s.lane .l1).desc + allotted (s.lane .l2).desc + allotted (s.lane .l3).desc

theorem allotmentsKept_of_lanes (h : AllotmentsKept s) (hd : ∀ k, (t.lane k).desc = (s.lane k).desc)
    (hk : ∀ k, held t k ≤ (s.lane k).desc.allotment ∧ ((t.lane k).state = .stopped → (t.lane k).queue = [])) :
    AllotmentsKept t := by
  refine ⟨fun k => by rw [hd]; exact hk k, ?_⟩
  change allottedTotal t ≤ 1536
  simp only [allottedTotal, hd]
  exact h.2

theorem allotmentsKept_modLane {f : Lane → Lane} (h : AllotmentsKept s)
    (hf : (f (s.lane l)).queue = (s.lane l).queue ∧ (f (s.lane l)).desc = (s.lane l).desc)
    (hl : (f (s.lane l)).state = .stopped → (s.lane l).queue = []) : AllotmentsKept (s.modLane l f) := by
  refine allotmentsKept_of_lanes h (fun k => ?_) fun k => ?_ <;> by_cases hk : k = l
  · subst hk; rw [lane_modLane_same, hf.2]
  · rw [lane_modLane_other l k f s hk]
  · subst hk; rw [held, lane_modLane_same, hf.1]; exact ⟨(h.1 k).1, hl⟩
  · rw [held, lane_modLane_other l k f s hk]; exact h.1 k

theorem Feeds.allotmentsKept (h : Feeds l s t) (hlive : (s.lane l).state ≠ .stopped) (hs : AllotmentsKept s) :
    AllotmentsKept t := by
  refine allotmentsKept_of_lanes hs h.desc fun k => ⟨?_, fun hk => ?_⟩
  · have := h.held k
    have := (hs.1 k).1
    omega
  · rw [h.state] at hk
    exact h.empty k (by rintro rfl; exact hlive hk) ((hs.1 k).2 hk)

theorem Thins.allotmentsKept (h : Thins s t) (hs : AllotmentsKept s) : AllotmentsKept t :=
  allotmentsKept_of_lanes hs h.desc fun k =>
    ⟨(h.queue k).held.trans (hs.1 k).1, fun hk => (h.queue k).empty ((hs.1 k).2 (h.state k ▸ hk))⟩

/-- The sum of check 5 is that of what the lanes count for, the new descriptor in its place (Table 1-3). -/
theorem allotmentSum_eq (s : State) (l : LaneId) (d : Descriptor) :
    allotmentSum s l d = (laneIds.map fun k => allotted (if k = l then d else (s.lane k).desc)).sum := rfl

/-- A new descriptor that passes check 5 of LANE_SET keeps the sum of the allotments within the pool. -/
theorem allotted_sum_of_accepted {d : Descriptor} (h : laneSetRefusal s l d = none) (hs : AllotmentsKept s) :
    allottedTotal (s.modLane l fun x => { x with desc := d }) ≤ 1536 := by
  have sum : allottedTotal (s.modLane l fun x => { x with desc := d }) = allotmentSum s l d := by
    rw [allotmentSum_eq]
    cases l <;> simp [allottedTotal, laneIds, State.lane, PerLane.get, PerLane.set] <;> omega
  have former : allottedTotal s ≤ 1536 := hs.2
  rw [sum]
  cases hc : d.configured with
  | true =>
    by_contra hover
    simp only [laneSetRefusal, hc, if_true] at h
    split at h
    · cases h
    · split at h
      · cases h
      · rw [if_pos (by omega)] at h; cases h
  | false =>
    refine le_trans ?_ former
    have none : allotted d = 0 := by simp [allotted, hc]
    rw [allotmentSum_eq]
    cases l <;> simp [allottedTotal, laneIds, none] <;> omega

theorem allotmentLaw : LaneLaw AllotmentsKept where
  thins h hs := h.allotmentsKept hs
  congr := by
    intro s t hl _ hs
    exact allotmentsKept_of_lanes hs (fun k => by rw [lane_congr hl]) fun k => by
      rw [held, lane_congr hl]; exact hs.1 k
  relabel := by
    intro s l f hf hlive hs
    obtain ⟨hq, -, hd⟩ := hf (s.lane l)
    exact allotmentsKept_modLane hs ⟨hq, hd⟩ fun h => absurd h hlive
  assemble := by
    intro s l b hlive hs
    exact (assemble_feeds l b s).allotmentsKept hlive hs
  close := by
    intro s l p n _ hlive hs
    have closed := (closeTruncated_assembles (l := l) n s).feeds
    refine allotmentsKept_modLane (closed.allotmentsKept hlive hs) ⟨rfl, rfl⟩ fun h => absurd h ?_
    change ((closeTruncated l n s).1.lane l).state ≠ .stopped
    rw [closed.state]; exact hlive
  start := by
    intro s l hstopped hs
    exact allotmentsKept_modLane hs ⟨rfl, rfl⟩ fun h => by simp at h
  empty := by
    intro s l v hs
    refine allotmentsKept_of_lanes hs (fun k => ?_) fun k => ?_ <;> by_cases hk : k = l
    · subst hk; rw [lane_modLane_same, emptyLane_lane]; rfl
    · rw [lane_modLane_other l k _ _ hk, emptyLane_lane_other hk]
    · subst hk; rw [held, lane_modLane_same, emptyLane_lane]; exact ⟨Nat.zero_le _, fun _ => rfl⟩
    · rw [held, lane_modLane_other l k _ _ hk, emptyLane_lane_other hk]; exact hs.1 k
  install := by
    intro s l d h hs
    refine ⟨fun k => ?_, allotted_sum_of_accepted h hs⟩
    by_cases hk : k = l
    · subst hk
      have stopped : (s.lane k).state = .stopped := by
        by_contra hne
        rw [laneSetRefusal, if_pos hne] at h
        cases h
      rw [held, lane_modLane_same]
      have empty := (hs.1 k).2 stopped
      simp [empty]
    · rw [held, lane_modLane_other l k _ s hk]; exact hs.1 k
  blank := by
    intro s hl _
    have lane (l : LaneId) : s.lane l = Lane.reset := by rw [State.lane, hl]; cases l <;> rfl
    refine ⟨fun l => ?_, ?_⟩
    · rw [held, lane]; exact ⟨Nat.zero_le _, fun _ => rfl⟩
    · change allottedTotal s ≤ 1536
      simp only [allottedTotal, lane]
      decide

/-- Settles O6: both laws are laws of the lanes and the pool that their few operations keep. -/
theorem everyStepKeepsThePoolAndAllotmentLaws : Obligations.EveryStepKeepsThePoolAndAllotmentLaws :=
  ⟨fun _ _ hs h => poolLaw.step hs h, fun _ _ hs h => allotmentLaw.step hs h⟩

end Sys2Proof.Proofs

/-! # Proofs: resets and commands that read

What a row of the command table does, in one equation for both ways in; the three resets; the commands that answer and change
nothing. -/

namespace Sys2Proof.Proofs

open Sys2Proof.Machine Sys2Proof.Claims

variable {o : Origin} {tag : Byte} {c : Cmd} {s t : State} {r : Reply}

/-! ### Commands that are taken -/

/-- A command that is taken and permitted: its own effect, and its response where the responses of its origin go. -/
theorem exec_taken (h : Ready o s) (hc : perform o tag c s = (t, some r)) (hw : c.wellFormed = true := by rfl)
    (hp : o = .base → permitted .base c = true := by intro _; rfl) :
    exec (row o tag c) s = replies o c.opcode tag r.result r.data t := by
  obtain ⟨live, ready⟩ := h
  rw [exec_row]
  cases o with
  | head => rw [submit_head live ready hw, hc]; rfl
  | base => rw [submit_base live (baseArrives_of_receives ready.1) ready.2 hw (hp rfl), hc]; rfl

/-- A command that Table 10-3 permits from the head port alone, given by the base link. -/
theorem exec_refused_base (h : Ready .base s) (hp : permitted .base c = false) (hw : c.wellFormed = true := by rfl) :
    exec (row .base tag c) s = replies .base c.opcode tag .notPermitted [] s := by
  obtain ⟨live, receiving, room⟩ := h
  rw [exec_row, submit_base_refused live (baseArrives_of_receives receiving) room hw hp]
  rfl

theorem answers_answered (o : Origin) (opcode : Byte) (r : ResultCode) (data : List Byte)
    (h : OnlyChanges ps s t) (hp : Part.port ∉ ps ∧ Part.responses ∉ ps := by decide) :
    Answers o opcode tag r data s (answered o { opcode := opcode, tag := tag, result := r, data := data } t) := by
  cases o with
  | head =>
    have port : t.port = s.port := h .port hp.1
    simp only [Answers, answered, port]
  | base => exact congrArg (· ++ _) (h .responses hp.2)

/-! ### Numbers in bytes -/

@[simp] theorem laneOf_laneNum (l : LaneId) : laneOf (byteOf (laneNum l)).toNat = some l := by cases l <;> rfl

theorem laneOf_eq_none {n : Nat} (h : 3 < n) : laneOf n = none := by
  unfold laneOf
  split <;> simp at h ⊢

/-- A figure that fits its byte is sent as it is (log 20). -/
theorem figureByte_of_lt {n : Nat} (h : n < 256) : figureByte n = byteOf n := if_pos h

/-- A figure in two bytes is some word, its own where it fits (log 20). -/
theorem figureWord_eq (n : Nat) : ∃ y : Word16, (n < 65536 → y = wordOf n) ∧ figureWord n = wordBytes y := by
  unfold figureWord
  split
  · exact ⟨wordOf n, fun _ => rfl, rfl⟩
  · rename_i h
    exact ⟨_, fun hn => absurd hn h, rfl⟩

/-! ### Resets -/

/-- The start of every block from its reset value, with the pins as given (R148, R174). -/
theorem startFromReset_eq (k : Byte) (s : State) : startFromReset k s =
    { State.blank with
      pins := s.pins, pending := s.pending, events := { EventUnit.reset with queue := [resetDone k] },
      link := if s.pins.carrier then
          { LinkCtl.reset with
            state := .measure, measureRequests := 1, timers := { Timers.stopped with measure := some 400 } }
        else LinkCtl.reset } := by
  unfold startFromReset settleDown
  cases hc : s.pins.carrier with
  | false => rw [if_neg (by simp [resetBlocks, hc])]; rfl
  | true => rw [if_pos (by simp [resetBlocks, hc, State.blank, LinkCtl.reset])]; rfl

/-- Settles O11, by the start of the blocks from their reset values. -/
theorem resetsStartThePart : Obligations.ResetsStartThePart := by
  refine ⟨fun _ => rfl, fun s => ⟨fun low => ?_, fun high => ?_, fun tag ready => ?_⟩⟩
  · change Host.Outcome.next (releaseReset s) = _
    rw [releaseReset, if_pos low, startFromReset_eq]
    rfl
  · change Host.Outcome.next (releaseReset s) = _
    rw [releaseReset, if_neg (by simp [high])]
  · obtain ⟨high, idle⟩ := ready
    change exec (row .head tag .partReset) s = _
    rw [exec_row, submit_head high idle rfl]
    change Host.Outcome.next (startFromReset 2 s) = _
    have pins : { s.pins with resetLow := false } = s.pins := by rw [← high]
    rw [startFromReset_eq, pins]

/-! ### Commands that read -/

/-- Settles O14, by the reply of each command. -/
theorem identifyLinkStatusAndLaneGetAnswer : Obligations.IdentifyLinkStatusAndLaneGetAnswer := by
  refine ⟨fun o tag s h => ?_, fun o tag s h => ?_, fun o tag x s h hx => ?_, fun o tag l s h => ?_⟩
  · exact exec_taken (c := .identify) h rfl
  · refine (exec_taken (c := .linkStatus) h rfl).trans (congrArg (replies o 16 tag .done · s) ?_)
    change linkData s = _
    rw [linkData]
    cases s.link.proposal <;> rfl
  · have reply : perform o tag (.laneGet x) s = (s, some (refusal .range)) := by
      simp only [perform, cmdLaneGet, laneOf_eq_none hx]; rfl
    exact exec_taken (c := .laneGet x) h reply
  · intro d count
    obtain ⟨y, hy, word⟩ := figureWord_eq (demand d)
    refine ⟨figureByte (tiles d), y, figureByte_of_lt, hy, ?_⟩
    have reply : perform o tag (.laneGet (byteOf (laneNum l))) s = (s, some (doneWith (laneData l s))) := by
      simp only [perform, cmdLaneGet, laneOf_laneNum]
    refine (exec_taken (c := .laneGet _) h reply).trans (congrArg (replies o 6 tag .done · s) ?_)
    change laneData l s = _
    simp only [laneData, d, word, count]
    simp [counterBytes, countersOf, tiles, tilesPerLine]

end Sys2Proof.Proofs

/-! # Proofs: a burst by the state of its lane

The row of a burst, by lane state, and what line assembly does with a burst by what it finds: the screening, the drop mark, and
the line in assembly (R2, R7, R10, R14 to R17). -/

namespace Sys2Proof.Proofs

open Sys2Proof.Machine Sys2Proof.Claims

variable {s u : State} {l : LaneId} {b : Burst} {ready : Bool} {bytes : List Byte} {p : Position} {e : Nat}

/-! ### The state in which a burst is assembled -/

/-- A level of board-ready that stands is recorded without a change. -/
theorem setBoardReady_self (h : s.pins.boardReady.get l = ready) : setBoardReady l ready s = s := by
  simp [setBoardReady, State.modPins, ← h]

theorem heard_eq (l : LaneId) (ready : Bool) (s : State) :
    heard l ready s = (setBoardReady l ready s).modLane l fun x => { x with silence := 0 } := rfl

@[simp] theorem heard_lane (l : LaneId) (ready : Bool) (s : State) :
    (heard l ready s).lane l = { s.lane l with silence := 0 } := lane_setLane_same l _ _

@[simp] theorem heard_poolFree (l : LaneId) (ready : Bool) (s : State) : (heard l ready s).poolFree = s.poolFree := rfl

@[simp] theorem held_heard (l : LaneId) (ready : Bool) (s : State) : held (heard l ready s) l = held s l := by
  simp [held]

@[simp] theorem room_heard (l : LaneId) (ready : Bool) (s : State) : room (heard l ready s) l = room s l := by
  simp [room]

/-- A lane that has just been heard is as it was. -/
theorem heard_self (hp : s.pins.boardReady.get l = ready) (hs : (s.lane l).silence = 0) : heard l ready s = s := by
  have same : { s.lane l with silence := 0 } = s.lane l := by rw [← hs]
  rw [heard_eq, setBoardReady_self hp, modLane_eq_setLane, same, setLane_self]

theorem setBoardReady_only (l : LaneId) (ready : Bool) (s : State) : OnlyChanges [.pins] s (setBoardReady l ready s) :=
  modPins_only _ s

theorem heard_only (l : LaneId) (ready : Bool) (s : State) : OnlyChanges [.pins, .lanes] s (heard l ready s) := by
  rw [heard_eq]
  exact (setBoardReady_only l ready s).andThen (modLane_only l _ _)

theorem heard_apart (l : LaneId) (ready : Bool) : Apart (heard l ready) := fun _ _ => rfl

/-! ### The row of a burst -/

theorem exec_tileBurst (hb : bytes.length = 392) (live : s.pins.resetLow = false) :
    exec (.tileBurst l ready bytes) s = .next (takeBurst l (burstOf bytes) (setBoardReady l ready s)) := by
  rw [exec, execTileBurst, if_pos (show bytes.length = burstBytes from hb), whenLive]
  exact congrArg _ (if_neg (by simpa [setBoardReady] using live))

theorem takeBurst_stopped (h : (s.lane l).state = .stopped) : takeBurst l b s = s := by simp [takeBurst, h]

theorem takeBurst_armed (h : (s.lane l).state = .armed) : takeBurst l b s = armedArrival l b s := by simp [takeBurst, h]

theorem takeBurst_running (h : (s.lane l).state = .running) :
    takeBurst l b s = assemble l b (s.modLane l fun x => { x with silence := 0 }) := by simp [takeBurst, h]

theorem takeBurst_faulted_low (h : (s.lane l).state = .faulted) (hr : s.pins.boardReady.get l = false) :
    takeBurst l b s = s.bump (.lane l .preStartBursts) := by simp [takeBurst, h, hr]

theorem takeBurst_faulted_high (h : (s.lane l).state = .faulted) (hr : s.pins.boardReady.get l = true) :
    takeBurst l b s = armedArrival l b (evaluateLane l
      (s.modLane l fun x => { x with state := .armed, lastLine := none, dropMark := none })) := by
  simp [takeBurst, h, hr]

/-- A burst on a RUNNING lane is assembled, whatever level of board-ready it carries (log 23). -/
theorem exec_burst_running (hb : bytes.length = 392) (live : s.pins.resetLow = false)
    (h : (s.lane l).state = .running) :
    exec (.tileBurst l ready bytes) s = .next (assemble l (burstOf bytes) (heard l ready s)) := by
  rw [exec_tileBurst hb live, takeBurst_running (s := setBoardReady l ready s) h]
  rfl

/-- The same on a lane that has just been heard. -/
theorem exec_burst_heard (hb : bytes.length = 392) (live : s.pins.resetLow = false) (h : (s.lane l).state = .running)
    (hp : s.pins.boardReady.get l = ready) (hs : (s.lane l).silence = 0) :
    exec (.tileBurst l ready bytes) s = .next (assemble l (burstOf bytes) s) := by
  rw [exec_burst_running hb live h, heard_self hp hs]

/-! ### Arrivals in ARMED -/

/-- A burst that starts the run of an ARMED lane (R7). -/
def StartsRun (l : LaneId) (b : Burst) (s : State) : Prop :=
  b.pos.line = 0 ∧ b.index = 0 ∧ s.pins.boardReady.get l = true

theorem armedArrival_early (h : ¬ StartsRun l b s) : armedArrival l b s = s.bump (.lane l .preStartBursts) := if_neg h

/-- The lane as the start of its run leaves it, its group evaluated (R7, R44). -/
def started (l : LaneId) (s : State) : State :=
  evaluateLane l (setLane l { s.lane l with state := .running, silence := 0, recovery := false } s)

theorem armedArrival_starts (h : StartsRun l b s) :
    armedArrival l b s =
      if (s.lane l).recovery then (assemble l b (started l s)).raise .laneRecover (laneNum l) b.pos.frame.toNat
      else assemble l b (started l s) := if_pos h

/-! ### Assembly of a burst -/

/-- A burst for a tile and a line that the board has (R14). -/
def InBoard (b : Burst) (d : Descriptor) : Prop := b.index < tiles d ∧ b.pos.line < d.h

theorem assemble_excess (h : ¬ InBoard b (s.lane l).desc) : assemble l b s = s.bump (.lane l .excessTiles) := by
  refine if_pos ?_
  rwa [InBoard, not_and_or, not_lt, not_lt] at h

/-- A burst of the board passes the screening (R14). -/
theorem screened_of_inBoard {d : Descriptor} (h : InBoard b d) : ¬ (tilesPerLine d ≤ b.index ∨ d.h ≤ b.pos.line) := by
  rw [not_or, not_le, not_le]; exact h

theorem assemble_marked (h : InBoard b (s.lane l).desc) (hm : (s.lane l).dropMark = some b.pos) :
    assemble l b s = s := by
  simp only [assemble, if_neg (screened_of_inBoard h), if_pos hm]

theorem assemble_between (h : InBoard b (s.lane l).desc) (hm : (s.lane l).dropMark ≠ some b.pos)
    (ha : (s.lane l).assembly = .betweenLines) : assemble l b s = openAndPlace l b s := by
  simp only [assemble, if_neg (screened_of_inBoard h), if_neg hm, ha]

theorem assemble_joins (h : InBoard b (s.lane l).desc) (hm : (s.lane l).dropMark ≠ some b.pos)
    (ha : (s.lane l).assembly = .assembling b.pos e) : assemble l b s = placeBurst l b b.pos e s := by
  simp only [assemble, if_neg (screened_of_inBoard h), if_neg hm, ha, if_true]

/-- A burst for another position closes the line in assembly and opens its own (R16). -/
theorem assemble_elsewhere (h : InBoard b (s.lane l).desc) (hm : (s.lane l).dropMark ≠ some b.pos)
    (ha : (s.lane l).assembly = .assembling p e) (hp : b.pos ≠ p) {kept : Bool}
    (hc : closeTruncated l e s = (u, kept)) :
    assemble l b s = openAndPlace l b (if kept then lineCompleted l u else u) := by
  simp only [assemble, if_neg (screened_of_inBoard h), if_neg hm, ha, if_neg hp, hc]
  cases kept <;> rfl

theorem placeBurst_earlier (h : b.index < e) : placeBurst l b p e s = s.bump (.lane l .excessTiles) := if_pos h

/-! ### The line that a burst opens -/

theorem succeeds_iff (h : Nat) (last p : Position) : succeeds h last p = true ↔ Follows h last p := by
  simp [Machine.succeeds, Follows, and_assoc]

/-- The lane with a line opened for a position, with no tile yet and tile 0 expected (R15). -/
def lineOpened (l : LaneId) (p : Position) (s : State) : State :=
  setLane l { s.lane l with
    assembly := .assembling p 0, lastLine := some p, queue := (s.lane l).queue ++ [openedLine p []] } s

theorem lineOpened_lane (l : LaneId) (p : Position) (s : State) : (lineOpened l p s).lane l =
    { s.lane l with
      assembly := .assembling p 0, lastLine := some p, queue := (s.lane l).queue ++ [openedLine p []] } :=
  lane_setLane_same l _ s

/-- The position follows the last line, or there is none: no gap is counted (R15). -/
theorem openLine_follows
    (h : (s.lane l).lastLine = none ∨ ∃ q, (s.lane l).lastLine = some q ∧ Follows (s.lane l).desc.h q p) :
    openLine l p s = lineOpened l p s := by
  unfold openLine
  obtain h | ⟨q, h, follows⟩ := h
  · simp only [h]; rfl
  · simp only [h, (succeeds_iff _ _ _).mpr follows, if_true]; rfl

theorem openLine_gap {q : Position} (h : (s.lane l).lastLine = some q) (gap : ¬ Follows (s.lane l).desc.h q p) :
    openLine l p s = (lineOpened l p s).bump (.lane l .lineGaps) := by
  have broken : succeeds (s.lane l).desc.h q p = false := by
    rw [← Bool.not_eq_true, succeeds_iff]; exact gap
  unfold openLine
  simp only [h, broken]
  exact ((bump_recording _).modLane l _ s).symm

/-- A burst on a lane that has just been heard, with a line for its position open, joins that line. -/
theorem exec_burst_opened (hb : bytes.length = 392) (live : s.pins.resetLow = false) (h : (s.lane l).state = .running)
    (hp : s.pins.boardReady.get l = ready) (hs : (s.lane l).silence = 0)
    (board : InBoard (burstOf bytes) (s.lane l).desc) (hm : (s.lane l).dropMark ≠ some (burstOf bytes).pos)
    (ha : (s.lane l).assembly = .assembling (burstOf bytes).pos e) :
    exec (.tileBurst l ready bytes) s = .next (placeBurst l (burstOf bytes) (burstOf bytes).pos e s) := by
  rw [exec_burst_heard hb live h hp hs, assemble_joins board hm ha]

/-- Placing a burst leaves the last line as it is, and counts no gap. -/
theorem placeBurst_lastLine (b : Burst) (p : Position) (e : Nat) (s : State) :
    ((placeBurst l b p e s).lane l).lastLine = (s.lane l).lastLine := by
  obtain ⟨u, hu, ht⟩ := placeBurst_assembles (l := l) b p e s
  obtain ⟨q, a, m, hl⟩ := hu.lane
  rw [ht.thins.with_queue, hl]

theorem placeBurst_lineGaps (b : Burst) (p : Position) (e : Nat) (s : State) :
    (placeBurst l b p e s).counter (.lane l .lineGaps) = s.counter (.lane l .lineGaps) := by
  obtain ⟨u, hu, ht⟩ := placeBurst_assembles (l := l) b p e s
  rw [ht.counter _ (by simp [ReleaseCounter]), hu.counter _ (by simp [AssemblyCounter])]

/-! ### Bursts outside a run -/

/-- A count in a state whose pins or lanes have moved. -/
theorem counts_of_agree {id : CounterId} (h : Agree s u) : Counts id s (u.bump id) := ((bump_recording id).agree h).1

/-- Settles O29, by the state of the lane. -/
theorem burstsOutsideARunAreCounted : Obligations.BurstsOutsideARunAreCounted := by
  intro l ready bytes s hb live s0 b
  have level : s0.pins.boardReady.get l = ready := perLane_get_set_same _ _ _
  have moved : Agree s s0 := agree_of_only (setBoardReady_only l ready s)
  have row : exec (.tileBurst l ready bytes) s = .next (takeBurst l b s0) := exec_tileBurst hb live
  refine ⟨fun h => ?_, fun h early => ?_, fun h low => ?_, fun h alone high early => ?_⟩
  · rw [row, takeBurst_stopped (s := s0) h]
  · have early : ¬ StartsRun l b s0 := by
      rintro ⟨line, index, high⟩
      rw [level] at high
      simp [line, index, high] at early
    refine ⟨s0.bump (.lane l .preStartBursts), ?_, counts_of_agree moved, bump_only _ s0⟩
    rw [row, takeBurst_armed (s := s0) h, armedArrival_early early]
  · refine ⟨s0.bump (.lane l .preStartBursts), ?_, counts_of_agree moved, bump_only _ s0⟩
    rw [row, takeBurst_faulted_low (s := s0) h (level.trans low)]
  · let armed := s0.modLane l fun x => { x with state := .armed, lastLine := none, dropMark := none }
    have lane : armed.lane l = { s.lane l with state := .armed, lastLine := none, dropMark := none } :=
      lane_modLane_same l _ s0
    have ungrouped : evaluateLane l armed = armed := by
      rw [evaluateLane, lane, groupOf]; simp [alone]
    have early : ¬ StartsRun l b armed := by
      rintro ⟨line, index, -⟩
      simp [line, index] at early
    refine ⟨armed.bump (.lane l .preStartBursts), ?_,
      counts_of_agree (moved.trans (agree_of_only (modLane_only l _ s0))), ?_, (modLane_only l _ s0).andThen (bump_only _ _)⟩
    · rw [row, takeBurst_faulted_high (s := s0) h (level.trans high)]
      change Host.Outcome.next (armedArrival l b (evaluateLane l armed)) = _
      rw [ungrouped, armedArrival_early early]
    · rw [(bump_recording _).lane, lane]

/-! ### Screening, gaps and the start of a run -/

/-- The evaluation of the group of a lane leaves the lane as it is, but for its queue, and the pins. -/
theorem evaluateLane_lane (l : LaneId) (s : State) :
    (evaluateLane l s).lane l = { s.lane l with queue := ((evaluateLane l s).lane l).queue } :=
  (evaluateLane_evaluates l s).thins.with_queue l

theorem evaluateLane_pins (l : LaneId) (s : State) : (evaluateLane l s).pins = s.pins :=
  evaluateLane_only l s .pins (by decide)

/-- Settles O31, by what line assembly finds and by the state of the lane. -/
theorem burstsAreScreenedAndGapsAreCounted : Obligations.BurstsAreScreenedAndGapsAreCounted := by
  intro l ready bytes s hb live x b run inRange silent
  have lane : silent.lane l = { x with silence := 0 } := heard_lane l ready s
  have level (u : State) : (setBoardReady l ready u).pins.boardReady.get l = ready := perLane_get_set_same _ _ _
  refine ⟨fun running => ?_, fun high line index armed => ?_, fun high faulted => ?_⟩
  · have row : run s = .next (assemble l b silent) := exec_burst_running hb live running
    have board : InBoard b (silent.lane l).desc ↔ inRange := by rw [lane]; rfl
    refine ⟨fun out => ?_, fun board' marked => ?_, fun e board' unmarked ha earlier => ?_,
      fun board' unmarked between => ⟨?_, ?_⟩⟩
    · rw [row, assemble_excess (mt board.mp out)]
    · rw [row, assemble_marked (board.mpr board') (by rw [lane]; exact marked)]
    · rw [row, assemble_joins (board.mpr board') (by rw [lane]; exact unmarked) (by rw [lane]; exact ha),
        placeBurst_earlier earlier]
    · intro opened
      have same : opened = lineOpened l b.pos silent := by
        rw [lineOpened, lane]
      have opens : run s = .next (placeBurst l b b.pos 0 (openLine l b.pos silent)) := by
        rw [row, assemble_between (board.mpr board') (by rw [lane]; exact unmarked) (by rw [lane]; exact between)]
        rfl
      have joins (v : State) (hl : v.lane l = opened.lane l) (hp : v.pins = opened.pins) :
          run v = .next (placeBurst l b b.pos 0 v) := by
        have hl : v.lane l = { x with
            silence := 0, assembly := .assembling b.pos 0, lastLine := some b.pos,
            queue := x.queue ++ [openedLine b.pos []] } := hl.trans (lane_setLane_same l _ _)
        refine exec_burst_opened hb ?_ ?_ ?_ ?_ ?_ ?_ ?_
        · rw [hp]; exact live
        · rw [hl]; exact running
        · rw [hp]; exact level s
        · rw [hl]
        · rw [hl]; exact board'
        · rw [hl]; exact unmarked
        · rw [hl]
      refine ⟨fun follows => ?_, fun q hq gap => ?_⟩
      · rw [opens, openLine_follows (by rw [lane]; exact follows), ← same, joins opened rfl rfl]
      · rw [opens, openLine_gap (by rw [lane]; exact hq) (by rw [lane]; exact gap), ← same,
          joins _ ((bump_recording _).lane _ l) ((bump_recording _).pins _)]
    · let t := placeBurst l b b.pos 0 (openLine l b.pos silent)
      have silent_gaps : silent.counter (.lane l .lineGaps) = s.counter (.lane l .lineGaps) := rfl
      have gaps : t.counter (.lane l .lineGaps) = (openLine l b.pos silent).counter (.lane l .lineGaps) :=
        placeBurst_lineGaps b b.pos 0 _
      refine ⟨t, ?_, ?_, ?_, fun follows => ?_, fun q hq gap => ?_⟩
      · rw [row, assemble_between (board.mpr board') (by rw [lane]; exact unmarked) (by rw [lane]; exact between)]
        rfl
      · exact (heard_only l ready s).andThen ((openLine_only l b.pos _).andThen (rs := evaluationParts)
          (placeBurst_only l b b.pos 0 _))
      · rw [placeBurst_lastLine, openLine_lane]
      · rw [gaps, openLine_follows (by rw [lane]; exact follows)]; rfl
      · rw [gaps, openLine_gap (by rw [lane]; exact hq) (by rw [lane]; exact gap), counter_bump_same (by simp)]; rfl
  · subst high
    have begins (v : State) (hv : (v.lane l).state = .armed) (hlive : v.pins.resetLow = false) :
        run v = .next (if (v.lane l).recovery then
          (assemble l b (started l (setBoardReady l true v))).raise .laneRecover (laneNum l) b.pos.frame.toNat
          else assemble l b (started l (setBoardReady l true v))) := by
      have starts : StartsRun l b (setBoardReady l true v) := ⟨line, index, level v⟩
      have row : run v = .next (takeBurst l b (setBoardReady l true v)) := exec_tileBurst hb hlive
      rw [row, takeBurst_armed (s := setBoardReady l true v) hv, armedArrival_starts starts]
      rfl
    refine ⟨fun fresh => ?_, fun recovering => ?_⟩
    · have begun : started l (setBoardReady l true s) = evaluateLane l (setLane l { x with state := .running, silence := 0 }
          { s with pins := { s.pins with boardReady := s.pins.boardReady.set l true } }) := by
        have cleared : { x with state := .running, silence := 0, recovery := false } =
            { x with state := .running, silence := 0 } := by rw [← fresh]
        change evaluateLane l (setLane l { x with state := .running, silence := 0, recovery := false } _) = _
        rw [cleared]
        rfl
      rw [begins s armed live, if_neg (by simpa using fresh), begun]
      refine (exec_burst_heard hb ?_ ?_ ?_ ?_).symm
      · rw [evaluateLane_pins]; exact live
      · rw [evaluateLane_lane, lane_setLane_same]
      · rw [evaluateLane_pins]; exact level s
      · rw [evaluateLane_lane, lane_setLane_same]
    · let cleared := setLane l { x with recovery := false } s
      have lane_cleared : cleared.lane l = { x with recovery := false } := lane_setLane_same l _ s
      have same : started l (setBoardReady l true cleared) = started l (setBoardReady l true s) := by
        rw [started, started]
        change evaluateLane l (setLane l { cleared.lane l with state := .running, silence := 0, recovery := false }
          (setLane l _ (setBoardReady l true s))) = _
        rw [lane_cleared, setLane_setLane]
        rfl
      refine ⟨assemble l b (started l (setBoardReady l true s)), ?_, ?_⟩
      · rw [begins cleared (by rw [lane_cleared]; exact armed) live, if_neg (by rw [lane_cleared]; simp), same]
      · rw [begins s armed live, if_pos recovering]
  · subst high
    let s0 := setBoardReady l true s
    let armed := setLane l { x with state := .armed, lastLine := none, dropMark := none } s0
    have row (v : State) (hv : v.pins.resetLow = false) :
        run v = .next (takeBurst l b (setBoardReady l true v)) := exec_tileBurst hb hv
    have high : (evaluateLane l armed).pins.boardReady.get l = true := by rw [evaluateLane_pins]; exact level s
    rw [row s live, takeBurst_faulted_high (s := s0) faulted (level s)]
    change Host.Outcome.next (armedArrival l b (evaluateLane l armed)) = run (evaluateLane l armed)
    rw [row _ (by rw [evaluateLane_pins]; exact live), setBoardReady_self high, takeBurst_armed]
    rw [evaluateLane_lane, lane_setLane_same]

end Sys2Proof.Proofs

/-! # Proofs: the line in assembly

A burst placed in the open line of its lane: the line grows, is completed, or is dropped whole; and a burst for another position
closes it first (R14 to R20). -/

namespace Sys2Proof.Proofs

open Sys2Proof.Machine Sys2Proof.Claims

variable {s u : State} {l : LaneId} {b : Burst} {ready : Bool} {bytes : List Byte} {p : Position} {e : Nat}
  {before : List LineRecord} {r : LineRecord}

/-! ### What placing leaves alone -/

theorem setLane_only (l : LaneId) (x : Lane) (s : State) : OnlyChanges [.lanes] s (setLane l x s) :=
  modLane_only l (fun _ => x) s

theorem withTiles_only (l : LaneId) (before : List LineRecord) (r : LineRecord) (a : Assembly) (s : State) (n : Nat) :
    OnlyChanges [.lanes, .poolFree] s (withTiles l before r a s n) := by
  intro part hp
  cases part <;> first | rfl | exact (hp (by decide)).elim

theorem discarded_only (l : LaneId) (before : List LineRecord) (r : LineRecord) (s : State) :
    OnlyChanges [.lanes, .poolFree] s (discarded l before r s) := by
  intro part hp
  cases part <;> first | rfl | exact (hp (by decide)).elim

@[simp] theorem withTiles_lane (l : LaneId) (before : List LineRecord) (r : LineRecord) (a : Assembly) (s : State)
    (n : Nat) : (withTiles l before r a s n).lane l = { s.lane l with assembly := a, queue := before ++ [r] } :=
  lane_setLane_same l _ s

theorem withTiles_lane_other {k : LaneId} (h : k ≠ l) (a : Assembly) (n : Nat) :
    (withTiles l before r a s n).lane k = s.lane k := lane_setLane_other h _ s

@[simp] theorem discarded_lane (l : LaneId) (before : List LineRecord) (r : LineRecord) (s : State) :
    (discarded l before r s).lane l =
      { s.lane l with assembly := .betweenLines, dropMark := some r.pos, queue := before } :=
  lane_setLane_same l _ s

theorem noteTile_arrived_ok (h : b.ok = true) (s : State) : noteTile l (arrived b) s = s := by
  simp [noteTile, arrived, h]

theorem noteTile_arrived_damaged (h : b.ok = false) (s : State) :
    noteTile l (arrived b) s = s.bump (.lane l .damagedTiles) := by simp [noteTile, arrived, h]

theorem noteTile_only (l : LaneId) (t : Tile) (s : State) :
    OnlyChanges [.events, .notices, .counters] s (noteTile l t s) := by
  unfold noteTile
  split
  · exact bump_only _ s
  · split
    · exact bump_only _ s
    · exact .refl _ s

/-! ### A burst in the open line -/

/-- The tiles that a burst brings to its line: fill tiles for those it skips, and its own (R17). -/
def brought (b : Burst) (e : Nat) : List Tile := fillers e b.index ++ [arrived b]

/-- The fill tiles behind an early last-tile mark (R18). -/
def fillersBehind (b : Burst) (d : Descriptor) : List Tile := if b.last then fillers (b.index + 1) (tiles d) else []

/-- The burst is the last of its line, by its mark or by its index (R18). -/
def EndsLine (b : Burst) (d : Descriptor) : Prop := b.last = true ∨ b.index + 1 = tiles d

theorem length_brought (b : Burst) (e : Nat) : (brought b e).length = b.index - e + 1 := by simp [brought]

theorem brought_next (b : Burst) : brought b b.index = [arrived b] := by simp [brought, fillers]

theorem fillersBehind_last {d : Descriptor} (h : b.index + 1 = tiles d) : fillersBehind b d = [] := by
  simp [fillersBehind, h, fillers]

theorem filled_of_mem_behind {d : Descriptor} {t : Tile} (h : t ∈ fillersBehind b d) : t.filled = true := by
  unfold fillersBehind at h
  split at h
  · exact filled_of_mem_fillers h
  · simp at h

/-- Fill tiles and the burst's own tile, counted one after another. -/
theorem noteTiles_brought (l : LaneId) (b : Burst) (e : Nat) (s : State) :
    noteTiles l (brought b e) s =
      if b.ok then bumps (b.index - e) (.lane l .fillTiles) s
      else (bumps (b.index - e) (.lane l .fillTiles) s).bump (.lane l .damagedTiles) := by
  rw [brought, noteTiles_append, noteTiles_filled fun t h => filled_of_mem_fillers h, length_fillers, noteTiles_arrived]

theorem placeBurst_open (he : e ≤ b.index) (h : ¬ EndsLine b (s.lane l).desc) :
    placeBurst l b p e s =
      if (placeTiles l (brought b e) s).2 then
        (placeTiles l (brought b e) s).1.modLane l fun x => { x with assembly := .assembling p (b.index + 1) }
      else (placeTiles l (brought b e) s).1 := by
  unfold placeBurst
  rw [if_neg (by omega), fillTiles_eq_fillers, tileOf_eq_arrived, ← brought]
  obtain ⟨u, _ | _⟩ := placeTiles l (brought b e) s
  · rfl
  · exact if_neg h

/-- A burst that ends its line: its tiles and the fill tiles behind it are placed one after another. -/
theorem placeBurst_ends (he : e ≤ b.index) (h : EndsLine b (s.lane l).desc) {ts : List Tile}
    (hts : brought b e ++ fillersBehind b (s.lane l).desc = ts) :
    placeBurst l b p e s =
      if (placeTiles l ts s).2 then lineCompleted l (completeLine l false (placeTiles l ts s).1)
      else (placeTiles l ts s).1 := by
  unfold placeBurst
  rw [if_neg (by omega), fillTiles_eq_fillers, tileOf_eq_arrived, ← brought, ← hts, placeTiles_append]
  obtain ⟨u, _ | _⟩ := placeTiles l (brought b e) s
  · rfl
  · simp only [fillTiles_eq_fillers]
    refine (if_pos h).trans ?_
    change _ = if (placeTiles l (fillersBehind b (s.lane l).desc) u).2 then
      lineCompleted l (completeLine l false (placeTiles l (fillersBehind b (s.lane l).desc) u).1)
      else (placeTiles l (fillersBehind b (s.lane l).desc) u).1
    rw [fillersBehind, tiles, ← tilesPerLine]
    obtain ⟨v, _ | _⟩ := placeTiles l _ u <;> rfl

/-- Where not even the tiles up to the burst's own find buffers the line is gone, whether the burst ends it or not. -/
theorem placeBurst_dropped (he : e ≤ b.index) (h : placeTiles l (brought b e) s = (u, false)) :
    placeBurst l b p e s = u := by
  by_cases ends : EndsLine b (s.lane l).desc
  · rw [placeBurst_ends he ends rfl, placeTiles_append, h]
    rfl
  · rw [placeBurst_open he ends, h]
    rfl

/-- The line grows by the tiles that the burst brings. -/
theorem placeBurst_grows (he : e ≤ b.index) (h : ¬ EndsLine b (s.lane l).desc)
    (placed : placeTiles l (brought b e) s =
      (noteTiles l (brought b e) (grown l before r (brought b e) s), true)) :
    placeBurst l b p e s = noteTiles l (brought b e) (withTiles l before { r with tiles := r.tiles ++ brought b e }
      (.assembling p (b.index + 1)) s (brought b e).length) := by
  rw [placeBurst_open he h, placed, if_pos rfl]
  rw [← (noteTiles_recording l _).modLane, modLane_grown]
  rfl

/-- The line is completed by the tiles that the burst brings and by fill tiles, and goes to the release unit. -/
theorem placeBurst_completes {ts : List Tile} (he : e ≤ b.index) (h : EndsLine b (s.lane l).desc)
    (hts : brought b e ++ fillersBehind b (s.lane l).desc = ts)
    (placed : placeTiles l ts s = (noteTiles l ts (grown l before r ts s), true)) :
    placeBurst l b p e s = lineCompleted l (noteTiles l ts (withTiles l before
      { r with tiles := r.tiles ++ ts, truncated := false, state := .complete } .betweenLines
      (setLane l { s.lane l with dropMark := none } s) ts.length)) := by
  rw [placeBurst_ends he h hts, placed, if_pos rfl, completeLine_recording (noteTiles_recording l ts), completeLine_grown]

/-! ### One tile -/

theorem room_pos (h : held s l < (s.lane l).desc.allotment) (hp : 0 < s.poolFree) : 0 < room s l := by
  unfold room
  omega

/-- The next tile of the line joins it where a buffer can be had, whatever the line has sent. -/
theorem placeTiles_one (hq : (s.lane l).queue = before ++ [r]) (h : 0 < room s l) (t : Tile) :
    placeTiles l [t] s = (noteTiles l [t] (grown l before r [t] s), true) := by
  rw [placeTiles, if_pos ((bufferGranted_iff s l).mpr h), appendTile_eq hq]
  rfl

theorem placeTiles_one_short (hq : (s.lane l).queue = before ++ [r]) (h : room s l = 0) (t : Tile) :
    placeTiles l [t] s = ((discarded l before r s).bump (.lane l .lineDrops), false) := by
  rw [placeTiles, if_neg (by rw [bufferGranted_iff]; omega), dropLine_eq hq]

/-- The next tile of a line, not its last, joins it. -/
theorem placeBurst_next (hq : (s.lane l).queue = before ++ [r]) (room : 0 < room s l)
    (h : ¬ EndsLine b (s.lane l).desc) :
    placeBurst l b p b.index s = noteTile l (arrived b) (withTiles l before
      { r with tiles := r.tiles ++ [arrived b] } (.assembling p (b.index + 1)) s 1) := by
  have grows := placeBurst_grows (p := p) (before := before) (r := r) le_rfl h
  rw [brought_next] at grows
  exact grows (placeTiles_one hq room _)

/-- The last tile of a line, whole, completes it. -/
theorem placeBurst_last (hq : (s.lane l).queue = before ++ [r]) (room : 0 < room s l)
    (h : b.index + 1 = tiles (s.lane l).desc) (ok : b.ok = true) :
    placeBurst l b p b.index s = lineCompleted l (withTiles l before
      { r with tiles := r.tiles ++ [arrived b], truncated := false, state := .complete } .betweenLines
      (setLane l { s.lane l with dropMark := none } s) 1) := by
  have all : brought b b.index ++ fillersBehind b (s.lane l).desc = [arrived b] := by
    rw [brought_next, fillersBehind_last h]; rfl
  rw [placeBurst_completes le_rfl (.inr h) all (placeTiles_one hq room _)]
  exact congrArg _ (noteTile_arrived_ok ok _)

/-! ### A line opens and grows -/

/-- The outcome of a burst whose tile has joined its line and is counted where it is damaged. -/
theorem noteTile_arrived_records (hu : Agree s u) :
    (b.ok = true → (noteTile l (arrived b) u).counters = s.counters ∧ (noteTile l (arrived b) u).events = s.events) ∧
      (b.ok = false → Counts (.lane l .damagedTiles) s (noteTile l (arrived b) u)) := by
  refine ⟨fun ok => ?_, fun damaged => ?_⟩
  · obtain ⟨⟨events, -, counters⟩, -⟩ := hu
    rw [noteTile_arrived_ok ok]
    exact ⟨counters, events⟩
  · rw [noteTile_arrived_damaged damaged]
    exact counts_of_agree hu

theorem lineOpened_lane_other {k : LaneId} (h : k ≠ l) (p : Position) (s : State) :
    (lineOpened l p s).lane k = s.lane k := lane_setLane_other h _ s

theorem lineOpened_only (l : LaneId) (p : Position) (s : State) : OnlyChanges [.lanes] s (lineOpened l p s) :=
  setLane_only l _ s

/-- Settles O30, by the line that the burst opens or joins. -/
theorem tilesOpenAndJoinTheirLine : Obligations.TilesOpenAndJoinTheirLine := by
  refine ⟨?_, ?_⟩
  · intro l bytes s hb live x b armed alone fresh between first unmarked line index notLast lines wide below free
    let s0 := setLane l { x with state := .running, silence := 0 } (setBoardReady l true s)
    have lane0 : s0.lane l = { x with state := .running, silence := 0 } := lane_setLane_same l _ _
    have begun : started l (setBoardReady l true s) = s0 := by
      have cleared : { x with state := .running, silence := 0, recovery := false } =
          { x with state := .running, silence := 0 } := by rw [← fresh]
      change evaluateLane l (setLane l { x with state := .running, silence := 0, recovery := false } _) = _
      rw [cleared, evaluateLane, lane_setLane_same, groupOf]
      simp only [alone, ite_self]
      rfl
    let opened := lineOpened l b.pos s0
    have lane : opened.lane l = { x with
        state := .running, silence := 0, assembly := .assembling b.pos 0, lastLine := some b.pos,
        queue := x.queue ++ [openedLine b.pos []] } := by
      rw [lineOpened_lane, lane0]
    have room : 0 < room opened l := by
      refine room_pos ?_ free
      rw [held, lane, heldIn_append]
      exact below
    have ends : ¬ EndsLine b (opened.lane l).desc := by
      rw [lane]
      rintro (h | h)
      · rw [notLast] at h; cases h
      · rw [index] at h
        have : 2 ≤ tiles x.desc := wide
        change 0 + 1 = tiles x.desc at h
        omega
    have row : exec (.tileBurst l true bytes) s = .next (placeBurst l b b.pos b.index opened) := by
      rw [exec_tileBurst hb live, takeBurst_armed (s := setBoardReady l true s) armed,
        armedArrival_starts (s := setBoardReady l true s) ⟨line, index, perLane_get_set_same _ _ _⟩,
        if_neg (by rw [show (setBoardReady l true s).lane l = x from rfl, fresh]; simp), begun, assemble_between, index]
      · rw [openAndPlace, openLine_follows (.inl (by rw [lane0]; exact first))]
      · rw [lane0]
        exact ⟨by change b.index < tiles x.desc; omega, by change b.pos.line < x.desc.h; omega⟩
      · rw [lane0]; change x.dropMark ≠ _; rw [unmarked]; simp
      · rw [lane0]; exact between
    let grown := withTiles l x.queue (openedLine b.pos [arrived b]) (.assembling b.pos 1) opened 1
    have only : OnlyChanges [.pins, .lanes, .poolFree] s grown :=
      (((setBoardReady_only l true s).andThen (setLane_only l _ _) (rs := [.pins, .lanes])).andThen (lineOpened_only l _ _)
        (rs := [.pins, .lanes])).andThen (withTiles_only l _ _ _ _ _)
    obtain ⟨whole, damaged⟩ := noteTile_arrived_records (l := l) (b := b) (agree_of_only only)
    have note := noteTile_recording l (arrived b)
    refine ⟨noteTile l (arrived b) grown, ?_, only.andThen (noteTile_only l _ _), ?_, fun k hk => ?_, ?_, whole, damaged⟩
    · rw [row, placeBurst_next (by rw [lane]) room ends, index]
      rfl
    · rw [note.lane, withTiles_lane, lane]
    · rw [note.lane, withTiles_lane_other hk, lineOpened_lane_other hk, lane_setLane_other hk]
      rfl
    · rw [note.poolFree]; rfl
  · intro l ready bytes s before r hb live x b running ha unmarked hq notLast line wide
    let silent := heard l ready s
    have lane : silent.lane l = { x with silence := 0 } := heard_lane l ready s
    have row : exec (.tileBurst l ready bytes) s = .next (placeBurst l b b.pos b.index silent) := by
      rw [exec_burst_running hb live running, assemble_joins]
      · rw [heard_lane]; exact ⟨by change b.index < tiles x.desc; omega, line⟩
      · rw [heard_lane]; change x.dropMark ≠ _; rw [unmarked]; simp
      · rw [heard_lane]; exact ha
    have queue : (silent.lane l).queue = before ++ [r] := by rw [lane]; exact hq
    refine ⟨fun below free => ?_, fun full => ?_⟩
    · have ends : ¬ EndsLine b (silent.lane l).desc := by
        rw [lane]
        rintro (h | h)
        · rw [notLast] at h; cases h
        · exact absurd h (Nat.ne_of_lt wide)
      let grown := withTiles l before { r with tiles := r.tiles ++ [arrived b] } (.assembling b.pos (b.index + 1)) silent 1
      have only : OnlyChanges [.pins, .lanes, .poolFree] s grown :=
        (heard_only l ready s).andThen (withTiles_only l _ _ _ _ _)
      have note := noteTile_recording l (arrived b)
      refine ⟨noteTile l (arrived b) grown, ?_, only.andThen (noteTile_only l _ _), ?_, ?_, fun ok => ?_⟩
      · rw [row, placeBurst_next queue (by rw [room_heard]; exact room_pos below free) ends]
      · rw [note.lane, withTiles_lane, lane]
      · rw [note.poolFree]; rfl
      · exact ((noteTile_arrived_records (agree_of_only only)).1 ok).1
    · have none : room silent l = 0 := by
        rw [room_heard, room, Nat.sub_eq_zero_of_le full, Nat.zero_min]
      have only : OnlyChanges [.pins, .lanes, .poolFree] s (discarded l before r silent) :=
        (heard_only l ready s).andThen (discarded_only l _ _ _)
      have drop := bump_recording (.lane l .lineDrops)
      refine ⟨(discarded l before r silent).bump (.lane l .lineDrops), ?_, only.andThen (bump_only _ _), ?_, ?_,
        counts_of_agree (agree_of_only only)⟩
      · rw [row, placeBurst_dropped le_rfl]
        rw [brought_next, placeTiles_one_short queue none]
      · rw [drop.lane, discarded_lane, lane]
      · rw [drop.poolFree]; rfl

end Sys2Proof.Proofs

/-! # Proofs: lines that end

The line that a last tile completes, released or waiting (R34 to R36, R44), and the line that is filled, truncated or dropped
(R16 to R19). -/

namespace Sys2Proof.Proofs

open Sys2Proof.Machine Sys2Proof.Claims

variable {s u : State} {l : LaneId} {b : Burst} {ready : Bool} {bytes : List Byte} {p : Position} {e : Nat}
  {before : List LineRecord} {r : LineRecord} {mark : Option GroupMark}

/-! ### The release of the newest line -/

theorem noneComplete_of_released {q : List LineRecord} (h : ∀ y ∈ q, y.state = .released) : NoneComplete q :=
  fun y hy => by rw [h y hy]; decide

/-- The newest line alone waits for its release, and the discard tests keep it. -/
theorem releaseOldest_keeps (hq : (s.lane l).queue = before ++ [r]) (hr : r.state = .complete)
    (hb : ∀ y ∈ before, y.state = .released) (hd : discardTest s l r.pos.line = none) :
    releaseOldest mark l s =
      s.modLane l fun x => { x with queue := before ++ [{ r with state := .released, mark := mark }] } := by
  simp only [releaseOldest, hq, splitComplete_append (noneComplete_of_released hb) hr, hd]

theorem releaseOldest_discards (hq : (s.lane l).queue = before ++ [r]) (hr : r.state = .complete)
    (hb : ∀ y ∈ before, y.state = .released) {c : LaneCounter} (hd : discardTest s l r.pos.line = some c) :
    releaseOldest mark l s =
      ((s.modLane l fun x => { x with queue := before }).addFree (unsent r)).bump (.lane l c) := by
  simp only [releaseOldest, hq, splitComplete_append (noneComplete_of_released hb) hr, hd, List.append_nil]

theorem isUp_iff (s : State) : isUp s = true ↔ s.link.state = .up := by simp [isUp]

/-- The discard tests read the link state and the plan alone. -/
theorem discardTest_congr (hl : u.link = s.link) (hp : u.plan = s.plan) (hb : u.builder = s.builder) (l : LaneId)
    (line : Nat) : discardTest u l line = discardTest s l line := by
  have carry : carryOf u l = carryOf s l := by simp only [carryOf, activeBank, hp, hb]
  have up : isUp u = isUp s := by rw [isUp, isUp, hl]
  unfold discardTest
  rw [carry, up]

/-- While the link is UP a line of a lane that is carried, or of even number on one that is thinned, is kept (Table 3-1). -/
theorem discardTest_kept {line : Nat} (up : s.link.state = .up)
    (h : carryOf s l = some .carried ∨ (carryOf s l = some .thinned ∧ line % 2 = 0)) : discardTest s l line = none := by
  have up : isUp s = true := (isUp_iff s).mpr up
  obtain h | ⟨h, even⟩ := h
  · simp [discardTest, h, up]
  · simp [discardTest, h, up, even]

theorem discardTest_uncarried {line : Nat} (h : s.link.state ≠ .up ∨ carryOf s l = none) :
    discardTest s l line = some .uncarriedLines := by
  unfold discardTest
  cases hc : carryOf s l with
  | none => rfl
  | some c =>
    have down : isUp s = false := by
      rw [← Bool.not_eq_true, isUp_iff]
      exact h.resolve_right (by rw [hc]; simp)
    simp [down]

theorem discardTest_shed {line : Nat} (up : s.link.state = .up) (h : carryOf s l = some .shed) :
    discardTest s l line = some .shedLines := by
  simp [discardTest, h, (isUp_iff s).mpr up]

theorem discardTest_thinned {line : Nat} (up : s.link.state = .up) (h : carryOf s l = some .thinned)
    (odd : line % 2 = 1) : discardTest s l line = some .thinnedLines := by
  simp [discardTest, h, (isUp_iff s).mpr up, odd]

/-- Settles O33, by the completion of the line and what the release unit then does. -/
theorem aCompleteLineIsReleasedOrWaits : Obligations.ACompleteLineIsReleasedOrWaits := by
  intro l ready bytes s before r hb live x b running ha unmarked hq pos lines last ok below free
  let silent := heard l ready s
  have lane : silent.lane l = { x with silence := 0 } := heard_lane l ready s
  let line : LineRecord := { r with tiles := r.tiles ++ [arrived b], truncated := false, state := .complete }
  let w := withTiles l before line .betweenLines silent 1
  have row : exec (.tileBurst l ready bytes) s = .next (lineCompleted l w) := by
    have kept : setLane l { silent.lane l with dropMark := none } silent = silent := by
      have same : { silent.lane l with dropMark := none } = silent.lane l := by
        rw [lane, ← unmarked]
      rw [same, setLane_self]
    rw [exec_burst_running hb live running, assemble_joins (e := b.index)]
    · rw [placeBurst_last (before := before) (r := r) (by rw [heard_lane]; exact hq)
        (by rw [room_heard]; exact room_pos below free) (by rw [heard_lane]; exact last) ok, kept]
    · rw [heard_lane]; exact ⟨by change b.index < tiles x.desc; omega, lines⟩
    · rw [heard_lane]; change x.dropMark ≠ _; rw [unmarked]; simp
    · rw [heard_lane]; exact ha
  have lane_w : w.lane l = { x with silence := 0, assembly := .betweenLines, queue := before ++ [line] } := by
    rw [withTiles_lane, lane]
  refine ⟨fun alone released mark => ?_, fun g configured grouped => ?_⟩
  · have free_lane : groupOf (w.lane l).desc = none := by
      rw [lane_w, groupOf]; simp only [alone, ite_self]
    have only : OnlyChanges [.pins, .lanes, .poolFree] s w :=
      (heard_only l ready s).andThen (withTiles_only l _ _ _ _ _)
    have tests : discardTest w l line.pos.line = discardTest s l b.pos.line := by
      rw [← pos]; exact discardTest_congr rfl rfl rfl l _
    have queue : (w.lane l).queue = before ++ [line] := by rw [lane_w]
    refine ⟨releaseOldest none l w, ?_, ?_, ?_, fun up carried => ?_, fun uncarried => ?_, fun up shed => ?_,
      fun up thinned odd => ?_⟩
    · rw [row, lineCompleted, free_lane]
    · exact only.andThen (releaseOldest_only none l w)
    · rw [(releaseOldest_thins none l w).with_queue, lane_w]
    · rw [releaseOldest_keeps queue rfl released (tests.trans (discardTest_kept up carried)), lane_modLane_same]
      exact ⟨rfl, rfl⟩
    · rw [releaseOldest_discards queue rfl released (tests.trans (discardTest_uncarried uncarried))]
      refine ⟨?_, ?_, counts_of_agree (agree_of_only (only.andThen (rs := [.pins, .lanes, .poolFree])
        ((modLane_only l _ w).andThen (addFree_only _ _) (rs := [.lanes, .poolFree]))))⟩
      · rw [(bump_recording _).lane, lane_requeue]
      · rw [(bump_recording _).poolFree]
        change s.poolFree - 1 + unsent line = _
        simp [unsent, line]
    · rw [releaseOldest_discards queue rfl released (tests.trans (discardTest_shed up shed))]
      refine ⟨?_, counts_of_agree (agree_of_only (only.andThen (rs := [.pins, .lanes, .poolFree])
        ((modLane_only l _ w).andThen (addFree_only _ _) (rs := [.lanes, .poolFree]))))⟩
      rw [(bump_recording _).lane, lane_requeue]
    · rw [releaseOldest_discards queue rfl released (tests.trans (discardTest_thinned up thinned odd))]
      refine ⟨?_, counts_of_agree (agree_of_only (only.andThen (rs := [.pins, .lanes, .poolFree])
        ((modLane_only l _ w).andThen (addFree_only _ _) (rs := [.lanes, .poolFree]))))⟩
      rw [(bump_recording _).lane, lane_requeue]
  · have member : groupOf (w.lane l).desc = some g := by
      rw [lane_w, groupOf, if_pos configured]; exact grouped
    rw [row, lineCompleted, member]

/-! ### The line in assembly closed -/

theorem closedLine_lane_kept (h : tiles (s.lane l).desc - e ≤ room s l) :
    (closedLine l before r e s).lane l = { s.lane l with
      assembly := .betweenLines, dropMark := none, queue := before ++ [{ r with
        tiles := r.tiles ++ fillers e (tiles (s.lane l).desc), truncated := true, state := .complete }] } := by
  simp only [closedLine, if_pos h]
  rw [(bumps_recording _ _).lane, withTiles_lane, lane_setLane_same]

theorem closedLine_lane_dropped (h : room s l < tiles (s.lane l).desc - e) :
    (closedLine l before r e s).lane l =
      { s.lane l with assembly := .betweenLines, dropMark := some r.pos, queue := before } := by
  simp only [closedLine, if_neg (Nat.not_le.mpr h), droppedLine]
  rw [(bump_recording _).lane, (bumps_recording _ _).lane]
  exact lane_setLane_same l _ s

theorem closedLine_pins (l : LaneId) (before : List LineRecord) (r : LineRecord) (e : Nat) (s : State) :
    (closedLine l before r e s).pins = s.pins := by
  simp only [closedLine]
  split
  · rw [(bumps_recording _ _).pins]; rfl
  · rw [droppedLine, (bump_recording _).pins, (bumps_recording _ _).pins]; rfl

/-! ### Tiles that a burst skips -/

/-- The tiles that a burst brings, dropped with their line: only fill tiles have been counted. -/
theorem placeBurst_short (he : e ≤ b.index) (hq : (s.lane l).queue = before ++ [r]) (hc : r.carried = 0)
    (h : room s l < b.index - e + 1) : placeBurst l b p e s = droppedLine l before r (room s l) s := by
  have dropped := placeTiles_short hq (by omega) (ts := brought b e) (by rwa [length_brought])
  have first : (brought b e).take (room s l) = (fillers e b.index).take (room s l) := by
    rw [brought, List.take_append_of_le_length (by rw [length_fillers]; omega)]
  have fills : ∀ t ∈ (fillers e b.index).take (room s l), t.filled = true :=
    fun t ht => filled_of_mem_fillers (List.mem_of_mem_take ht)
  have count : ((fillers e b.index).take (room s l)).length = room s l := by simp; omega
  rw [placeBurst_dropped he dropped, first, noteTiles_filled fills, count, droppedLine_eq hc]

/-- The burst's tiles find buffers, and a fill tile behind its early mark does not. -/
theorem placeBurst_short_behind (he : e ≤ b.index) (ends : EndsLine b (s.lane l).desc)
    (hq : (s.lane l).queue = before ++ [r]) (hc : r.carried = 0) (h : b.index - e + 1 ≤ room s l)
    (short : room s l < b.index - e + 1 + (fillersBehind b (s.lane l).desc).length) :
    placeBurst l b p e s =
      droppedLine l before r (room s l - (b.index - e + 1)) (noteTiles l (brought b e) s) := by
  generalize hbehind : fillersBehind b (s.lane l).desc = behind at short
  have dropped := placeTiles_short hq (by omega) (ts := brought b e ++ behind)
    (by rw [List.length_append, length_brought]; exact short)
  have taken : (brought b e ++ behind).take (room s l) = brought b e ++ behind.take (room s l - (b.index - e + 1)) := by
    rw [List.take_append, List.take_of_length_le (by rw [length_brought]; exact h), length_brought]
  have fills : ∀ t ∈ behind.take (room s l - (b.index - e + 1)), t.filled = true :=
    fun t ht => filled_of_mem_behind (hbehind ▸ List.mem_of_mem_take ht)
  have count : (behind.take (room s l - (b.index - e + 1))).length = room s l - (b.index - e + 1) := by
    rw [List.length_take]; omega
  rw [placeBurst_ends he ends (by rw [hbehind]), dropped, if_neg (by simp),
    taken, noteTiles_append, noteTiles_filled fills, count,
    (noteTiles_recording l (brought b e)).comm (discarded_apart l before r), droppedLine_eq hc]

/-- Settles O32, by the buffers that the lane can still be given. -/
theorem missingTilesAreFilled : Obligations.MissingTilesAreFilled := by
  intro l ready bytes s before r p e hb live x b tpl run silent running ha hq hc hpos wide lines unmarked
  have lane : silent.lane l = { x with silence := 0 } := heard_lane l ready s
  have row : run s = .next (assemble l b silent) := exec_burst_running hb live running
  have board : InBoard b (silent.lane l).desc := by rw [lane]; exact ⟨wide, lines⟩
  have unmarked' : (silent.lane l).dropMark ≠ some b.pos := by rw [lane]; exact unmarked
  have queue : (silent.lane l).queue = before ++ [r] := by rw [lane]; exact hq
  have space : room silent l = room s l := room_heard l ready s
  have sent : r.carried ≤ r.tiles.length := by omega
  refine ⟨fun same he => ?_, fun other => ?_⟩
  · intro placed n ends tail noted
    have joins : run s = .next (placeBurst l b b.pos e silent) := by
      rw [row, assemble_joins board unmarked' (by rw [lane, same]; exact ha)]
    have note (u : State) : noteTiles l (brought b e) u = noted u := noteTiles_brought l b e u
    have ends_iff : EndsLine b (silent.lane l).desc ↔ ends := by rw [lane]; rfl
    have behind : fillersBehind b (silent.lane l).desc = tail := by rw [lane]; rfl
    have length : (brought b e).length = n := length_brought b e
    refine ⟨fun fits open_ => ?_, fun fits closes => ?_, fun short => ?_, fun fits short closes => ?_⟩
    · have all := placeTiles_fits queue sent (ts := brought b e) (by rw [length, space]; exact fits)
      rw [joins, placeBurst_grows he (mt ends_iff.mp open_) all, note, length, same, brought, ← List.append_assoc]
    · have all := placeTiles_fits queue sent (ts := brought b e ++ tail)
        (by rw [List.length_append, length, space]; exact fits)
      have fills : ∀ t ∈ tail, t.filled = true := fun t ht => filled_of_mem_behind (behind ▸ ht)
      intro line
      rw [joins, placeBurst_completes he (ends_iff.mpr closes) (by rw [behind]) all, noteTiles_append, note,
        noteTiles_filled fills, List.length_append, length]
      simp only [line, placed, brought, List.append_assoc]
    · rw [joins, placeBurst_short he queue hc (by rw [space]; exact short), space]
    · rw [joins, placeBurst_short_behind he (ends_iff.mpr closes) queue hc (by rw [space]; exact fits)
        (by rw [space, behind]; exact short), note, space]
  · intro u
    have other' : b.pos ≠ p := other
    have assembling : (silent.lane l).assembly = .assembling p e := by rw [lane]; exact ha
    have level : silent.pins.boardReady.get l = ready := perLane_get_set_same _ _ _
    have pins : u.pins = silent.pins := closedLine_pins l before r e silent
    have rest (v : State) (hv : v.pins = u.pins) (hd : (v.lane l).desc = x.desc) (hr : (v.lane l).state = .running)
        (hsil : (v.lane l).silence = 0) (hm : (v.lane l).dropMark ≠ some b.pos)
        (hbetween : (v.lane l).assembly = .betweenLines) : run v = .next (openAndPlace l b v) := by
      have hrun : run v = .next (assemble l b v) :=
        exec_burst_heard hb (by rw [hv, pins]; exact live) hr (by rw [hv, pins]; exact level) hsil
      rw [hrun, assemble_between (by rw [hd]; exact ⟨wide, lines⟩) hm hbetween]
    refine ⟨fun fits => ?_, fun short => ?_⟩
    · have enough : tiles (silent.lane l).desc - e ≤ room silent l := by rw [space, lane]; exact fits
      have closed : closeTruncated l e silent = (u, true) := closeTruncated_fits queue hc enough
      have lane_u : u.lane l = _ := closedLine_lane_kept enough
      have lane_v := (lineCompleted_evaluates l u).thins.with_queue l
      rw [row, assemble_elsewhere board unmarked' assembling other' closed, if_pos rfl]
      refine (rest _ (lineCompleted_only l u .pins (by decide)) ?_ ?_ ?_ ?_ ?_).symm <;> rw [lane_v, lane_u, lane]
      · exact running
      · simp
    · have lacking : room silent l < tiles (silent.lane l).desc - e := by rw [space, lane]; exact short
      have closed : closeTruncated l e silent = (u, false) := closeTruncated_short queue hc lacking
      have lane_u : u.lane l = _ := closedLine_lane_dropped lacking
      rw [row, assemble_elsewhere board unmarked' assembling other' closed, if_neg (by simp)]
      refine (rest u rfl ?_ ?_ ?_ ?_ ?_).symm <;> rw [lane_u, lane]
      · exact running
      · rw [hpos]; simpa using Ne.symm other'

end Sys2Proof.Proofs

/-! # Proofs: the loss of a board

What a fault of a lane does: the line in assembly is closed, the lane is marked, LANE_FAULT is raised, and the group or the lane
itself goes to the release unit (R7 to R9, R34, R39, R44). -/

namespace Sys2Proof.Proofs

open Sys2Proof.Machine Sys2Proof.Claims

variable {s t u z : State} {l : LaneId} {g : GroupId} {p : Position} {e d : Nat} {kept : Bool}
  {before : List LineRecord} {r : LineRecord}

/-! ### The line of a faulted lane -/

/-- The line in assembly of a faulted lane is closed by fill tiles, or dropped. -/
theorem closeTruncated_fallen (hq : (s.lane l).queue = before ++ [r]) (hc : r.carried = 0) :
    closeTruncated l e (fallen l s) =
      (closedLine l before r e (fallen l s), decide (tiles (s.lane l).desc - e ≤ room s l)) := by
  have queue : ((fallen l s).lane l).queue = before ++ [r] := by rw [fallen_lane]; exact hq
  by_cases h : tiles (s.lane l).desc - e ≤ room s l
  · rw [closeTruncated_fits queue hc (by rw [fallen_lane, room_fallen]; exact h), decide_eq_true h]
  · rw [closeTruncated_short queue hc (by rw [fallen_lane, room_fallen]; exact Nat.not_le.mp h), decide_eq_false h]

theorem closedLine_lane (l : LaneId) (before : List LineRecord) (r : LineRecord) (e : Nat) (s : State) :
    ((closedLine l before r e s).lane l).assembly = .betweenLines ∧
      ((closedLine l before r e s).lane l).desc = (s.lane l).desc := by
  by_cases h : tiles (s.lane l).desc - e ≤ room s l
  · rw [closedLine_lane_kept h]; exact ⟨rfl, rfl⟩
  · rw [closedLine_lane_dropped (Nat.not_le.mp h)]; exact ⟨rfl, rfl⟩

/-- What a fault leaves of a lane with a line in assembly. -/
theorem faultLane_closedLine (ha : (s.lane l).assembly = .assembling p e) (hq : (s.lane l).queue = before ++ [r])
    (hc : r.carried = 0) :
    faultLane d l s = faultHandedOver (decide (tiles (s.lane l).desc - e ≤ room s l)) l
      (faultRaised d l (closedLine l before r e (fallen l s))) := by
  rw [faultLane_closes ha, closeTruncated_fallen hq hc]

/-! ### The rows -/

theorem exec_boardReadyFall (live : s.pins.resetLow = false) :
    exec (.boardReadyFall l) s = .next (boardReadyFall l (setBoardReady l false s)) := by
  rw [exec, execBoardReadyFall, whenLive]
  exact congrArg _ (if_neg (by simpa [setBoardReady] using live))

theorem exec_laneSilenceExpiry (live : s.pins.resetLow = false) :
    exec (.laneSilenceExpiry l) s = .next (silenceExpiry l s) := by
  rw [exec, execLaneSilenceExpiry, whenLive, if_neg (by simpa using live)]

/-- Settles O34, by the steps of a fault. -/
theorem aLostBoardFaultsTheLane : Obligations.ALostBoardFaultsTheLane := by
  intro l s live x s0 faulted raised lost
  have settled (u : State) (n d : Nat) (hl : u.lane l = x) (hp : u.poolFree = s.poolFree) (hu : Agree s u) :
      let run := faultLane d l (setLane l { x with silence := n } u)
      (∃ t, (.next run : Result) = .next t ∧ faulted u t n d) ∧ lost u n d (.next run : Result) := by
    let v := setLane l { x with silence := n } u
    have lane : v.lane l = { x with silence := n } := lane_setLane_same l _ u
    have raised_eq (y : State) (h : (y.lane l).assembly = .betweenLines) : faultRaised d l y = raised d y :=
      faultRaised_between h
    have space : room v l = room s l := by
      change min ((v.lane l).desc.allotment - heldIn (v.lane l).queue) v.poolFree = _
      rw [lane, show v.poolFree = s.poolFree from hp]
      rfl
    have down : setLane l { v.lane l with state := .faulted } v =
        setLane l { x with state := .faulted, silence := n } u := by
      rw [lane, setLane_setLane]
    refine ⟨⟨faultLane d l v, rfl, ?_⟩, fun g hg => ⟨fun between => ?_, fun p e before r ha hq hc => ?_⟩,
      fun alone => ⟨fun between => ?_, fun p e before r ha hq hc => ⟨fun fits => ?_, fun short => ?_⟩⟩⟩
    · obtain ⟨q, hq⟩ := faultLane_lane d l v
      refine ⟨(setLane_only l _ u).andThen (faultLane_only d l v), ?_⟩
      rw [hq, lane]
      refine ⟨rfl, rfl, rfl, rfl, rfl, rfl, fun alone between => ?_⟩
      have whole : faultLane d l v = faultRaised d l (fallen l v) := by
        rw [faultLane_between (by rw [lane]; exact between), faultHandedOver_alone, if_neg (by simp)]
        rw [faultRaised_lane, fallen_lane, lane]; exact alone
      have only : OnlyChanges [.lanes] u (setLane l { (fallen l v).lane l with
          assembly := .betweenLines, dropMark := none, recovery := true } (fallen l v)) := by
        rw [fallen_alone (by rw [lane]; exact alone), down]
        exact (setLane_only l _ u).andThen (setLane_only l _ _)
      refine ⟨?_, ?_, ?_⟩
      · have queue : ((faultLane d l v).lane l).queue = x.queue := by rw [whole, faultRaised_lane, fallen_lane, lane]
        rw [hq] at queue
        exact queue
      · rw [whole, faultRaised, (raise_recording _ _ _).poolFree, only .poolFree (by decide), hp]
      · rw [whole]
        exact ((raise_recording _ _ _).agree (hu.trans (agree_of_only only))).1
    · have member : groupOf (v.lane l).desc = some g := by rw [lane]; exact hg
      rw [faultLane_between (by rw [lane]; exact between), faultHandedOver_member (g := g),
        raised_eq _ (by rw [fallen_lane, lane]; exact between), fallen_member member, down]
      rw [faultRaised_lane, fallen_lane]; exact member
    · have member : groupOf (v.lane l).desc = some g := by rw [lane]; exact hg
      obtain ⟨between, desc⟩ := closedLine_lane l before r e (fallen l v)
      rw [faultLane_closedLine (by rw [lane]; exact ha) (by rw [lane]; exact hq) hc, faultHandedOver_member (g := g),
        raised_eq _ between, fallen_member member, down]
      rw [faultRaised_lane, desc, fallen_lane]; exact member
    · have alone : groupOf (v.lane l).desc = none := by rw [lane]; exact alone
      rw [faultLane_between (by rw [lane]; exact between), faultHandedOver_alone, if_neg (by simp),
        raised_eq _ (by rw [fallen_lane, lane]; exact between), fallen_alone alone, down]
      rw [faultRaised_lane, fallen_lane]; exact alone
    · have alone : groupOf (v.lane l).desc = none := by rw [lane]; exact alone
      obtain ⟨between, desc⟩ := closedLine_lane l before r e (fallen l v)
      rw [faultLane_closedLine (by rw [lane]; exact ha) (by rw [lane]; exact hq) hc, faultHandedOver_alone,
        if_pos (by rw [lane, space]; simpa using fits), raised_eq _ between, fallen_alone alone, down]
      rw [faultRaised_lane, desc, fallen_lane]; exact alone
    · have alone : groupOf (v.lane l).desc = none := by rw [lane]; exact alone
      obtain ⟨between, desc⟩ := closedLine_lane l before r e (fallen l v)
      rw [faultLane_closedLine (by rw [lane]; exact ha) (by rw [lane]; exact hq) hc, faultHandedOver_alone,
        if_neg (by rw [lane, space]; simpa using Nat.not_le.mpr short), raised_eq _ between, fallen_alone alone, down]
      rw [faultRaised_lane, desc, fallen_lane]; exact alone
  have fall : exec (.boardReadyFall l) s = .next (boardReadyFall l s0) := exec_boardReadyFall live
  have expiry : exec (.laneSilenceExpiry l) s = .next (silenceExpiry l s) := exec_laneSilenceExpiry live
  have running_iff (u : State) (h : u.lane l = x) : isRunning u l = true ↔ x.state = .running := by
    simp [isRunning, h]
  refine ⟨fun idle => ?_, fun running => ?_, fun idle => ?_, fun running silent => ?_⟩
  · rw [fall, boardReadyFall, if_neg (mt (running_iff s0 rfl).mp idle)]
  · have same : setLane l { x with silence := x.silence } s0 = s0 := setLane_self l s0
    have found := settled s0 x.silence 1 rfl rfl (agree_of_only (setBoardReady_only l false s))
    rw [same] at found
    rw [fall, boardReadyFall, if_pos ((running_iff s0 rfl).mpr running)]
    exact found
  · rw [expiry, silenceExpiry, if_neg]
    rintro ⟨running, silent⟩
    exact idle.elim (· ((running_iff s rfl).mp running)) (by intro h; exact absurd silent (Nat.not_le.mpr h))
  · rw [expiry, silenceExpiry, if_pos ⟨(running_iff s rfl).mpr running, silent⟩]
    exact settled s 8 2 rfl rfl (.refl s)

end Sys2Proof.Proofs

/-! # Proofs: the lane commands

LANE_SET, LANE_START and LANE_STOP: the checks of Table 1-3, and what the commands do to their lane and its group (R4 to R6, R11,
R31, R38, R39, R44). -/

namespace Sys2Proof.Proofs

open Sys2Proof.Machine Sys2Proof.Claims

variable {s t u : State} {l k : LaneId} {d : Descriptor} {tag m : Byte} {w h a : Word16} {c : Bool} {g : Option GroupId}

/-! ### The checks of LANE_SET -/

theorem descriptorInRange_iff (d : Descriptor) : descriptorInRange d = true ↔ InRange d := by
  rw [descriptorInRange, decide_eq_true_iff, InRange, tilesPerLine, ← tiles]
  tauto

/-- The sum of check 5 for a configured descriptor. -/
theorem allotmentSum_configured (hc : d.configured = true) (s : State) (l : LaneId) :
    allotmentSum s l d =
      d.allotment + ((laneIds.filter fun k => k != l).map fun k => allotted (s.lane k).desc).sum := by
  have own : allotted d = d.allotment := if_pos hc
  rw [allotmentSum_eq]
  cases l <;> simp [laneIds, own] <;> omega

theorem sumFits_iff (hc : d.configured = true) : SumFits s l d ↔ ¬ 1536 < allotmentSum s l d := by
  rw [allotmentSum_configured hc, not_lt]
  rfl

theorem mem_laneIds (l : LaneId) : l ∈ laneIds := by cases l <;> decide

theorem groupOf_eq_some {g : GroupId} : groupOf d = some g ↔ d.configured = true ∧ d.group = some g := by
  simp [groupOf]

theorem mismatched_iff (s : State) (l : LaneId) (d : Descriptor) :
    (d.group.isSome && mismatched s l d) = true ↔ ¬ GroupFits s l d := by
  cases hg : d.group with
  | none => simp [GroupFits, hg]
  | some g =>
    simp only [Option.isSome_some, Bool.true_and, mismatched, List.any_eq_true, mem_laneIds, true_and, Bool.and_eq_true,
      bne_iff_ne, ne_eq, beq_iff_eq, hg, groupOf_eq_some, Bool.or_eq_true, GroupFits, Option.some.injEq]
    constructor
    · rintro ⟨k, ⟨hk, configured, group⟩, differs⟩ fits
      obtain ⟨hh, hm⟩ := fits g k rfl hk configured group
      exact differs.elim (· hh) (· hm)
    · intro misfit
      by_contra none
      refine misfit fun j k hj hk configured group => ?_
      subst hj
      by_contra differs
      exact none ⟨k, ⟨hk, configured, group⟩, not_and_or.mp differs⟩

theorem mem_bindingEntries (s : State) (e : Entry) : e ∈ bindingEntries s ↔ Binds s e := by
  unfold bindingEntries Binds
  cases hold : s.plan.hold <;> simp

theorem short_share_iff (s : State) (l : LaneId) (d : Descriptor) :
    ((bindingEntries s).any fun e => e.lane == l && decide (e.share < demand d)) = true ↔ ¬ SharesFit s l d := by
  simp only [List.any_eq_true, mem_bindingEntries, Bool.and_eq_true, beq_iff_eq, decide_eq_true_eq, SharesFit, not_forall,
    not_le, exists_prop]
  rfl

theorem names_bindingEntries_iff (s : State) (l : LaneId) :
    names (bindingEntries s) l = true ↔ ∃ e, Binds s e ∧ e.lane = l := by
  simp only [names, List.any_eq_true, mem_bindingEntries, beq_iff_eq]

/-- The checks of Table 1-3 for a configured descriptor on a STOPPED lane, in their order. -/
theorem laneSetRefusal_configured (stopped : (s.lane l).state = .stopped) (hc : d.configured = true) [Decidable (InRange d)]
    [Decidable (SumFits s l d)] [Decidable (GroupFits s l d)] [Decidable (SharesFit s l d)] :
    laneSetRefusal s l d =
      if InRange d then
        if SumFits s l d then
          if GroupFits s l d then if SharesFit s l d then none else some .shortShare
          else some .mismatch
        else some .over
      else some .range := by
  have range := descriptorInRange_iff d
  have sum := sumFits_iff (s := s) (l := l) hc
  have group := mismatched_iff s l d
  have share := short_share_iff s l d
  rw [laneSetRefusal, if_neg (not_not.mpr stopped), if_pos hc]
  by_cases h1 : InRange d
  · rw [if_neg (by rw [range.mpr h1]; simp), if_pos h1]
    by_cases h2 : SumFits s l d
    · rw [if_neg (sum.mp h2), if_pos h2]
      by_cases h3 : GroupFits s l d
      · rw [if_neg (mt group.mp (not_not.mpr h3)), if_pos h3]
        by_cases h4 : SharesFit s l d
        · rw [if_neg (mt share.mp (not_not.mpr h4)), if_pos h4]
        · rw [if_pos (share.mpr h4), if_neg h4]
      · rw [if_pos (group.mpr h3), if_neg h3]
    · rw [if_pos (not_not.mp (mt sum.mpr h2)), if_neg h2]
  · rw [if_pos (by simpa using mt range.mp h1), if_neg h1]

theorem laneSetRefusal_unconfigured (stopped : (s.lane l).state = .stopped) (hc : d.configured = false) :
    laneSetRefusal s l d = if names (bindingEntries s) l then some .state else none := by
  rw [laneSetRefusal, if_neg (not_not.mpr stopped), if_neg (by simp [hc])]

theorem laneSetRefusal_running (h : (s.lane l).state ≠ .stopped) : laneSetRefusal s l d = some .state := if_pos h

/-! ### The operands of LANE_SET -/

theorem yesNo_boolNum (c : Bool) : yesNo (byteOf (boolNum c)).toNat = some c := by cases c <;> rfl

theorem groupFieldOf_groupFieldNum (g : Option GroupId) : groupFieldOf (byteOf (groupFieldNum g)).toNat = some g := by
  cases g with
  | none => rfl
  | some g => cases g <;> rfl

theorem cmdLaneSet_done (hr : laneSetRefusal s l (descriptor c w h m a g) = none) :
    cmdLaneSet (byteOf (laneNum l)) (byteOf (boolNum c)) w h m a (byteOf (groupFieldNum g)) s =
      (installDescriptor l (descriptor c w h m a g) s, doneWith []) := by
  rw [descriptor] at hr
  simp only [cmdLaneSet, laneOf_laneNum, yesNo_boolNum, groupFieldOf_groupFieldNum, hr]
  rfl

theorem cmdLaneSet_refused {r : ResultCode} (hr : laneSetRefusal s l (descriptor c w h m a g) = some r) :
    cmdLaneSet (byteOf (laneNum l)) (byteOf (boolNum c)) w h m a (byteOf (groupFieldNum g)) s = (s, refusal r) := by
  rw [descriptor] at hr
  simp only [cmdLaneSet, laneOf_laneNum, yesNo_boolNum, groupFieldOf_groupFieldNum, hr]
  rfl

/-! ### The new descriptor -/

theorem evaluated_eq (g : Option GroupId) (s : State) : evaluated g s = evaluateOption g s := by cases g <;> rfl

theorem evaluateLane_eq (l : LaneId) (s : State) : evaluateLane l s = evaluated (groupNamed (s.lane l).desc) s := by
  have same : groupNamed (s.lane l).desc = groupOf (s.lane l).desc := rfl
  unfold evaluateLane
  rw [same]
  cases groupOf (s.lane l).desc <;> rfl

theorem setStanding_self (l : LaneId) (s : State) : s.setStanding l (s.standing l) = s := by
  simp [State.setStanding, State.modRelease, State.standing]

/-- The lane with its new descriptor and its new standing, before any group is evaluated (R5, R38). -/
def descriptorPlaced (l : LaneId) (d : Descriptor) (s : State) : State :=
  (setLane l { s.lane l with desc := d } s).setStanding l
    (standingAfterSet s l (groupNamed (s.lane l).desc) (groupNamed d))

theorem installDescriptor_eq (l : LaneId) (d : Descriptor) (s : State) :
    installDescriptor l d s =
      if groupNamed (s.lane l).desc = groupNamed d then descriptorPlaced l d s
      else evaluated (groupNamed d) (evaluated (groupNamed (s.lane l).desc) (descriptorPlaced l d s)) := by
  simp only [evaluated_eq]
  rfl

theorem standingAfterSet_same {old new : Option GroupId} (h : old = new) : standingAfterSet s l old new = s.standing l :=
  if_pos h

theorem standingAfterSet_other {old new : Option GroupId} (h : old ≠ new) :
    standingAfterSet s l old new = if new = none then none else some .lagging := by
  cases new <;> exact if_neg h

theorem installDescriptor_eq_laneSet (l : LaneId) (d : Descriptor) (s : State) :
    installDescriptor l d s = laneSet l d s := by
  rw [installDescriptor_eq, laneSet]
  by_cases same : groupNamed (s.lane l).desc = groupNamed d
  · rw [if_pos same, if_pos same, descriptorPlaced, standingAfterSet_same same]
    exact setStanding_self l (setLane l { s.lane l with desc := d } s)
  · rw [if_neg same, if_neg same, descriptorPlaced, standingAfterSet_other same]

@[simp] theorem descriptorPlaced_lane (l : LaneId) (d : Descriptor) (s : State) :
    (descriptorPlaced l d s).lane l = { s.lane l with desc := d } := lane_setLane_same l _ s

theorem descriptorPlaced_lane_other (hk : k ≠ l) : (descriptorPlaced l d s).lane k = s.lane k :=
  lane_setLane_other hk _ s

theorem descriptorPlaced_standing (l : LaneId) (d : Descriptor) (s : State) :
    (descriptorPlaced l d s).standing l = standingAfterSet s l (groupNamed (s.lane l).desc) (groupNamed d) :=
  standing_setStanding_same l _ _

theorem descriptorPlaced_standing_other (hk : k ≠ l) : (descriptorPlaced l d s).standing k = s.standing k :=
  standing_setStanding_other hk _ _

/-- After LANE_SET only the groups whose membership has changed are evaluated: the one left and the one joined (R5, R44). -/
theorem laneSet_evaluates (l : LaneId) (d : Descriptor) (s : State) :
    Evaluates (fun k => ∃ j, (groupNamed (s.lane l).desc = some j ∨ groupNamed d = some j) ∧
      groupNamed ((descriptorPlaced l d s).lane k).desc = some j) (descriptorPlaced l d s) (laneSet l d s) := by
  rw [← installDescriptor_eq_laneSet, installDescriptor_eq]
  split
  · exact .refl _ _
  · simp only [evaluated_eq]
    have left := evaluateOption_evaluates (groupNamed (s.lane l).desc) (descriptorPlaced l d s)
    refine (left.mono ?_).trans ((evaluateOption_evaluates _ _).mono ?_)
    · rintro k ⟨j, old, member⟩
      exact ⟨j, .inl old, member⟩
    · rintro k ⟨j, new, member⟩
      rw [left.thins.desc] at member
      exact ⟨j, .inr new, member⟩

/-- Settles O17, by the checks in their order and by the groups that are evaluated. -/
theorem laneSetChecksAndReplaces : Obligations.LaneSetChecksAndReplaces := by
  classical
  refine ⟨fun tag m w h a l c g s ready stopped => ?_, fun tag m w h a l c g s ready => ?_⟩
  · intro d fits unbound old new t
    have accepted : laneSetRefusal s l d = none := by
      cases hc : c with
      | true =>
        obtain ⟨range, sum, group, share⟩ := fits hc
        rw [laneSetRefusal_configured stopped hc, if_pos range, if_pos sum, if_pos group, if_pos share]
      | false =>
        rw [laneSetRefusal_unconfigured stopped hc, if_neg]
        rw [names_bindingEntries_iff]
        rintro ⟨e, binds, names⟩
        exact unbound hc e binds names
    have evaluates := laneSet_evaluates l d s
    have lane := descriptorPlaced_lane l d s
    have standing := descriptorPlaced_standing l d s
    have idle : ((descriptorPlaced l d s).lane l).state ≠ .running := by
      rw [lane, show (s.lane l).state = .stopped from stopped]; decide
    have unchanged (v : Option Standing) (hv : standingAfterSet s l old new = v) (hne : v ≠ some .inStep) :
        t.standing l = v :=
      (evaluates.standing l idle (by rw [standing]; exact hv ▸ hne)).trans (standing.trans hv)
    refine ⟨?_, ?_, ?_, fun k => ⟨fun hk => ?_, ?_, ?_⟩, fun same => ?_, fun other => ?_, fun k hk outside => ?_,
      fun empty => ?_⟩
    · have reply : perform .head tag (.laneSet (byteOf (laneNum l)) (byteOf (boolNum c)) w h m a (byteOf (groupFieldNum g))) s =
          (t, some (doneWith [])) := by
        simp only [perform, cmdLaneSet_done accepted, installDescriptor_eq_laneSet]
        rfl
      exact exec_taken (c := .laneSet _ _ _ _ _ _ _) ready reply rfl nofun
    · have only := installDescriptor_only l d s
      rw [installDescriptor_eq_laneSet] at only
      exact only
    · rw [evaluates.thins.desc, lane]
    · rw [evaluates.thins.desc, descriptorPlaced_lane_other hk]
    · rw [evaluates.thins.state]
      by_cases hk : k = l
      · subst hk; rw [lane]
      · rw [descriptorPlaced_lane_other hk]
    · rw [evaluates.thins.with_queue]
      by_cases hk : k = l
      · subst hk; rw [lane]
      · rw [descriptorPlaced_lane_other hk]
    · have placed : t = descriptorPlaced l d s := by
        change laneSet l d s = _
        rw [← installDescriptor_eq_laneSet, installDescriptor_eq, if_pos same]
      rw [placed, standing, standingAfterSet_same same]
    · exact unchanged _ (standingAfterSet_other other) (by split <;> simp)
    · obtain ⟨same_lane, same_standing, -⟩ := evaluates.outside k (by
        rintro ⟨j, concerned, member⟩
        rw [descriptorPlaced_lane_other hk] at member
        obtain ⟨not_old, not_new⟩ := outside j member
        exact concerned.elim not_old not_new)
      exact ⟨same_lane.trans (descriptorPlaced_lane_other hk), same_standing.trans (descriptorPlaced_standing_other hk)⟩
    · obtain ⟨same_lane, counters⟩ := evaluates.waiting l (by rw [lane]; simp [NoneComplete, empty])
      exact ⟨by rw [same_lane, lane]; exact empty, counters⟩
  · intro d done
    have refused (r : ResultCode) (hr : laneSetRefusal s l d = some r) : done r := by
      have reply : perform .head tag (.laneSet (byteOf (laneNum l)) (byteOf (boolNum c)) w h m a (byteOf (groupFieldNum g))) s =
          (s, some (refusal r)) := by
        simp only [perform, cmdLaneSet_refused hr]
      exact exec_taken (c := .laneSet _ _ _ _ _ _ _) ready reply rfl nofun
    refine ⟨fun running => refused _ (laneSetRefusal_running running), fun stopped => ⟨fun hc bound => refused _ ?_,
      fun hc range => refused _ ?_, fun hc range sum => refused _ ?_, fun hc range sum group => refused _ ?_,
      fun hc range sum group share => refused _ ?_⟩⟩
    · rw [laneSetRefusal_unconfigured stopped hc, if_pos ((names_bindingEntries_iff s l).mpr bound)]
    · rw [laneSetRefusal_configured stopped hc, if_neg range]
    · rw [laneSetRefusal_configured stopped hc, if_pos range, if_neg sum]
    · rw [laneSetRefusal_configured stopped hc, if_pos range, if_pos sum, if_neg group]
    · rw [laneSetRefusal_configured stopped hc, if_pos range, if_pos sum, if_pos group, if_neg share]

/-! ### LANE_START and LANE_STOP -/

theorem startLane_eq (l : LaneId) (s : State) :
    startLane l s = evaluated (groupNamed (s.lane l).desc) (setLane l (fresh .armed (s.lane l).queue (s.lane l)) s) := by
  rw [startLane, modLane_eq_setLane, evaluateLane_eq, lane_setLane_same]
  rfl

/-- A lane that is emptied and takes a state afresh: the records commute. -/
theorem emptied_eq (l : LaneId) (v : LaneState) (s : State) :
    (emptyLane l s).modLane l (fun x => { freshAssembly x with state := v }) =
      countCut l (s.lane l).queue
        { setLane l (fresh v [] (s.lane l)) s with poolFree := s.poolFree + held s l } := by
  rw [emptyLane, ← (countCut_recording l _).modLane, modLane_eq_setLane, lane_requeue]
  simp only [State.modLane, State.addFree, setLane, perLane_set_set]
  rfl

theorem laneStopped_eq (l : LaneId) (s : State) :
    laneStopped l s = countCut l (s.lane l).queue
      { setLane l (fresh .stopped [] (s.lane l)) s with poolFree := s.poolFree + held s l } := rfl

theorem laneStopped_lane (l : LaneId) (s : State) : (laneStopped l s).lane l = fresh .stopped [] (s.lane l) := by
  rw [laneStopped_eq, (countCut_recording l _).lane]
  exact lane_setLane_same l _ s

theorem laneStopped_lane_other (hk : k ≠ l) (s : State) : (laneStopped l s).lane k = s.lane k := by
  rw [laneStopped_eq, (countCut_recording l _).lane]
  exact lane_setLane_other hk _ s

theorem laneStopped_poolFree (l : LaneId) (s : State) : (laneStopped l s).poolFree = s.poolFree + held s l := by
  rw [laneStopped_eq, (countCut_recording l _).poolFree]

theorem laneStopped_cutLines (l : LaneId) (s : State) :
    (laneStopped l s).counter (.lane l .cutLines) =
      if (s.lane l).queue.any partlySent then counterUp (s.counter (.lane l .cutLines))
      else s.counter (.lane l .cutLines) := by
  rw [laneStopped_eq, countCut]
  split
  · exact counter_bump_same (by simp) _
  · rfl

theorem stopLane_eq (hs : (s.lane l).state ≠ .stopped) : stopLane l s = evaluateLane l (lagQuietly l (laneStopped l s)) := by
  rw [stopLane, if_neg hs]
  simp only [emptied_eq, laneStopped_eq]

theorem groupOf_laneStopped (l : LaneId) (s : State) :
    groupOf ((laneStopped l s).lane l).desc = groupNamed (s.lane l).desc := by
  rw [laneStopped_lane]
  rfl

theorem stopLane_alone (hs : (s.lane l).state ≠ .stopped) (hg : groupNamed (s.lane l).desc = none) :
    stopLane l s = laneStopped l s := by
  have alone := (groupOf_laneStopped l s).trans hg
  have lag : lagQuietly l (laneStopped l s) = laneStopped l s := by simp only [lagQuietly, alone]
  rw [stopLane_eq hs, lag]
  simp only [evaluateLane, alone]

theorem stopLane_member (hs : (s.lane l).state ≠ .stopped) {g : GroupId} (hg : groupNamed (s.lane l).desc = some g) :
    stopLane l s = evaluate g ((laneStopped l s).setStanding l (some .lagging)) := by
  have member := (groupOf_laneStopped l s).trans hg
  have lag : lagQuietly l (laneStopped l s) = (laneStopped l s).setStanding l (some .lagging) := by
    simp only [lagQuietly, member]
  have lane : ((laneStopped l s).setStanding l (some .lagging)).lane l = (laneStopped l s).lane l := rfl
  rw [stopLane_eq hs, lag]
  simp only [evaluateLane, lane, member]

/-- What LANE_STOP leaves: the lane emptied and STOPPED, and of the other lanes all but lines that its group releases. -/
theorem stopLane_evaluates (hs : (s.lane l).state ≠ .stopped) :
    ∃ u, u.lanes = (laneStopped l s).lanes ∧ u.counters = (laneStopped l s).counters ∧
      Evaluates (fun _ => True) u (stopLane l s) := by
  have only := lagQuietly_only l (laneStopped l s)
  refine ⟨lagQuietly l (laneStopped l s), only .lanes (by decide), only .counters (by decide), ?_⟩
  rw [stopLane_eq hs]
  exact evaluateLane_evaluates l _

theorem exec_laneStop (ready : Ready .head s) (l : LaneId) :
    exec (.laneStop .head tag (byteOf (laneNum l))) s = replies .head 5 tag .done [] (stopLane l s) := by
  have reply : perform .head tag (.laneStop (byteOf (laneNum l))) s = (stopLane l s, some (doneWith [])) := by
    simp only [perform, cmdLaneStop, laneOf_laneNum]
  exact exec_taken (c := .laneStop _) ready reply rfl nofun

theorem answered_head_only {ps : List Part} {r : Response} (h : OnlyChanges ps s t)
    (hp : ∀ p ∈ ps, p ∈ Part.port :: evaluationChanges := by decide) :
    OnlyChanges (.port :: evaluationChanges) s (answered .head r t) :=
  (h.wider hp).trans ((modPort_only (fun p => { p with holding := some r }) t).wider)

/-- Settles O18, by the equations of the two commands and what the evaluation of a group keeps. -/
theorem laneStartAndLaneStop : Obligations.LaneStartAndLaneStop := by
  refine ⟨fun tag x s => ⟨fun ready => ⟨?_, ?_⟩, fun ready beyond => ⟨?_, ?_⟩⟩,
    fun tag l s ready => ⟨fun stopped configured => ?_, fun refused => ?_⟩,
    fun tag l s ready => ⟨fun stopped => ?_, fun live => ?_⟩⟩
  · exact exec_refused_base (c := .laneStart x) ready rfl
  · exact exec_refused_base (c := .laneStop x) ready rfl
  · have reply : perform .head tag (.laneStart x) s = (s, some (refusal .range)) := by
      simp only [perform, cmdLaneStart, laneOf_eq_none beyond]; rfl
    exact exec_taken (c := .laneStart x) ready reply rfl nofun
  · have reply : perform .head tag (.laneStop x) s = (s, some (refusal .range)) := by
      simp only [perform, cmdLaneStop, laneOf_eq_none beyond]; rfl
    exact exec_taken (c := .laneStop x) ready reply rfl nofun
  · have reply : perform .head tag (.laneStart (byteOf (laneNum l))) s = (startLane l s, some (doneWith [])) := by
      simp only [perform, cmdLaneStart, laneOf_laneNum, if_pos (And.intro stopped configured)]
    have thins := (evaluateLane_evaluates l (s.modLane l fun x => { freshAssembly x with state := .armed })).thins
    refine ⟨_, exec_taken (c := .laneStart _) ready reply rfl nofun, answers_answered .head 4 .done [] (startLane_only l s),
      answered_head_only (startLane_only l s), ?_, ?_, fun k hk => ?_⟩
    · refine (thins.with_queue l).trans ?_
      rw [lane_modLane_same]
      rfl
    · rw [startLane_eq]
      rfl
    · refine (thins.with_queue k).trans ?_
      rw [lane_modLane_other l k _ s hk]
      rfl
  · have reply : perform .head tag (.laneStart (byteOf (laneNum l))) s = (s, some (refusal .state)) := by
      have fails : ¬ ((s.lane l).state = .stopped ∧ (s.lane l).desc.configured = true) := by
        rintro ⟨stopped, configured⟩
        exact refused.elim (· stopped) (by simp [configured])
      simp only [perform, cmdLaneStart, laneOf_laneNum, if_neg fails]
      rfl
    exact exec_taken (c := .laneStart _) ready reply rfl nofun
  · rw [exec_laneStop ready, stopLane, if_pos stopped]
  · obtain ⟨u, lanes, counters, evaluates⟩ := stopLane_evaluates live
    have lane : u.lane l = fresh .stopped [] (s.lane l) := (lane_congr lanes l).trans (laneStopped_lane l s)
    refine ⟨_, exec_laneStop ready l, answers_answered .head 5 .done [] (stopLane_only l s),
      answered_head_only (stopLane_only l s), ?_, fun k hk => ?_, fun alone => ⟨?_, ?_⟩, fun g member => ⟨?_, ?_⟩, ?_⟩
    · exact (evaluates.waiting l (by rw [lane]; simp [NoneComplete, fresh])).1.trans lane
    · refine (evaluates.thins.with_queue k).trans ?_
      rw [lane_congr lanes, laneStopped_lane_other hk]
      rfl
    · rw [stopLane_alone live alone]
    · rw [stopLane_alone live alone]
      exact laneStopped_poolFree l s
    · have kept := (evaluate_evaluates g ((laneStopped l s).setStanding l (some .lagging))).standing l
      rw [standing_setStanding_same] at kept
      rw [stopLane_member live member]
      refine kept ?_ (by simp)
      change ((laneStopped l s).lane l).state ≠ .running
      rw [laneStopped_lane]
      simp [fresh]
    · rw [stopLane_member live member]
    · refine (evaluates.counter (.lane l .cutLines) (by simp [ReleaseCounter])).trans ?_
      refine Eq.trans ?_ (laneStopped_cutLines l s)
      simp only [State.counter, counters]

end Sys2Proof.Proofs

/-! # Proofs: LINK_RESTART

What LINK_RESTART does in every block (R145, Table 8-5), by its stages: the records, the lanes, the groups, and the blocks that are
set anew. -/

namespace Sys2Proof.Proofs

open Sys2Proof.Machine Sys2Proof.Claims

variable {s t u v : State} {l k : LaneId} {g : GroupId}

/-! ### The records -/

theorem raiseAll_append (es fs : List (EventKind × Nat × Nat)) (s : State) :
    raiseAll (es ++ fs) s = raiseAll fs (raiseAll es s) := by
  induction es generalizing s with
  | nil => rfl
  | cons e es ih => exact ih _

/-- What the plan store raises at LINK_RESTART (R64, R127). -/
theorem planRestart_agree (hp : v.plan = s.plan) (h : Agree u v) :
    Agree (raiseAll (planRestartEvents s) u) (planRestart v) := by
  have bank : pendingBank v = pendingBank s := by rw [pendingBank, pendingBank, hp]
  have cleared : Agree v (clearCountdown v) := agree_of_only (clearCountdown_only v)
  have freed : Agree v (freeHold (clearCountdown v)) := cleared.trans (agree_of_only (freeHold_only _))
  unfold planRestart planRestartEvents
  rw [hp, bank]
  cases s.plan.hold with
  | free => exact h.trans cleared
  | held o ms => exact (raise_recording _ _ _).agree (h.trans freed)
  | counting o => exact (raise_recording _ _ _).agree ((raise_recording _ _ _).agree (h.trans freed))

/-- RELAY_DISCARDED, if messages wait (R153). -/
theorem relayEvents_agree (h : Agree u v) :
    Agree (raiseAll (relayEvents s) u)
      (if s.control.relayOut.length = 0 then v else v.raise .relayDiscarded 0 s.control.relayOut.length) := by
  unfold relayEvents
  split
  · exact h
  · exact (raise_recording _ _ _).agree h

theorem carriesFrames_iff (c : LinkState) : carriesFrames c = true ↔ Carrying c := by
  cases c <;> simp [carriesFrames, Carrying]

/-- The records of LINK_RESTART but for the cut lines (R64, R127, R138, R145, R153). -/
def restartEvents (s : State) : List (EventKind × Nat × Nat) :=
  (if carriesFrames s.link.state then [(.linkDown, classNum s.link.classInForce, causeNum .restart)] else []) ++
    (planRestartEvents s ++ relayEvents s)

/-- The state with the control-slot queues emptied (R145). -/
def queuesEmptied (s : State) : State := { s with control := ⟨[], [], [], []⟩ }

/-- The queues emptied, and the drop recorded where LINK_RESTART is one (R138, R145). -/
def dropRecorded (s : State) : State :=
  if carriesFrames s.link.state then recordDrop .restart (queuesEmptied s) else queuesEmptied s

theorem dropRecorded_only (s : State) :
    OnlyChanges [.link, .events, .notices, .counters] (queuesEmptied s) (dropRecorded s) := by
  unfold dropRecorded
  split
  · exact recordDrop_only _ _
  · exact .refl _ _

theorem restartRecords_eq (s : State) :
    restartRecords s =
      if s.control.relayOut.length = 0 then planRestart (dropRecorded s)
      else (planRestart (dropRecorded s)).raise .relayDiscarded 0 s.control.relayOut.length := rfl

theorem restartRecords_agree (s : State) : Agree (raiseAll (restartEvents s) (queuesEmptied s)) (restartRecords s) := by
  rw [restartEvents, raiseAll_append, raiseAll_append, restartRecords_eq]
  refine relayEvents_agree (planRestart_agree (dropRecorded_only s .plan (by decide)) ?_)
  unfold dropRecorded
  split
  · exact (raise_recording _ _ _).agree (agree_of_only (modLink_only _ (queuesEmptied s)))
  · exact .refl _

/-- The last stage of the records touches none but the records. -/
theorem restartRecords_only_plan (s : State) :
    OnlyChanges [.events, .notices, .counters] (planRestart (dropRecorded s)) (restartRecords s) := by
  rw [restartRecords_eq]
  split
  · exact .refl _ _
  · exact raise_only _ _ _ _

/-! ### The plan store, the queues and the link -/

/-- The plan store as LINK_RESTART leaves its banks and its hold: any hold is dropped with its pending bank, and any countdown
cancelled (R64, R127). -/
def planRestarted (p : PlanStore) : PlanStore :=
  { (if p.hold = .free then p else bankSet p (otherId p) .emptied) with hold := .free, countdown := 0, due := none }

theorem freeHold_clearCountdown_plan (s : State) :
    (freeHold (clearCountdown s)).plan =
      { bankSet s.plan (otherId s.plan) .emptied with hold := .free, countdown := 0, due := none } := by
  by_cases h : s.plan.bank0.role = .active <;>
    simp [freeHold, discardPending, clearCountdown, otherId, activeId, otherBank, bankSet, h]

theorem planRestart_plan (s : State) : (planRestart s).plan = planRestarted s.plan := by
  have raised (k : EventKind) (a b : Nat) (u : State) : (u.raise k a b).plan = u.plan :=
    raise_only k a b u .plan (by decide)
  unfold planRestart planRestarted
  cases hold : s.plan.hold with
  | free => simp only [if_true, clearCountdown, modPlan_plan, ← hold]
  | held o ms => rw [raised, if_neg (by simp), freeHold_clearCountdown_plan]
  | counting o => rw [raised, raised, if_neg (by simp), freeHold_clearCountdown_plan]

theorem planRestarted_active (p : PlanStore) : bankGet (planRestarted p) (activeId p) = bankGet p (activeId p) := by
  unfold planRestarted
  split
  · cases activeId p <;> rfl
  · unfold otherId
    cases activeId p <;> rfl

theorem planRestarted_other (p : PlanStore) :
    bankGet (planRestarted p) (otherId p) = if p.hold = .free then bankGet p (otherId p) else .emptied := by
  unfold planRestarted
  split <;> cases otherId p <;> rfl

/-- The stage of the records leaves the plan store so, the queues empty and the drop recorded in the link. -/
theorem restartRecords_plan (s : State) : (restartRecords s).plan = planRestarted s.plan := by
  have plan : (dropRecorded s).plan = s.plan := dropRecorded_only s .plan (by decide)
  have same : (restartRecords s).plan = (planRestart (dropRecorded s)).plan := restartRecords_only_plan s .plan (by decide)
  rw [same, planRestart_plan, plan]

theorem restartRecords_queues (s : State) :
    (restartRecords s).control.announce = [] ∧ (restartRecords s).control.responses = [] ∧
      (restartRecords s).control.relayOut = [] := by
  have only : OnlyChanges [.link, .plan, .events, .notices, .counters] (queuesEmptied s) (restartRecords s) :=
    ((dropRecorded_only s).andThen (planRestart_only _) (rs := [.link, .plan, .events, .notices, .counters])).andThen
      (restartRecords_only_plan s)
  exact ⟨only .announce (by decide), only .responses (by decide), only .relayOut (by decide)⟩

/-- The link with the drop recorded, where LINK_RESTART is one (R138, R145). -/
theorem restartRecords_link (s : State) : (restartRecords s).link =
    if carriesFrames s.link.state then
      { s.link with lastCause := .restart, dropCount := min 65535 (s.link.dropCount + 1) }
    else s.link := by
  have same : (restartRecords s).link = (dropRecorded s).link :=
    ((planRestart_only (dropRecorded s)).andThen (rs := [.plan, .events, .notices, .counters]) (restartRecords_only_plan s))
      .link (by decide)
  rw [same, dropRecorded]
  split
  · exact raise_only _ _ _ _ .link (by decide)
  · rfl

/-! ### The lanes -/

/-- A lane as LINK_RESTART leaves it (R12). -/
def laneRestarted (x : Lane) : Lane := if x.state = .stopped then x else fresh .armed [] x

theorem restartLane_eq (hs : (s.lane l).state ≠ .stopped) :
    restartLane l s = countCut l (s.lane l).queue
      { setLane l (fresh .armed [] (s.lane l)) s with poolFree := s.poolFree + held s l } := by
  rw [restartLane, if_neg hs]
  exact emptied_eq l .armed s

theorem restartLane_lane (l : LaneId) (s : State) : (restartLane l s).lane l = laneRestarted (s.lane l) := by
  unfold laneRestarted
  split
  · rw [restartLane, if_pos ‹_›]
  · rw [restartLane_eq ‹_›, (countCut_recording l _).lane]
    exact lane_setLane_same l _ s

theorem restartLane_lane_other (hk : k ≠ l) (s : State) : (restartLane l s).lane k = s.lane k := by
  by_cases hs : (s.lane l).state = .stopped
  · rw [restartLane, if_pos hs]
  · rw [restartLane_eq hs, (countCut_recording l _).lane]
    exact lane_setLane_other hk _ s

/-- The buffers that the lane gives up return to the pool. -/
theorem restartLane_poolTotal (l : LaneId) (s : State) : poolTotal (restartLane l s) = poolTotal s := by
  refine poolTotal_of_lane l (fun k hk => restartLane_lane_other hk s) ?_
  by_cases hs : (s.lane l).state = .stopped
  · rw [restartLane, if_pos hs]
  · rw [held, restartLane_lane, laneRestarted, if_neg hs, restartLane_eq hs, (countCut_recording l _).poolFree]
    rfl

/-- Operations on the lanes one after another: what one reads and writes of its own lane, and leaves of the others, the four
together do to each lane once. -/
theorem each_lane {α : Type} {f : LaneId → State → State} {view : Lane → α} {g : α → α}
    (own : ∀ l s, view ((f l s).lane l) = g (view (s.lane l)))
    (other : ∀ k l s, k ≠ l → view ((f l s).lane k) = view (s.lane k)) (s : State) (k : LaneId) :
    view ((State.each f laneIds s).lane k) = g (view (s.lane k)) := by
  simp only [laneIds, State.each]
  cases k with
  | l0 => rw [other _ _ _ (by decide), other _ _ _ (by decide), other _ _ _ (by decide), own]
  | l1 => rw [other _ _ _ (by decide), other _ _ _ (by decide), own, other _ _ _ (by decide)]
  | l2 => rw [other _ _ _ (by decide), own, other _ _ _ (by decide), other _ _ _ (by decide)]
  | l3 => rw [own, other _ _ _ (by decide), other _ _ _ (by decide), other _ _ _ (by decide)]

theorem restartLanes_lane (s : State) (k : LaneId) :
    (State.each restartLane laneIds s).lane k = laneRestarted (s.lane k) :=
  each_lane (view := id) restartLane_lane (fun _ _ s h => restartLane_lane_other h s) s k

theorem restartLanes_poolTotal (ls : List LaneId) (s : State) :
    poolTotal (State.each restartLane ls s) = poolTotal s := by
  induction ls generalizing s with
  | nil => rfl
  | cons l ls ih => exact (ih _).trans (restartLane_poolTotal l s)

/-- The cut line of a lane, counted where its queue held one that was partly sent (R31). -/
def cutCounted (s : State) (l : LaneId) (u : State) : State :=
  if (s.lane l).queue.any partlySent then u.bump (.lane l .cutLines) else u

/-- The lanes are restarted one after another, and their cut lines counted in that order (log 28). -/
theorem restartLanes_agree (hs : ∀ l, (s.lane l).state = .stopped → (s.lane l).queue = []) {ls : List LaneId}
    (distinct : ls.Nodup) (hl : ∀ l ∈ ls, v.lane l = s.lane l) (h : Agree u v) :
    Agree (State.each (cutCounted s) ls u) (State.each restartLane ls v) := by
  induction ls generalizing u v with
  | nil => exact h
  | cons l ls ih =>
    obtain ⟨fresh_l, rest⟩ := List.nodup_cons.mp distinct
    have lane : v.lane l = s.lane l := hl l List.mem_cons_self
    refine ih rest (fun k hk => ?_) ?_
    · have other : k ≠ l := by rintro rfl; exact fresh_l hk
      rw [restartLane_lane_other other, hl k (List.mem_cons_of_mem l hk)]
    · by_cases stopped : (v.lane l).state = .stopped
      · rw [restartLane, if_pos stopped, cutCounted, hs l (lane ▸ stopped)]
        exact h
      · rw [restartLane_eq stopped, lane]
        refine (countCut_recording l _).agree (h.trans ?_)
        exact ⟨⟨rfl, rfl, rfl⟩, rfl⟩

/-! ### The groups -/

/-- A group without a RUNNING member is evaluated by releasing its waiting lines alone (R42). -/
theorem evaluate_idle (h : ∀ l, (s.lane l).state ≠ .running) (g : GroupId) :
    evaluate g s = State.each releaseAllAlone (members s g) (s.modGroup g fun x => { x with cursor := none }) := by
  have none_running : (members s g).any (isRunning s) = false := by
    simp [isRunning, h]
  unfold evaluate
  simp only [none_running]
  rfl

theorem evaluate_idle_release (h : ∀ l, (s.lane l).state ≠ .running) (g : GroupId) :
    (evaluate g s).release = (s.modGroup g fun x => { x with cursor := none }).release := by
  rw [evaluate_idle h]
  exact each_only (fun l s => releaseAllAlone_only l s) _ _ .release (by decide)

theorem completeIn_of_nil : completeIn [] = 0 := rfl

/-- With no line in any queue only the cursor changes. -/
theorem evaluate_empty (h : ∀ l, (s.lane l).state ≠ .running) (hq : ∀ l, (s.lane l).queue = []) (g : GroupId) :
    evaluate g s = s.modGroup g fun x => { x with cursor := none } := by
  have same (ls : List LaneId) (u : State) (hu : u.lanes = s.lanes) : State.each releaseAllAlone ls u = u := by
    induction ls with
    | nil => rfl
    | cons l ls ih =>
      have empty : (u.lane l).queue = [] := by rw [lane_congr hu]; exact hq l
      have idle : releaseAllAlone l u = u := by rw [releaseAllAlone, empty]; rfl
      rw [State.each, idle]
      exact ih
  rw [evaluate_idle h]
  exact same _ _ rfl

/-- The release unit as LINK_RESTART sets it: no cursor, and the members IN_STEP but for STOPPED ones (R53). -/
def releaseRestarted (s : State) : State :=
  s.modRelease fun r =>
    { groups := ⟨{ r.groups.a with cursor := none }, { r.groups.b with cursor := none }⟩,
      standing := ⟨restartStanding s .l0, restartStanding s .l1, restartStanding s .l2, restartStanding s .l3⟩ }

theorem releaseRestarted_only (s : State) : OnlyChanges [.release] s (releaseRestarted s) := modRelease_only _ s

theorem releaseRestarted_lane (s : State) (l : LaneId) : (releaseRestarted s).lane l = s.lane l := rfl

theorem releaseRestarted_poolFree (s : State) : (releaseRestarted s).poolFree = s.poolFree := rfl

theorem releaseRestarted_group (s : State) (g : GroupId) :
    (releaseRestarted s).release.groups.get g = { s.group g with cursor := none } := by
  cases g <;> rfl

theorem releaseRestarted_standing (s : State) (l : LaneId) :
    (releaseRestarted s).release.standing.get l = restartStanding s l := by
  cases l <;> rfl

theorem restartGroups_eq (s : State) : restartGroups s = evaluate .b (evaluate .a (releaseRestarted s)) := rfl

theorem restartGroups_evaluates (s : State) : Evaluates (fun _ => True) (releaseRestarted s) (restartGroups s) :=
  ((evaluate_evaluates .a _).mono fun _ _ => trivial).trans ((evaluate_evaluates .b _).mono fun _ _ => trivial)

theorem releaseRestarted_cursors (s : State) (g : GroupId) :
    ((releaseRestarted s).modGroup g fun x => { x with cursor := none }).release = (releaseRestarted s).release := by
  cases g <;> rfl

/-- Without a RUNNING lane the evaluations leave the release unit as it is set. -/
theorem restartGroups_release (h : ∀ l, (s.lane l).state ≠ .running) :
    (restartGroups s).release = (releaseRestarted s).release := by
  have first := evaluate_idle_release (s := releaseRestarted s) h .a
  have idle (l : LaneId) : ((evaluate .a (releaseRestarted s)).lane l).state ≠ .running := by
    rw [(evaluate_evaluates .a _).thins.state]; exact h l
  rw [restartGroups_eq, evaluate_idle_release idle]
  rw [releaseRestarted_cursors] at first
  have cursors := releaseRestarted_cursors s .b
  simp only [modGroup_release] at cursors ⊢
  rw [first]
  exact cursors

theorem restartGroups_empty (h : ∀ l, (s.lane l).state ≠ .running) (hq : ∀ l, (s.lane l).queue = []) :
    restartGroups s = releaseRestarted s := by
  have same (g : GroupId) : evaluate g (releaseRestarted s) = releaseRestarted s := by
    rw [evaluate_empty (s := releaseRestarted s) h hq]
    cases g <;> rfl
  rw [restartGroups_eq, same, same]

/-! ### The stages together -/

/-- The state with its lanes restarted. -/
def lanesRestarted (s : State) : State :=
  State.each restartLane laneIds ((restartRecords s).modLink restartedLink)

theorem lanesRestarted_lane (s : State) (l : LaneId) : (lanesRestarted s).lane l = laneRestarted (s.lane l) := by
  have same : ((restartRecords s).modLink restartedLink).lane l = s.lane l :=
    lane_congr (restartRecords_only s .lanes (by decide)) l
  rw [lanesRestarted, restartLanes_lane, same]

theorem lanesRestarted_idle (s : State) (l : LaneId) : ((lanesRestarted s).lane l).state ≠ .running := by
  rw [lanesRestarted_lane, laneRestarted]
  split
  · rename_i stopped; rw [stopped]; decide
  · simp [fresh]

theorem lanesRestarted_only (s : State) :
    OnlyChanges [.lanes, .poolFree, .events, .notices, .counters] ((restartRecords s).modLink restartedLink)
      (lanesRestarted s) := each_only restartLane_only _ _

/-- The blocks that hold neither lanes nor the pool nor records are those of the records' stage with the link restarted. -/
theorem restartGroups_lanesRestarted_only (s : State) :
    OnlyChanges evaluationParts ((restartRecords s).modLink restartedLink) (restartGroups (lanesRestarted s)) :=
  (lanesRestarted_only s).andThen (restartGroups_only _)

/-- The blocks that are set anew after the lanes and the groups (Table 8-5). -/
def blocksRestarted (lost : Bool) (s : State) : State :=
  restartServices ((s.modBuilder fun b =>
    { b with runtimes := b.runtimes.map fun r => { r with credit := 0 } }).modPlan fun p =>
    { p with echo := .idle, baseStanding := .inStep, lossTaken := p.lossTaken || lost })

theorem restartLink_eq (s : State) :
    restartLink s = blocksRestarted (buildsFrame s.link.state) (restartGroups (lanesRestarted s)) := by
  unfold restartLink lanesRestarted blocksRestarted
  rfl

theorem blocksRestarted_only (lost : Bool) (s : State) :
    OnlyChanges [.builder, .plan, .mailbox, .sides, .tally, .ret, .test] s (blocksRestarted lost s) :=
  ((modBuilder_only _ s).andThen (rs := [.builder, .plan]) (modPlan_only _ _)).andThen (restartServices_only _)

theorem blocksRestarted_plan (lost : Bool) (s : State) : (blocksRestarted lost s).plan =
    { s.plan with echo := .idle, baseStanding := .inStep, lossTaken := s.plan.lossTaken || lost } := rfl

theorem blocksRestarted_builder (lost : Bool) (s : State) : (blocksRestarted lost s).builder =
    { s.builder with runtimes := s.builder.runtimes.map fun r => { r with credit := 0 } } := rfl

theorem blocksRestarted_services (lost : Bool) (s : State) :
    (blocksRestarted lost s).mailbox = .empty ∧ (blocksRestarted lost s).tally = Tally.reset ∧
      (blocksRestarted lost s).ret = { s.ret with buffer := [] } ∧
      (blocksRestarted lost s).test = { s.test with mode := .off, idle := false } := ⟨rfl, rfl, rfl, rfl⟩

theorem blocksRestarted_side (lost : Bool) (s : State) (i : SideId) :
    (blocksRestarted lost s).side i = { s.side i with inQueue := [], outQueue := [] } := by
  cases i <;> rfl

/-- The lanes, the pool, the groups, the records, the queues and the link are settled before the other blocks. -/
theorem restartLink_only_blocks (s : State) :
    OnlyChanges [.builder, .plan, .mailbox, .sides, .tally, .ret, .test] (restartGroups (lanesRestarted s))
      (restartLink s) := by
  rw [restartLink_eq]
  exact blocksRestarted_only _ _

/-- The link as LINK_RESTART leaves it (Table 8-5). -/
theorem restartedLink_eq (c : LinkCtl) : restartedLink c =
    { (if c.state = .disabled then resting .disabled .stopped c else resting .down (.running 1000) c) with
      classInForce := .c5, attempts := 0, lastCause := .restart, lastClassEcho := 0 } := by
  unfold restartedLink
  split <;> rfl

theorem restartLink_link (s : State) : (restartLink s).link = restartedLink (restartRecords s).link := by
  have blocks : (restartLink s).link = (restartGroups (lanesRestarted s)).link :=
    restartLink_only_blocks s .link (by decide)
  have groups : (restartGroups (lanesRestarted s)).link = ((restartRecords s).modLink restartedLink).link :=
    restartGroups_lanesRestarted_only s .link (by decide)
  rw [blocks, groups, modLink_link]

theorem restartLink_plan (s : State) : (restartLink s).plan =
    { planRestarted s.plan with
      echo := .idle, baseStanding := .inStep, lossTaken := s.plan.lossTaken || buildsFrame s.link.state } := by
  have groups : (restartGroups (lanesRestarted s)).plan = ((restartRecords s).modLink restartedLink).plan :=
    restartGroups_lanesRestarted_only s .plan (by decide)
  have same : (restartGroups (lanesRestarted s)).plan = planRestarted s.plan := by
    rw [groups, modLink_plan, restartRecords_plan]
  have taken : (planRestarted s.plan).lossTaken = s.plan.lossTaken := by
    unfold planRestarted
    split
    · rfl
    · cases otherId s.plan <;> rfl
  rw [restartLink_eq, blocksRestarted_plan, same, taken]

theorem restartLink_lane (s : State) (l : LaneId) :
    (restartLink s).lane l = (restartGroups (lanesRestarted s)).lane l :=
  lane_congr (restartLink_only_blocks s .lanes (by decide)) l

/-- A lane that was not STOPPED is empty afterwards. -/
theorem restartLink_lane_live (s : State) (hs : (s.lane l).state ≠ .stopped) :
    (restartLink s).lane l = fresh .armed [] (s.lane l) := by
  have lane : (releaseRestarted (lanesRestarted s)).lane l = fresh .armed [] (s.lane l) := by
    rw [releaseRestarted_lane, lanesRestarted_lane, laneRestarted, if_neg hs]
  have same := (restartGroups_evaluates (lanesRestarted s)).waiting l (by rw [lane]; simp [NoneComplete, fresh])
  rw [restartLink_lane, same.1, lane]

theorem restartLink_release (s : State) :
    (restartLink s).release = (releaseRestarted (lanesRestarted s)).release := by
  have blocks : (restartLink s).release = (restartGroups (lanesRestarted s)).release :=
    restartLink_only_blocks s .release (by decide)
  rw [blocks, restartGroups_release (lanesRestarted_idle s)]

theorem restartLink_group (s : State) (g : GroupId) :
    (restartLink s).group g = { s.group g with cursor := none } := by
  have records : (restartRecords s).release = s.release := restartRecords_only s .release (by decide)
  have lanes : (lanesRestarted s).release = ((restartRecords s).modLink restartedLink).release :=
    lanesRestarted_only s .release (by decide)
  have same : (lanesRestarted s).release = s.release := by rw [lanes, modLink_release, records]
  rw [State.group, restartLink_release, releaseRestarted_group, State.group, same, State.group]

theorem restartLink_standing (h : groupOf (s.lane l).desc = some g) :
    (restartLink s).standing l = some (if (s.lane l).state = .stopped then .lagging else .inStep) := by
  have set_anew : (restartLink s).standing l = restartStanding (lanesRestarted s) l := by
    rw [State.standing, restartLink_release, releaseRestarted_standing]
  have desc : ((lanesRestarted s).lane l).desc = (s.lane l).desc := by
    rw [lanesRestarted_lane, laneRestarted]
    split <;> rfl
  have state : ((lanesRestarted s).lane l).state = .stopped ↔ (s.lane l).state = .stopped := by
    rw [lanesRestarted_lane, laneRestarted]
    split
    · rfl
    · simp [fresh, *]
  rw [set_anew, restartStanding, desc, h]
  simp only [state]
  split <;> rfl

/-! ### Where the STOPPED lanes hold no line -/

section
variable (hs : ∀ l, (s.lane l).state = .stopped → (s.lane l).queue = [])
include hs

theorem laneRestarted_queue (l : LaneId) : (laneRestarted (s.lane l)).queue = [] := by
  unfold laneRestarted
  split
  · exact hs l ‹_›
  · rfl

theorem restartGroups_lanesRestarted : restartGroups (lanesRestarted s) = releaseRestarted (lanesRestarted s) :=
  restartGroups_empty (lanesRestarted_idle s) fun l => by rw [lanesRestarted_lane]; exact laneRestarted_queue hs l

theorem restartLink_lane_stopped (hl : (s.lane l).state = .stopped) : (restartLink s).lane l = s.lane l := by
  rw [restartLink_lane, restartGroups_lanesRestarted hs, releaseRestarted_lane, lanesRestarted_lane, laneRestarted, if_pos hl]

theorem restartLink_poolFree :
    (restartLink s).poolFree = s.poolFree + held s .l0 + held s .l1 + held s .l2 + held s .l3 := by
  have same : (restartLink s).poolFree = (restartGroups (lanesRestarted s)).poolFree :=
    restartLink_only_blocks s .poolFree (by decide)
  have lanes : (restartRecords s).lanes = s.lanes := restartRecords_only s .lanes (by decide)
  have pool : (restartRecords s).poolFree = s.poolFree := restartRecords_only s .poolFree (by decide)
  have total : poolTotal (lanesRestarted s) = poolTotal s := by
    rw [lanesRestarted, restartLanes_poolTotal]
    exact poolTotal_congr lanes pool
  have empty (l : LaneId) : held (lanesRestarted s) l = 0 := by
    rw [held, lanesRestarted_lane, laneRestarted_queue hs]; rfl
  simp only [poolTotal, empty, Nat.add_zero] at total
  rw [same, restartGroups_lanesRestarted hs, releaseRestarted_poolFree]
  exact total

theorem restartLink_records :
    SameRecords (State.each (cutCounted s) laneIds (raiseAll (restartEvents s) (queuesEmptied s))) (restartLink s) := by
  have recorded : Agree (raiseAll (restartEvents s) (queuesEmptied s)) ((restartRecords s).modLink restartedLink) :=
    (restartRecords_agree s).trans (agree_of_only (modLink_only _ _))
  have same : (restartRecords s).lanes = s.lanes := restartRecords_only s .lanes (by decide)
  have lanes : Agree (State.each (cutCounted s) laneIds (raiseAll (restartEvents s) (queuesEmptied s)))
      (lanesRestarted s) :=
    restartLanes_agree hs (by decide) (fun l _ => lane_congr same l) recorded
  have groups : Agree (lanesRestarted s) (restartGroups (lanesRestarted s)) := by
    rw [restartGroups_lanesRestarted hs]
    exact agree_of_only (releaseRestarted_only _)
  obtain ⟨events, notices, counters⟩ := (lanes.trans groups).1
  have only := restartLink_only_blocks s
  exact ⟨Eq.trans (only .events (by decide)) events, Eq.trans (only .notices (by decide)) notices,
    Eq.trans (only .counters (by decide)) counters⟩

end

/-! ### The statement -/

theorem restartLink_queues (s : State) :
    (restartLink s).control.announce = [] ∧ (restartLink s).control.responses = [] ∧
      (restartLink s).control.relayOut = [] := by
  obtain ⟨announce, responses, relayOut⟩ := restartRecords_queues s
  have kept : OnlyChanges [.lanes, .poolFree, .release, .events, .notices, .counters, .link, .builder, .plan, .mailbox,
      .sides, .tally, .ret, .test] (restartRecords s) (restartLink s) :=
    ((modLink_only restartedLink _).andThen (restartGroups_lanesRestarted_only s) (rs := .link :: evaluationParts)).andThen
      (restartLink_only_blocks s)
  exact ⟨Eq.trans (kept .announce (by decide)) announce, Eq.trans (kept .responses (by decide)) responses,
    Eq.trans (kept .relayOut (by decide)) relayOut⟩

/-- The blocks of the services, the builder and the test unit before they are set anew. -/
theorem restartGroups_lanesRestarted_services (s : State) :
    OnlyChanges [.plan, .announce, .responses, .relayOut, .notices, .link, .events, .counters, .lanes, .poolFree, .release] s
      (restartGroups (lanesRestarted s)) :=
  ((restartRecords_only s).andThen (modLink_only restartedLink _)
    (rs := [.plan, .announce, .responses, .relayOut, .notices, .link, .events, .counters])).andThen
    (restartGroups_lanesRestarted_only s)

theorem answered_only (o : Origin) (r : Response) (s : State) : OnlyChanges [answerPart o] s (answered o r s) := by
  cases o with
  | head => exact modPort_only (fun p => { p with holding := some r }) s
  | base =>
    intro p hp
    cases p <;> first | rfl | exact (hp (by decide)).elim

theorem restartLink_services (s : State) :
    (restartLink s).mailbox = .empty ∧ (restartLink s).tally = Tally.reset ∧
      (restartLink s).ret = { s.ret with buffer := [] } ∧
      (restartLink s).test = { s.test with mode := .off, idle := false } := by
  have kept := restartGroups_lanesRestarted_services s
  have ret : (restartGroups (lanesRestarted s)).ret = s.ret := kept .ret (by decide)
  have test : (restartGroups (lanesRestarted s)).test = s.test := kept .test (by decide)
  rw [restartLink_eq, ← ret, ← test]
  exact blocksRestarted_services _ _

theorem restartLink_side (s : State) (i : SideId) :
    (restartLink s).side i = { s.side i with inQueue := [], outQueue := [] } := by
  have sides : (restartGroups (lanesRestarted s)).sides = s.sides :=
    restartGroups_lanesRestarted_services s .sides (by decide)
  have side : (restartGroups (lanesRestarted s)).side i = s.side i := by rw [State.side, sides, State.side]
  rw [restartLink_eq, blocksRestarted_side, side]

theorem restartLink_builder (s : State) : (restartLink s).builder =
    { s.builder with runtimes := s.builder.runtimes.map fun r => { r with credit := 0 } } := by
  have builder : (restartGroups (lanesRestarted s)).builder = s.builder :=
    restartGroups_lanesRestarted_services s .builder (by decide)
  rw [restartLink_eq, blocksRestarted_builder, builder]

theorem buildsFrame_eq (c : LinkState) : buildsFrame c = decide (c ≠ .down ∧ c ≠ .disabled) := by cases c <;> rfl

theorem restartLink_dropCount (s : State) : (restartLink s).link.dropCount =
    if carriesFrames s.link.state then min 65535 (s.link.dropCount + 1) else s.link.dropCount := by
  rw [restartLink_link, restartRecords_link, restartedLink_eq]
  split <;> split <;> rfl

/-- Of the drop only the count is left to see in the link (Table 8-5). -/
theorem restartLink_link_eq (s : State) : (restartLink s).link =
    { (if s.link.state = .disabled then resting .disabled .stopped s.link
        else resting .down (.running 1000) s.link) with
      classInForce := .c5, attempts := 0, lastCause := .restart, lastClassEcho := 0,
      dropCount := (restartLink s).link.dropCount } := by
  rw [restartLink_link, restartRecords_link, restartedLink_eq]
  split
  · split <;> simp only [*] <;> rfl
  · split <;> rfl

/-- Settles O26, by the stages of LINK_RESTART. -/
theorem linkRestartClearsEveryBlock : Obligations.LinkRestartClearsEveryBlock := by
  intro o tag s ready
  have reply : perform o tag .linkRestart s = (restartLink s, some (doneWith [])) := rfl
  have row := exec_taken (c := .linkRestart) ready reply
  have only := restartLink_only s
  obtain ⟨announce, responses, relayOut⟩ := restartLink_queues s
  have carrying := carriesFrames_iff s.link.state
  have link := restartLink_link_eq s
  have dropCount := restartLink_dropCount s
  have plan := restartLink_plan s
  have active := planRestarted_active s.plan
  have other := planRestarted_other s.plan
  have live (l : LaneId) := restartLink_lane_live (l := l) s
  have group := restartLink_group s
  have standing (l : LaneId) (g : GroupId) := restartLink_standing (s := s) (l := l) (g := g)
  have stopped (hs : ∀ l, (s.lane l).state = .stopped → (s.lane l).queue = []) (l : LaneId) :=
    restartLink_lane_stopped hs (l := l)
  have pool := restartLink_poolFree (s := s)
  have records := restartLink_records (s := s)
  obtain ⟨mailbox, tally, ret, test⟩ := restartLink_services s
  have side := restartLink_side s
  have builder := restartLink_builder s
  generalize restartLink s = u at *
  let r : Response := ⟨21, tag, .done, []⟩
  have same (p : Part) (hp : p ≠ .port ∧ p ≠ .responses) : Same p u (answered o r u) :=
    answered_only o r u p (by cases o <;> simp [answerPart, hp])
  have lane (l : LaneId) : (answered o r u).lane l = u.lane l := lane_congr (same .lanes (by decide)) l
  have same_link : (answered o r u).link = u.link := same .link (by decide)
  have same_plan : (answered o r u).plan = u.plan := same .plan (by decide)
  have same_release : (answered o r u).release = u.release := same .release (by decide)
  have same_sides : (answered o r u).sides = u.sides := same .sides (by decide)
  have recorded (hs : ∀ l, (s.lane l).state = .stopped → (s.lane l).queue = []) {es : List (EventKind × Nat × Nat)}
      (hes : restartEvents s = es) :
      SameRecords (State.each (cutCounted s) laneIds (raiseAll es (queuesEmptied s))) (answered o r u) := by
    obtain ⟨events, notices, counters⟩ := hes ▸ records hs
    exact ⟨Eq.trans (same .events (by decide)) events, Eq.trans (same .notices (by decide)) notices,
      Eq.trans (same .counters (by decide)) counters⟩
  refine ⟨answered o r u, row, ?_, ?_, ?_, Eq.trans (same .announce (by decide)) announce,
    Eq.trans (same .relayOut (by decide)) relayOut, ?_, fun drop => ?_, fun rests => ?_,
    fun l hl => (lane l).trans (live l hl), fun hs => ⟨fun l hl => (lane l).trans (stopped hs l hl), ?_, fun drop => ?_,
      fun rests => ?_⟩, fun g => ?_, fun l g member => ?_, Eq.trans (same .builder (by decide)) builder, ?_, ?_, ?_, ?_, ?_,
    ?_, ?_, ?_, Eq.trans (same .mailbox (by decide)) mailbox, fun i => ?_, Eq.trans (same .tally (by decide)) tally,
    Eq.trans (same .ret (by decide)) ret, Eq.trans (same .test (by decide)) test⟩
  · refine (only.mono ?_).trans ((answered_only o r u).mono ?_) <;> cases o <;> decide
  · rintro rfl
    exact ⟨rfl, responses⟩
  · rintro rfl
    change u.control.responses ++ [r] = [r]
    rw [responses, List.nil_append]
  · rw [same_link]; exact link
  · rw [same_link, dropCount, if_pos (carrying.mpr drop)]
  · rw [same_link, dropCount, if_neg (mt carrying.mp rests)]
  · rw [← pool hs]; exact same .poolFree (by decide)
  · refine recorded hs ?_
    rw [restartEvents, if_pos (carrying.mpr drop)]
    rfl
  · refine recorded hs ?_
    rw [restartEvents, if_neg (mt carrying.mp rests)]
    rfl
  · rw [State.group, same_release]; exact group g
  · rw [State.standing, same_release]; exact standing l g (mem_members.mp member)
  · rw [same_plan, plan]; rfl
  · rw [same_plan, plan]; rfl
  · rw [same_plan, plan]; rfl
  · rw [same_plan, plan]
  · rw [same_plan, plan]
  · rw [same_plan, plan, buildsFrame_eq]
  · rw [same_plan, plan]
    refine Eq.trans ?_ active
    cases activeId s.plan <;> rfl
  · rw [same_plan, plan]
    refine Eq.trans ?_ other
    cases otherId s.plan <;> rfl
  · rw [State.side, same_sides]; exact side i

end Sys2Proof.Proofs

/-! # Proofs: the reference tick

What a reference tick does to the supervision of the link, to the silence counts and to the tally: the frame event first, then the
verdict of the period, then the lanes and the lamps (R8, R80, R136, R149, R159). -/

namespace Sys2Proof.Proofs

open Sys2Proof.Machine Sys2Proof.Claims

variable {s t u : State} {l k : LaneId}

/-! ### The frame event -/

/-- The verdict of the period, the supervision of the link and the note of a loss are the same in two states, and the link is in
the same state, or has gone from TRAIN_SWITCH to UP. -/
structure Supervised (s t : State) : Prop where
  period : t.rx.period = s.rx.period
  upValid : t.rx.upValid = s.rx.upValid
  lossTaken : t.plan.lossTaken = s.plan.lossTaken
  supervision : t.link.supervision = s.link.supervision
  criteria : t.link.criteria = s.link.criteria
  dropCount : t.link.dropCount = s.link.dropCount
  state : t.link.state = s.link.state ∨ (s.link.state = .trainSwitch ∧ t.link.state = .up)

theorem Supervised.trans (h : Supervised s t) (k : Supervised t u) : Supervised s u where
  period := k.period.trans h.period
  upValid := k.upValid.trans h.upValid
  lossTaken := k.lossTaken.trans h.lossTaken
  supervision := k.supervision.trans h.supervision
  criteria := k.criteria.trans h.criteria
  dropCount := k.dropCount.trans h.dropCount
  state := by
    obtain hs | ⟨train, up⟩ := h.state <;> obtain ks | ⟨train', up'⟩ := k.state
    · exact .inl (ks.trans hs)
    · exact .inr ⟨hs.symm.trans train', up'⟩
    · exact .inr ⟨train, ks.trans up⟩
    · rw [up] at train'; cases train'

theorem supervised_of_eq (hr : t.rx.period = s.rx.period ∧ t.rx.upValid = s.rx.upValid)
    (hp : t.plan.lossTaken = s.plan.lossTaken) (hl : t.link = s.link) : Supervised s t :=
  ⟨hr.1, hr.2, hp, by rw [hl], by rw [hl], by rw [hl], .inl (by rw [hl])⟩

theorem Supervised.refl (s : State) : Supervised s s := supervised_of_eq ⟨rfl, rfl⟩ rfl rfl

theorem supervised_of_only {ps : List Part} (h : OnlyChanges ps s t)
    (hp : ∀ p ∈ [Part.rx, .plan, .link], p ∉ ps := by decide) : Supervised s t := by
  have rx : t.rx = s.rx := h .rx (hp _ (by decide))
  have plan : t.plan = s.plan := h .plan (hp _ (by decide))
  exact supervised_of_eq ⟨by rw [rx], by rw [rx]⟩ (by rw [plan]) (h .link (hp _ (by decide)))

theorem supervised_modPlan (f : PlanStore → PlanStore) (hf : (f s.plan).lossTaken = s.plan.lossTaken) :
    Supervised s (s.modPlan f) := supervised_of_eq ⟨rfl, rfl⟩ hf rfl

theorem supervised_modLink (f : LinkCtl → LinkCtl) (hf : ((f s.link).supervision = s.link.supervision ∧
    (f s.link).criteria = s.link.criteria ∧ (f s.link).dropCount = s.link.dropCount) ∧
    ((f s.link).state = s.link.state ∨ (s.link.state = .trainSwitch ∧ (f s.link).state = .up))) :
    Supervised s (s.modLink f) := ⟨rfl, rfl, rfl, hf.1.1, hf.1.2.1, hf.1.2.2, hf.2⟩

theorem supervised_ite {c : Prop} [Decidable c] {a b : State} (ha : Supervised s a) (hb : Supervised s b) :
    Supervised s (if c then a else b) := by
  split
  · exact ha
  · exact hb

theorem startEcho_supervised (s : State) : Supervised s (startEcho s) := supervised_modPlan _ rfl
theorem stopEcho_supervised (s : State) : Supervised s (stopEcho s) := supervised_modPlan _ rfl

theorem countdownTick_supervised (s : State) : Supervised s (countdownTick s) :=
  supervised_ite (.refl s) (supervised_ite (supervised_modPlan _ rfl) (supervised_modPlan _ rfl))

theorem bankSet_lossTaken (p : PlanStore) (b : BankId) (v : Bank) : (bankSet p b v).lossTaken = p.lossTaken := by
  cases b <;> rfl

theorem takeSwitch_supervised (s : State) : Supervised s (takeSwitch s) := by
  have switched (f : PlanStore → PlanStore) (hf : (f s.plan).lossTaken = s.plan.lossTaken) (h : Builder → Builder)
      (ls : List LaneId) (e : EventKind) (a b : Nat) :
      Supervised s ((State.each discardReleased ls ((s.modPlan f).modBuilder h)).raise e a b) :=
    (((supervised_modPlan f hf).trans (supervised_of_only (modBuilder_only h _))).trans
      (supervised_of_only (each_only discardReleased_only ls _))).trans (supervised_of_only (raise_only e a b _))
  have banks (v w : Bank) : (bankSet (bankSet s.plan (otherId s.plan) v) (activeId s.plan) w).lossTaken =
      s.plan.lossTaken := by rw [bankSet_lossTaken, bankSet_lossTaken]
  unfold takeSwitch
  cases s.plan.due with
  | none => exact .refl s
  | some d =>
    exact supervised_ite
      ((supervised_ite ((switched _ (banks _ _) _ _ _ _ _).trans (supervised_of_only (announceInForce_only _)))
        (switched _ (banks _ _) _ _ _ _ _)).trans (startEcho_supervised _))
      ((switched _ (banks _ _) _ _ _ _ _).trans (stopEcho_supervised _))

theorem proposalToNone_supervised (b : Bool) (s : State) : Supervised s (proposalToNone b s) := by
  have idle : Supervised s (s.modLink fun c => { c with proposal := .idle }) :=
    supervised_modLink _ ⟨⟨rfl, rfl, rfl⟩, .inl rfl⟩
  have timed (f : Timers → Timers) (v : State) : Supervised v (v.modTimers f) :=
    ⟨rfl, rfl, rfl, rfl, rfl, rfl, .inl rfl⟩
  exact supervised_ite (idle.trans (timed _ _)) (idle.trans (timed _ _))

theorem applyDueClass_supervised (s : State) : Supervised s (applyDueClass s) := by
  unfold applyDueClass
  split
  · exact ((supervised_modLink _ ⟨⟨rfl, rfl, rfl⟩, .inl rfl⟩).trans (supervised_of_only (raise_only _ _ _ _))).trans
      (proposalToNone_supervised true _)
  · exact .refl s

theorem prepareUp_supervised (switched : Bool) (s : State) : Supervised s (prepareUp switched s) := by
  have applied : Supervised s ((applyDueClass s).modBuilder fun b =>
      { b with classApplied := (applyDueClass s).link.classInForce }) :=
    (applyDueClass_supervised s).trans (supervised_of_only (modBuilder_only _ _))
  unfold prepareUp
  exact (supervised_ite (applied.trans (supervised_of_only (assess_only _))) applied).trans
    (supervised_of_only (modBuilder_only _ _))

theorem classCountTick_supervised (s : State) : Supervised s (classCountTick s) := by
  unfold classCountTick
  split
  · exact supervised_modLink _ ⟨⟨rfl, rfl, rfl⟩, .inl rfl⟩
  · exact .refl s

theorem echoExpire_supervised (repeats : Nat) (last : Option Byte) (s : State) :
    Supervised s (echoExpire repeats last s) := by
  have announced : Supervised s (announceInForce s) := supervised_of_only (announceInForce_only s)
  have lagging : Supervised (announceInForce s)
      ((announceInForce s).modPlan fun p => { p with baseStanding := .lagging }) := supervised_modPlan _ rfl
  unfold echoExpire
  exact (supervised_ite ((announced.trans lagging).trans (supervised_of_only (raise_only _ _ _ _))) announced).trans
    (supervised_modPlan _ rfl)

theorem echoTick_supervised (s : State) : Supervised s (echoTick s) := by
  unfold echoTick
  split
  · exact .refl s
  · exact supervised_ite (echoExpire_supervised _ _ s) (supervised_modPlan _ rfl)

theorem handOverUp_supervised (switched : Bool) (s : State) : Supervised s (handOverUp switched s) := by
  have counted : Supervised s
      (auxLeave ((classCountTick (countdownTick s)).modLink fun c => { c with pendingRefusal := false })) :=
    (((countdownTick_supervised s).trans (classCountTick_supervised _)).trans
      (supervised_modLink _ ⟨⟨rfl, rfl, rfl⟩, .inl rfl⟩)).trans (supervised_of_only (auxLeave_only _))
  unfold handOverUp
  exact supervised_ite counted (counted.trans (echoTick_supervised _))

theorem handToLine_supervised (f : Frame) (s : State) : Supervised s (handToLine f s) :=
  supervised_of_eq ⟨rfl, rfl⟩ rfl rfl

theorem carriageFrame_supervised (switched : Bool) (s : State) : Supervised s (carriageFrame switched s) := by
  unfold carriageFrame
  exact ((((prepareUp_supervised _ s).trans (supervised_of_only (fill_only _))).trans
    (supervised_of_only (chooseCell_only _))).trans (handToLine_supervised _ _)).trans (handOverUp_supervised _ _)

theorem enterUp_supervised (h : s.link.state = .trainSwitch) : Supervised s (enterUp s) := by
  unfold enterUp
  exact ((((supervised_modLink _ ⟨⟨rfl, rfl, rfl⟩, .inr ⟨h, rfl⟩⟩).trans (supervised_of_only (modBuilder_only _ _))).trans
    (supervised_of_only (raise_only _ _ _ _))).trans (supervised_of_only (announceInForce_only _))).trans
    (startEcho_supervised _)

theorem trainTick_supervised (h : s.link.state = .trainSwitch) : Supervised s (trainTick s) :=
  supervised_ite (enterUp_supervised h) (supervised_modLink _ ⟨⟨rfl, rfl, rfl⟩, .inl rfl⟩)

/-- A training frame as it is sent, before the training switch counts it (R131 to R133). -/
theorem trainingFrame_sent (s : State) : ∃ u, Supervised s u ∧ u.link = s.link ∧
    trainingFrame s = if u.link.state = .trainSwitch then trainTick u else u := by
  have sent (f : Frame) : Supervised s (countdownTick (handToLine f (chooseCell s).2)) ∧
      (countdownTick (handToLine f (chooseCell s).2)).link = s.link := by
    refine ⟨((supervised_of_only (chooseCell_only s)).trans (handToLine_supervised f _)).trans
      (countdownTick_supervised _), ?_⟩
    exact Eq.trans (countdownTick_only (handToLine f (chooseCell s).2) .link (by decide))
      (chooseCell_only s .link (by decide))
  exact ⟨_, (sent _).1, (sent _).2, rfl⟩

theorem trainingFrame_supervised (s : State) : Supervised s (trainingFrame s) := by
  obtain ⟨u, hu, -, eq⟩ := trainingFrame_sent s
  rw [eq]
  split
  · exact hu.trans (trainTick_supervised ‹_›)
  · exact hu

theorem trainingFrame_link (h : s.link.state ≠ .trainSwitch) : (trainingFrame s).link = s.link := by
  obtain ⟨u, -, link, eq⟩ := trainingFrame_sent s
  rw [eq, if_neg (by rwa [link]), link]

theorem testFrame_kept (s : State) : Supervised s (testFrame s) ∧ (testFrame s).link = s.link := by
  have chosen (f : TestUnit → TestUnit) : Supervised s ((chooseCell s).2.modTest f) ∧
      ((chooseCell s).2.modTest f).link = s.link :=
    ⟨(supervised_of_only (chooseCell_only s)).trans (supervised_of_only (modTest_only f _)),
      chooseCell_only s .link (by decide)⟩
  have counted (v : State) (hv : Supervised s v ∧ v.link = s.link) :
      Supervised s (countdownTick v) ∧ (countdownTick v).link = s.link :=
    ⟨hv.1.trans (countdownTick_supervised v), Eq.trans (countdownTick_only v .link (by decide)) hv.2⟩
  unfold testFrame
  refine counted _ ?_
  split
  · exact ⟨(chosen _).1.trans (supervised_of_only (each_only checkSlot_only _ _)),
      Eq.trans (each_only checkSlot_only _ _ .link (by decide)) (chosen _).2⟩
  · exact ⟨(chosen _).1.trans (handToLine_supervised _ _), chooseCell_only s .link (by decide)⟩

theorem takeSwitch_countFrame_link (s : State) : (takeSwitch (countFrame s)).link = s.link :=
  Eq.trans (takeSwitch_only (countFrame s) .link (by decide)) (countFrame_only s .link (by decide))

theorem frameEvent_supervised (s : State) : Supervised s (frameEvent s) := by
  have switched : Supervised s (takeSwitch (countFrame s)) :=
    (supervised_of_only (countFrame_only s)).trans (takeSwitch_supervised _)
  unfold frameEvent
  simp only
  split
  · exact switched.trans (carriageFrame_supervised _ _)
  · exact switched.trans (trainingFrame_supervised _)
  · exact switched.trans (trainingFrame_supervised _)
  · exact switched.trans (trainingFrame_supervised _)
  · exact switched.trans (testFrame_kept _).1
  · exact switched
  · exact switched

/-- Outside TRAIN_SWITCH and UP a frame event leaves the link as it is. -/
theorem frameEvent_link (h : supervisedState s.link.state = false) : (frameEvent s).link = s.link := by
  have link := takeSwitch_countFrame_link s
  have outside (c : LinkState) (hc : supervisedState c = true) : (takeSwitch (countFrame s)).link.state ≠ c := by
    rintro rfl
    rw [link, h] at hc
    cases hc
  unfold frameEvent
  simp only
  split
  · exact absurd ‹_› (outside .up rfl)
  · exact (trainingFrame_link (outside .trainSwitch rfl)).trans link
  · exact (trainingFrame_link (outside .trainSwitch rfl)).trans link
  · exact absurd ‹_› (outside .trainSwitch rfl)
  · exact (testFrame_kept _).2.trans link
  · exact link
  · exact link

/-! ### The verdict -/

theorem superviseWith_eq_judged (hp : u.rx.period = s.rx.period) (hs : u.link.supervision = s.link.supervision) :
    superviseWith u.rx.period u.link.supervision = judged s := by
  rw [hp, hs, judged]
  cases s.rx.period <;> rfl

/-- The first criterion met, in the order SYNC, BEACON, BURST (R136). -/
theorem criterionMet_judged [Decidable (SyncMet s)] [Decidable (BeaconMet s)] [Decidable (BurstMet s)] :
    criterionMet s.link.criteria (judged s) =
      if SyncMet s then some .sync else if BeaconMet s then some .beacon else if BurstMet s then some .burst else none := by
  unfold criterionMet
  congr

theorem takeVerdict_none (h : criterionMet u.link.criteria (superviseWith u.rx.period u.link.supervision) = none) :
    takeVerdict u.rx.period u =
      u.modLink fun c => { c with supervision := superviseWith u.rx.period c.supervision } := by
  unfold takeVerdict
  simp only [modLink_link, h]

theorem takeVerdict_some {cause : Cause}
    (h : criterionMet u.link.criteria (superviseWith u.rx.period u.link.supervision) = some cause) :
    takeVerdict u.rx.period u = dropToDown cause
      (u.modLink fun c => { c with supervision := superviseWith u.rx.period c.supervision }) := by
  unfold takeVerdict
  simp only [modLink_link, h]

/-- The MISSING count follows the verdict (R149, log 28). -/
theorem superviseTick_eq (s : State) : superviseTick s =
    if s.rx.period = .empty then (takeVerdict s.rx.period s).bump (.link .framesMissing)
    else takeVerdict s.rx.period s := rfl

/-! ### A drop -/

/-- The loss of the link for the other blocks (R63, R121, R153). -/
theorem lossOfLink_noted (s : State) : (lossOfLink s).plan.lossTaken = true ∧ (lossOfLink s).control.announce = [] ∧
    (lossOfLink s).control.relayOut = [] := by
  let v := stopEcho ((noteLoss (planLoss s)).modControl fun c => { c with announce := [] })
  have last : lossOfLink s = discardRelayOut v := rfl
  have only := discardRelayOut_only v
  have plan : (discardRelayOut v).plan = v.plan := only .plan (by decide)
  have announce : (discardRelayOut v).control.announce = v.control.announce := only .announce (by decide)
  rw [last, plan, announce]
  refine ⟨rfl, rfl, ?_⟩
  unfold discardRelayOut
  simp only
  split
  · exact List.eq_nil_of_length_eq_zero ‹_›
  · exact raise_only _ _ _ _ .relayOut (by decide)

theorem dropToDown_link (cause : Cause) (s : State) : (dropToDown cause s).link.state = .down ∧
    (dropToDown cause s).link.lastCause = cause ∧
    (dropToDown cause s).link.dropCount = min 65535 (s.link.dropCount + 1) := by
  have last : (dropToDown cause s).link = (enterDown (recordDrop cause s)).link :=
    lossOfLink_only _ .link (by decide)
  have recorded : (recordDrop cause s).link =
      { s.link with lastCause := cause, dropCount := min 65535 (s.link.dropCount + 1) } :=
    raise_only _ _ _ _ .link (by decide)
  rw [last, enterDown, modLink_link, recorded]
  exact ⟨rfl, rfl, rfl⟩

/-- A drop counts nothing but, where one is lost, a notice. -/
theorem counter_dropToDown {id : CounterId} (h : id ≠ .link .noticesLost) (cause : Cause) (s : State) :
    (dropToDown cause s).counter id = s.counter id := by
  have freed (u : State) : (freeHold u).counter id = u.counter id := counter_of_only (freeHold_only u) id
  have cleared (u : State) : (clearCountdown u).counter id = u.counter id := counter_of_only (clearCountdown_only u) id
  have lost (u : State) : (planLoss u).counter id = u.counter id := by
    unfold planLoss
    split
    · rfl
    · rfl
    · rw [counter_raise h, freed]
    · split
      · split
        · rw [counter_raise h]; exact cleared u
        · rw [counter_raise h, counter_raise h, freed, cleared]
      · rfl
  have discarded (u : State) : (discardRelayOut u).counter id = u.counter id := by
    unfold discardRelayOut
    simp only
    split
    · rfl
    · rw [counter_raise h]; rfl
  have loss (u : State) : (lossOfLink u).counter id = u.counter id := (discarded _).trans (lost u)
  have recorded : (recordDrop cause s).counter id = s.counter id := by rw [recordDrop, counter_raise h]; rfl
  rw [dropToDown, loss]
  exact recorded

theorem counter_takeVerdict {id : CounterId} (h : id ≠ .link .noticesLost) (p : Period) (s : State) :
    (takeVerdict p s).counter id = s.counter id := by
  unfold takeVerdict
  simp only
  split
  · rfl
  · rw [counter_dropToDown h]; rfl

/-! ### The lanes -/

/-- What a lane's state and silence count become at a tick (R8). -/
def ticked : LaneState × Nat → LaneState × Nat
  | (.running, n) => if 7 ≤ n then (.faulted, 8) else (.running, n + 1)
  | (v, n) => (v, n)

theorem ticked_idle {v : LaneState} (h : v ≠ .running) (n : Nat) : ticked (v, n) = (v, n) := by
  cases v <;> first | rfl | exact absurd rfl h

/-- A fault of a lane leaves the states and the silence counts of the others. -/
theorem faultLane_other (hk : k ≠ l) (d : Nat) (s : State) :
    ∃ q, (faultLane d l s).lane k = { s.lane k with queue := q } := by
  have fallen_other : (fallen l s).lane k = s.lane k := by
    rw [fallen, lane_congr (lagQuietly_only l _ .lanes (by decide)), lane_setLane_other hk]
  have handed (z : State) (kept : Bool) (hz : z.lane k = s.lane k) :
      ∃ q, (faultHandedOver kept l (faultRaised d l z)).lane k = { s.lane k with queue := q } := by
    have raised : (faultRaised d l z).lane k = s.lane k := by
      rw [faultRaised, (raise_recording _ _ _).lane, lane_setLane_other hk, hz]
    exact ⟨_, by rw [(faultHandedOver_thins kept l _).with_queue, raised]⟩
  cases h : (s.lane l).assembly with
  | betweenLines => rw [faultLane_between h]; exact handed _ _ fallen_other
  | assembling p e =>
    rw [faultLane_closes h]
    exact handed _ _ (((closeTruncated_assembles e _).others k hk).trans fallen_other)

theorem counter_faultLane {c : LinkCounter} (hc : c ≠ .noticesLost) (d : Nat) (l : LaneId) (s : State) :
    (faultLane d l s).counter (.link c) = s.counter (.link c) := by
  have same : (fallen l s).counter (.link c) = s.counter (.link c) :=
    Eq.trans (counter_of_only (lagQuietly_only l _) _) rfl
  have handed (z : State) (kept : Bool) (hz : z.counter (.link c) = s.counter (.link c)) :
      (faultHandedOver kept l (faultRaised d l z)).counter (.link c) = s.counter (.link c) := by
    rw [(faultHandedOver_thins kept l _).counter c hc, faultRaised, counter_raise (by simpa using hc)]
    exact hz
  cases h : (s.lane l).assembly with
  | betweenLines => rw [faultLane_between h]; exact handed _ _ same
  | assembling p e =>
    rw [faultLane_closes h]
    exact handed _ _ (((closeTruncated_assembles (l := l) e _).feeds.counter c hc).trans same)

/-- What a tick does to a lane: nothing outside a run, a count, or the fault at the eighth (R8). -/
theorem silenceTick_cases (l : LaneId) (s : State) :
    ((s.lane l).state ≠ .running ∧ silenceTick l s = s) ∨
    ((s.lane l).state = .running ∧ (s.lane l).silence < 7 ∧
      silenceTick l s = s.modLane l fun x => { x with silence := x.silence + 1 }) ∨
    ((s.lane l).state = .running ∧ 7 ≤ (s.lane l).silence ∧
      silenceTick l s = faultLane 2 l (s.modLane l fun x => { x with silence := 8 })) := by
  unfold silenceTick silenceExpiry
  by_cases running : (s.lane l).state = .running
  · have run : isRunning s l = true := by simp [isRunning, running]
    by_cases silent : 7 ≤ (s.lane l).silence
    · exact .inr (.inr ⟨running, silent, by rw [if_pos run, if_pos silent, if_pos ⟨run, silent⟩]⟩)
    · exact .inr (.inl ⟨running, Nat.not_le.mp silent, by rw [if_pos run, if_neg silent]⟩)
  · exact .inl ⟨running, if_neg (by simpa [isRunning] using running)⟩

theorem silenceTick_own (l : LaneId) (s : State) :
    (((silenceTick l s).lane l).state, ((silenceTick l s).lane l).silence) =
      ticked ((s.lane l).state, (s.lane l).silence) := by
  obtain ⟨idle, h⟩ | ⟨running, counting, h⟩ | ⟨running, silent, h⟩ := silenceTick_cases l s
  · rw [h, ticked_idle idle]
  · rw [h, lane_modLane_same, running, ticked, if_neg (by omega)]
  · obtain ⟨q, hq⟩ := faultLane_lane 2 l (s.modLane l fun x => { x with silence := 8 })
    rw [h, hq, lane_modLane_same, running, ticked, if_pos silent]

theorem silenceTick_other (k l : LaneId) (s : State) (hk : k ≠ l) :
    (((silenceTick l s).lane k).state, ((silenceTick l s).lane k).silence) = ((s.lane k).state, (s.lane k).silence) := by
  obtain ⟨-, h⟩ | ⟨-, -, h⟩ | ⟨-, -, h⟩ := silenceTick_cases l s
  · rw [h]
  · rw [h, lane_modLane_other l k _ s hk]
  · obtain ⟨q, hq⟩ := faultLane_other hk 2 (s.modLane l fun x => { x with silence := 8 })
    rw [h, hq, lane_modLane_other l k _ s hk]

theorem counter_silenceTick {c : LinkCounter} (hc : c ≠ .noticesLost) (l : LaneId) (s : State) :
    (silenceTick l s).counter (.link c) = s.counter (.link c) := by
  obtain ⟨-, h⟩ | ⟨-, -, h⟩ | ⟨-, -, h⟩ := silenceTick_cases l s
  · rw [h]
  · rw [h]; rfl
  · rw [h, counter_faultLane hc]; rfl

theorem counter_silenceTicks {c : LinkCounter} (hc : c ≠ .noticesLost) (ls : List LaneId) (s : State) :
    (State.each silenceTick ls s).counter (.link c) = s.counter (.link c) := by
  induction ls generalizing s with
  | nil => rfl
  | cons l ls ih => exact (ih _).trans (counter_silenceTick hc l s)

/-! ### The tick -/

/-- The frame event of a tick, with no loss of the link noted yet (R80). -/
def tickFramed (s : State) : State := frameEvent (s.modPlan fun p => { p with lossTaken := false })

/-- The verdict of the period taken, in the states that the link supervises (R136). -/
def tickJudged (s : State) : State :=
  if supervisedState s.link.state then superviseTick (tickFramed s) else tickFramed s

/-- Every lane has counted the tick (R8). -/
def tickSilenced (s : State) : State := State.each silenceTick laneIds (tickJudged s)

/-- The period begins anew (R136, R149). -/
def tickEnded (s : State) : State :=
  { s with rx := { s.rx with period := .empty, upValid := false }, refWatch := .armed }

theorem tickEnded_only (s : State) : OnlyChanges [.rx, .refWatch] s (tickEnded s) := endOfTick_only s

theorem tickEnded_lane (s : State) (l : LaneId) : (tickEnded s).lane l = s.lane l := rfl

theorem tickEnded_tally (s : State) : (tickEnded s).tally = s.tally := rfl

theorem tickEnded_counter (s : State) (id : CounterId) : (tickEnded s).counter id = s.counter id := rfl

theorem tickEnded_period (s : State) : (tickEnded s).rx.period = .empty ∧ (tickEnded s).rx.upValid = false := ⟨rfl, rfl⟩

theorem referenceTick_eq (s : State) : referenceTick s = tickEnded (tallyTick (tickSilenced s)) := rfl

theorem tickFramed_supervised (s : State) :
    Supervised (s.modPlan fun p => { p with lossTaken := false }) (tickFramed s) := frameEvent_supervised _

theorem tickFramed_thins (s : State) : Thins s (tickFramed s) :=
  (thins_of_only (modPlan_only _ s)).trans (frameEvent_thins _)

theorem tickJudged_only (s : State) : OnlyChanges dropParts (tickFramed s) (tickJudged s) := by
  unfold tickJudged
  split
  · exact superviseTick_only _
  · exact .refl _ _

theorem tickSilenced_only (s : State) : OnlyChanges evaluationParts (tickJudged s) (tickSilenced s) :=
  each_only silenceTick_only _ _

/-- After the verdict the tick touches the lanes, the groups, the records, the lamps and the period alone. -/
theorem referenceTick_only_judged (s : State) :
    OnlyChanges (.rx :: .refWatch :: .tally :: evaluationParts) (tickJudged s) (referenceTick s) := by
  rw [referenceTick_eq]
  exact ((tickSilenced_only s).andThen (tallyTick_only _) (rs := .tally :: evaluationParts)).andThen (tickEnded_only _)

theorem referenceTick_lane (s : State) (l : LaneId) :
    (((referenceTick s).lane l).state, ((referenceTick s).lane l).silence) =
      ticked ((s.lane l).state, (s.lane l).silence) := by
  have last : (referenceTick s).lane l = (tickSilenced s).lane l := by
    rw [referenceTick_eq, tickEnded_lane, lane_congr (tallyTick_only (tickSilenced s) .lanes (by decide))]
  have judged : (tickJudged s).lane l = (tickFramed s).lane l := lane_congr (tickJudged_only s .lanes (by decide)) l
  have framed := (tickFramed_thins s).with_queue l
  have silenced := each_lane (f := silenceTick) (view := fun x : Lane => (x.state, x.silence)) silenceTick_own
    silenceTick_other (tickJudged s) l
  rw [last]
  refine silenced.trans ?_
  rw [judged, framed]

theorem referenceTick_counter {c : LinkCounter} (hc : c ≠ .noticesLost) (s : State) :
    (referenceTick s).counter (.link c) = (tickJudged s).counter (.link c) := by
  have last : (referenceTick s).counter (.link c) = (tickSilenced s).counter (.link c) := by
    rw [referenceTick_eq, tickEnded_counter, counter_of_only (tallyTick_only _)]
  rw [last, tickSilenced, counter_silenceTicks hc]

/-- The tally at a tick, by the hold count (R159). -/
theorem referenceTick_tally (s : State) : (referenceTick s).tally =
    if s.rx.upValid = true ∨ s.tally.hold = 0 then s.tally
    else if s.tally.hold = 1 then Tally.reset else { s.tally with hold := s.tally.hold - 1 } := by
  have framed_tally : (tickFramed s).tally = s.tally := frameEvent_only _ .tally (by decide)
  have judged_tally : (tickJudged s).tally = (tickFramed s).tally := tickJudged_only s .tally (by decide)
  have silenced_tally : (tickSilenced s).tally = (tickJudged s).tally := tickSilenced_only s .tally (by decide)
  have judged_rx : (tickJudged s).rx = (tickFramed s).rx := tickJudged_only s .rx (by decide)
  have silenced_rx : (tickSilenced s).rx = (tickJudged s).rx := tickSilenced_only s .rx (by decide)
  have tally : (tickSilenced s).tally = s.tally := by rw [silenced_tally, judged_tally, framed_tally]
  have upValid : (tickSilenced s).rx.upValid = s.rx.upValid := by
    rw [silenced_rx, judged_rx, (tickFramed_supervised s).upValid, modPlan_rx]
  rw [referenceTick_eq, tickEnded_tally, tallyTick, tally, upValid]
  split
  · exact tally
  · split
    · rfl
    · rw [modTally_tally, tally]

theorem supervisedState_iff (c : LinkState) : supervisedState c = true ↔ c = .trainSwitch ∨ c = .up := by
  cases c <;> simp [supervisedState]

/-- Settles O44, by the stages of a tick. -/
theorem countsAreKeptByTheTick : Obligations.CountsAreKeptByTheTick := by
  classical
  intro s live
  have row : exec .referenceTick s = .next (referenceTick s) := by
    rw [exec, execReferenceTick, whenLive, if_neg (by simpa using live)]
  have tally := referenceTick_tally s
  have rest := referenceTick_only_judged s
  have link : (referenceTick s).link = (tickJudged s).link := rest .link (by decide)
  have plan : (referenceTick s).plan = (tickJudged s).plan := rest .plan (by decide)
  have announce : (referenceTick s).control.announce = (tickJudged s).control.announce := rest .announce (by decide)
  have relayOut : (referenceTick s).control.relayOut = (tickJudged s).control.relayOut := rest .relayOut (by decide)
  have counter := referenceTick_counter (c := .framesMissing) (by decide) s
  have framed := tickFramed_supervised s
  have framed_counter := (tickFramed_thins s).counter .framesMissing (by decide)
  obtain ⟨period_anew, upValid_anew⟩ := tickEnded_period (tallyTick (tickSilenced s))
  refine ⟨referenceTick s, row, period_anew, upValid_anew, fun stands => ?_, fun invalid last => ?_, fun n invalid counting => ?_,
    fun l => ?_, ?_⟩
  · rw [tally, if_pos stands]
  · rw [tally, if_neg (by simp [invalid, last]), if_pos last]; rfl
  · rw [tally, if_neg (by simp [invalid, counting]), if_neg (by omega), counting]; rfl
  · have lane := referenceTick_lane s l
    refine ⟨fun idle => ?_, fun running counting => ?_, fun running silent => ?_⟩
    · rw [ticked_idle idle] at lane
      obtain ⟨state, silence⟩ := Prod.mk.inj lane
      exact ⟨silence, state⟩
    · rw [running, ticked, if_neg (by omega)] at lane
      obtain ⟨state, silence⟩ := Prod.mk.inj lane
      exact ⟨silence, state⟩
    · rw [running, ticked, if_pos silent] at lane
      obtain ⟨state, silence⟩ := Prod.mk.inj lane
      exact ⟨silence, state⟩
  · intro supervised drops
    refine ⟨fun idle => ?_, fun watched => ?_⟩
    · have outside : supervisedState s.link.state = false := by
        rw [← Bool.not_eq_true, supervisedState_iff]; exact idle
      have same : tickJudged s = tickFramed s := if_neg (by simp [outside])
      refine ⟨?_, ?_, ?_⟩
      · rw [link, same]
        exact frameEvent_link (s := s.modPlan fun p => { p with lossTaken := false }) outside
      · rw [plan, same, framed.lossTaken]; rfl
      · rw [counter, same, framed_counter]
    · have inside : supervisedState s.link.state = true := (supervisedState_iff _).mpr watched
      have period : (tickFramed s).rx.period = s.rx.period := framed.period
      let verdict := takeVerdict (tickFramed s).rx.period (tickFramed s)
      have judged_eq : tickJudged s = if s.rx.period = .empty then verdict.bump (.link .framesMissing) else verdict := by
        rw [← period]
        exact if_pos inside
      have missing : verdict.counter (.link .framesMissing) = s.counter (.link .framesMissing) :=
        (counter_takeVerdict (by decide) _ _).trans framed_counter
      have only : OnlyChanges [.events, .notices, .counters] verdict (tickJudged s) := by
        rw [judged_eq]
        split
        · exact bump_only _ _
        · exact .refl _ _
      have verdict_link : (tickJudged s).link = verdict.link := only .link (by decide)
      have verdict_plan : (tickJudged s).plan = verdict.plan := only .plan (by decide)
      have verdict_announce : (tickJudged s).control.announce = verdict.control.announce := only .announce (by decide)
      have verdict_relayOut : (tickJudged s).control.relayOut = verdict.control.relayOut := only .relayOut (by decide)
      have counts : superviseWith (tickFramed s).rx.period (tickFramed s).link.supervision = judged s :=
        superviseWith_eq_judged period framed.supervision
      have met : criterionMet (tickFramed s).link.criteria
          (superviseWith (tickFramed s).rx.period (tickFramed s).link.supervision) =
          if SyncMet s then some .sync else if BeaconMet s then some .beacon
          else if BurstMet s then some .burst else none := by
        rw [counts, framed.criteria, modPlan_link]
        exact criterionMet_judged (s := s)
      have dropped (cause : Cause) (h : criterionMet (tickFramed s).link.criteria
          (superviseWith (tickFramed s).rx.period (tickFramed s).link.supervision) = some cause) : drops cause := by
        let v := (tickFramed s).modLink fun c =>
          { c with supervision := superviseWith (tickFramed s).rx.period c.supervision }
        have drop : verdict = dropToDown cause v := takeVerdict_some h
        obtain ⟨state, lastCause, dropCount⟩ := dropToDown_link cause v
        obtain ⟨taken, no_announce, no_relay⟩ := lossOfLink_noted (enterDown (recordDrop cause v))
        refine ⟨?_, ?_, ?_, ?_, ?_, ?_⟩
        · rw [link, verdict_link, drop, state]
        · rw [link, verdict_link, drop, lastCause]
        · rw [link, verdict_link, drop, dropCount]
          exact congrArg (fun n => min 65535 (n + 1)) framed.dropCount
        · rw [announce, verdict_announce, drop]; exact no_announce
        · rw [relayOut, verdict_relayOut, drop]; exact no_relay
        · rw [plan, verdict_plan, drop]; exact taken
      refine ⟨fun empty => ?_, fun arrived => ?_, fun sync => ?_, fun no_sync beacon => ?_,
        fun no_sync no_beacon burst => ?_, fun no_sync no_beacon no_burst => ?_⟩
      · rw [counter, judged_eq, if_pos empty, counter_bump_same (by decide), missing]
      · rw [counter, judged_eq, if_neg arrived, missing]
      · exact dropped .sync (met.trans (if_pos sync))
      · exact dropped .beacon (by rw [met, if_neg no_sync, if_pos beacon])
      · exact dropped .burst (by rw [met, if_neg no_sync, if_neg no_beacon, if_pos burst])
      · have stands : verdict = (tickFramed s).modLink fun c =>
            { c with supervision := superviseWith (tickFramed s).rx.period c.supervision } :=
          takeVerdict_none (by rw [met, if_neg no_sync, if_neg no_beacon, if_neg no_burst])
        refine ⟨?_, ?_, ?_⟩
        · rw [link, verdict_link, stands]; exact framed.state
        · rw [plan, verdict_plan, stands]; exact framed.lossTaken
        · rw [link, verdict_link, stands]; exact counts

end Sys2Proof.Proofs

/-! # Proofs: bytes, numbers and samples

What a byte, a two-byte field and a sample are as numbers. The statements about the formats read bytes as numbers; these
are the rules that take them from one to the other. -/

namespace Sys2Proof.Proofs

open Sys2Proof.Machine Sys2Proof.Claims

/-! ### Numbers -/

theorem toNat_append_eq {m n : Nat} (x : BitVec m) (y : BitVec n) : (x ++ y).toNat = x.toNat * 2 ^ n + y.toNat := by
  rw [BitVec.toNat_append, ← Nat.shiftLeft_add_eq_or_of_lt y.isLt, Nat.shiftLeft_eq]

theorem toNat_extractLsb'_eq {m : Nat} (x : BitVec m) (start len : Nat) :
    (x.extractLsb' start len).toNat = x.toNat / 2 ^ start % 2 ^ len := by
  rw [BitVec.extractLsb'_toNat, Nat.shiftRight_eq_div_pow]

theorem getLsbD_eq_decide {m : Nat} (x : BitVec m) (i : Nat) : x.getLsbD i = decide (x.toNat / 2 ^ i % 2 = 1) := by
  rw [BitVec.getLsbD, Nat.testBit_eq_decide_div_mod_eq]

@[simp] theorem toNat_byteOf (n : Nat) : (byteOf n).toNat = n % 256 := BitVec.toNat_ofNat ..

theorem toNat_byteOf_of_lt {n : Nat} (h : n < 256) : (byteOf n).toNat = n := by
  rw [toNat_byteOf, Nat.mod_eq_of_lt h]

theorem byteOf_toNat (b : Byte) : byteOf b.toNat = b := BitVec.ofNat_toNat ..

theorem toNat_wordAt (bytes : List Byte) (i : Nat) : (wordAt bytes i).toNat = at2 bytes i := by
  have joined : (wordAt bytes i).toNat = at1 bytes i * 2 ^ 8 + at1 bytes (i + 1) := toNat_append_eq ..
  rw [joined, at2]
  omega

theorem wordBytes_eq_two (w : Word16) : wordBytes w = two w.toNat := by
  have high : highByte w = byteOf (w.toNat / 256) :=
    BitVec.eq_of_toNat_eq ((toNat_extractLsb'_eq ..).trans (toNat_byteOf _).symm)
  have low : lowByte w = byteOf w.toNat := by
    refine BitVec.eq_of_toNat_eq ((toNat_extractLsb'_eq ..).trans ?_)
    rw [toNat_byteOf, Nat.pow_zero, Nat.div_one]
    rfl
  rw [wordBytes, high, low]
  rfl

theorem bytes2_eq_two (n : Nat) : bytes2 n = two n := by
  have word : (wordOf n).toNat = n % 65536 := BitVec.toNat_ofNat ..
  have high : byteOf (n % 65536 / 256) = byteOf (n / 256) := BitVec.eq_of_toNat_eq (by simp only [toNat_byteOf]; omega)
  have low : byteOf (n % 65536) = byteOf n := BitVec.eq_of_toNat_eq (by simp only [toNat_byteOf]; omega)
  rw [bytes2, wordBytes_eq_two, word, two, high, low]
  rfl

@[simp] theorem length_two (n : Nat) : (two n).length = 2 := rfl

theorem joinBytes_highByte_lowByte (w : Word16) : joinBytes (highByte w) (lowByte w) = w := by
  have bound : w.toNat < 65536 := w.isLt
  refine BitVec.eq_of_toNat_eq ?_
  rw [joinBytes, highByte, lowByte, toNat_append_eq, toNat_extractLsb'_eq, toNat_extractLsb'_eq]
  omega

/-- A word sent after some bytes reads back at its place. -/
theorem wordAt_length_append (bytes : List Byte) (w : Word16) (rest : List Byte) :
    wordAt (bytes ++ wordBytes w ++ rest) bytes.length = w := by
  have first : byteAt (bytes ++ wordBytes w ++ rest) bytes.length = highByte w := by
    simp [byteAt, wordBytes, List.getD_eq_getElem?_getD]
  have second : byteAt (bytes ++ wordBytes w ++ rest) (bytes.length + 1) = lowByte w := by
    simp [byteAt, wordBytes, List.getD_eq_getElem?_getD]
  rw [wordAt, first, second, joinBytes_highByte_lowByte]

/-! ### Bytes of a part -/

theorem byteAt_slice (bytes : List Byte) {start len i : Nat} (h : i < len) :
    byteAt (slice bytes start len) i = byteAt bytes (start + i) := by
  simp only [byteAt, slice, List.getD_eq_getElem?_getD, List.getElem?_take, h, if_true, List.getElem?_drop]

theorem wordAt_slice (bytes : List Byte) {start len i : Nat} (h : i + 1 < len) :
    wordAt (slice bytes start len) i = wordAt bytes (start + i) := by
  rw [wordAt, byteAt_slice bytes (by omega), byteAt_slice bytes h]
  rfl

theorem slice_slice (bytes : List Byte) {start len start' len' : Nat} (h : start' + len' ≤ len) :
    slice (slice bytes start len) start' len' = slice bytes (start + start') len' := by
  rw [slice, slice, slice, List.drop_take, List.drop_drop, List.take_take, Nat.min_eq_left (by omega)]

theorem length_slice {bytes : List Byte} {start len : Nat} (h : start + len ≤ bytes.length) :
    (slice bytes start len).length = len := by
  rw [slice, List.length_take, List.length_drop]
  omega

/-! ### Samples -/

theorem length_unpackSamples (n : Nat) (bytes : List Byte) (h : bytes.length = 3 * n) :
    (unpackSamples bytes).length = 2 * n := by
  induction n generalizing bytes with
  | zero => rw [List.length_eq_zero_iff.1 h]; rfl
  | succ n ih =>
    match bytes, h with
    | p :: q :: r :: rest, h =>
      have := ih rest (by simp only [List.length_cons] at h; omega)
      simp only [unpackSamples, List.length_cons]
      omega

/-- The two samples in three bytes. -/
theorem getElem?_unpackSamples (k : Nat) (bytes : List Byte) (h : 3 * k + 3 ≤ bytes.length) :
    (unpackSamples bytes)[2 * k]? = some (byteAt bytes (3 * k) ++ (byteAt bytes (3 * k + 1)).extractLsb' 4 4) ∧
      (unpackSamples bytes)[2 * k + 1]? =
        some ((byteAt bytes (3 * k + 1)).extractLsb' 0 4 ++ byteAt bytes (3 * k + 2)) := by
  induction k generalizing bytes with
  | zero =>
    match bytes, h with
    | p :: q :: r :: rest, _ => exact ⟨rfl, rfl⟩
  | succ k ih =>
    match bytes, h with
    | p :: q :: r :: rest, h => exact ih rest (by simp only [List.length_cons] at h; omega)

/-- The 256 samples of a tile stand in 384 bytes. -/
theorem samplesAt_unpackSamples {bytes : List Byte} {start : Nat} (h : start + 384 ≤ bytes.length) :
    SamplesAt bytes start (unpackSamples (slice bytes start 384)) := by
  have len := length_slice h
  refine ⟨length_unpackSamples 128 _ len, fun k x y hk hx hy => ?_⟩
  obtain ⟨first, second⟩ := getElem?_unpackSamples k (slice bytes start 384) (by omega)
  rw [first, Option.some_inj] at hx
  rw [second, Option.some_inj] at hy
  rw [← hx, ← hy, byteAt_slice bytes (by omega), byteAt_slice bytes (by omega), byteAt_slice bytes (by omega)]
  simp only [toNat_append_eq, toNat_extractLsb'_eq]
  have bound : (byteAt bytes (start + (3 * k + 1))).toNat < 256 := (byteAt bytes _).isLt
  have high : at1 bytes (start + 3 * k) = (byteAt bytes (start + 3 * k)).toNat := rfl
  have mid : at1 bytes (start + 3 * k + 1) = (byteAt bytes (start + (3 * k + 1))).toNat := rfl
  have low : at1 bytes (start + 3 * k + 2) = (byteAt bytes (start + (3 * k + 2))).toNat := rfl
  rw [high, mid, low]
  omega

theorem packSamples_replicate (n : Nat) : packSamples (List.replicate (2 * n) 0) = List.replicate (3 * n) 0 := by
  induction n with
  | zero => rfl
  | succ n ih => exact congrArg (fun rest => (0 : Byte) :: 0 :: 0 :: rest) ih

end Sys2Proof.Proofs

/-! # Proofs: the checks of R180

A check register is stepped bit by bit; the bits are those of the bytes, each most significant first. -/

namespace Sys2Proof.Proofs

open Sys2Proof.Machine Sys2Proof.Claims

/-! ### One bit -/

/-- A shift, and the generator exclusive-ored in where the highest stage differs from the bit, feeds that bit. -/
theorem fed_of_generator {n : Nat} {generator : BitVec n} {terms : List Nat}
    (hterms : ∀ k, k < n → generator.getLsbD k = decide (k ∈ terms)) (r : BitVec n) (bit : Bool) :
    Fed terms r bit (if r.getLsbD (n - 1) != bit then (r <<< 1) ^^^ generator else r <<< 1) := by
  intro k hk
  have shifted : (r <<< 1).getLsbD k = (decide (0 < k) && r.getLsbD (k - 1)) := by
    rw [BitVec.getLsbD_shiftLeft]
    cases k <;> simp [hk]
  by_cases differ : (r.getLsbD (n - 1) != bit) = true
  · have fed : (r.getLsbD (n - 1) ^^ bit) = true := differ
    rw [if_pos differ, BitVec.getLsbD_xor, shifted, hterms k hk, fed, Bool.and_true]
  · have fed : (r.getLsbD (n - 1) ^^ bit) = false := Bool.eq_false_iff.2 differ
    rw [if_neg differ, shifted, fed, Bool.and_false, Bool.xor_false]

theorem fed_crc16Bit (r : Word16) (bit : Bool) : Fed [0, 5, 12] r bit (crc16Bit r bit) :=
  fed_of_generator (by decide) r bit

theorem fed_crc32Bit (r : BitVec 32) (bit : Bool) :
    Fed [0, 1, 2, 4, 5, 7, 8, 10, 11, 12, 16, 22, 23, 26] r bit (crc32Bit r bit) :=
  fed_of_generator (by decide) r bit

/-! ### The bits of a sequence of bytes -/

theorem length_flatMap_bitsOf (bytes : List Byte) : (bytes.flatMap bitsOf).length = 8 * bytes.length := by
  induction bytes with
  | nil => rfl
  | cons b rest ih =>
    have : (bitsOf b).length = 8 := rfl
    rw [List.flatMap_cons, List.length_append, ih, List.length_cons]
    omega

theorem getElem?_bitsOf (b : Byte) {k : Nat} (hk : k < 8) : (bitsOf b)[k]? = some (b.getLsbD (7 - k)) := by
  interval_cases k <;> rfl

theorem getElem?_flatMap_bitsOf {bytes : List Byte} {i k : Nat} {b : Byte} (hb : bytes[i]? = some b) (hk : k < 8) :
    (bytes.flatMap bitsOf)[8 * i + k]? = some (b.getLsbD (7 - k)) := by
  have eight (c : Byte) : (bitsOf c).length = 8 := rfl
  induction bytes generalizing i with
  | nil => cases hb
  | cons c rest ih =>
    rw [List.flatMap_cons]
    cases i with
    | zero =>
      obtain rfl : c = b := Option.some_inj.1 hb
      rw [Nat.mul_zero, Nat.zero_add, List.getElem?_append_left (by rwa [eight]), getElem?_bitsOf c hk]
    | succ i =>
      rw [List.getElem?_append_right (by rw [eight]; omega), eight, ← ih hb]
      congr 1
      omega

/-! ### The whole register -/

/-- A check register, preset to all ones, after a number of bits. -/
def registerAfter {n : Nat} (f : BitVec n → Bool → BitVec n) (bytes : List Byte) (i : Nat) : BitVec n :=
  ((bytes.flatMap bitsOf).take i).foldl f (BitVec.allOnes n)

theorem registerAfter_all {n : Nat} (f : BitVec n → Bool → BitVec n) (bytes : List Byte) :
    registerAfter f bytes (8 * bytes.length) =
      bytes.foldl (fun r b => (bitsOf b).foldl f r) (BitVec.allOnes n) := by
  rw [registerAfter, List.take_of_length_le (length_flatMap_bitsOf bytes).le, List.foldl_flatMap]

theorem registerAfter_succ {n : Nat} (f : BitVec n → Bool → BitVec n) {bytes : List Byte} {i k : Nat} {b : Byte}
    (hb : bytes[i]? = some b) (hk : k < 8) :
    registerAfter f bytes (8 * i + k + 1) = f (registerAfter f bytes (8 * i + k)) (b.getLsbD (7 - k)) := by
  rw [registerAfter, List.take_add_one, getElem?_flatMap_bitsOf hb hk, Option.toList_some, List.foldl_append]
  rfl

/-- A check register stepped over the bits of the bytes has gone through one state for each bit. -/
theorem checked_foldl {n : Nat} {terms : List Nat} {f : BitVec n → Bool → BitVec n}
    (hf : ∀ r bit, Fed terms r bit (f r bit)) (bytes : List Byte) :
    Checked terms bytes (bytes.foldl (fun r b => (bitsOf b).foldl f r) (BitVec.allOnes n)) := by
  refine ⟨registerAfter f bytes, rfl, registerAfter_all f bytes, fun i k b hb hk => ?_⟩
  rw [registerAfter_succ f hb hk]
  exact hf _ _

theorem checked_crc16 (bytes : List Byte) : Checked [0, 5, 12] bytes (crc16 bytes) := checked_foldl fed_crc16Bit bytes

theorem checked_not_crc32 (bytes : List Byte) :
    Checked [0, 1, 2, 4, 5, 7, 8, 10, 11, 12, 16, 22, 23, 26] bytes (~~~ crc32 bytes) := by
  rw [crc32, BitVec.not_not]
  exact checked_foldl fed_crc32Bit bytes

/-! ### The bytes of the checks -/

theorem at2_crc32Bytes (r : BitVec 32) : at2 (crc32Bytes r) 0 * 65536 + at2 (crc32Bytes r) 2 = r.toNat := by
  have bound : r.toNat < 4294967296 := r.isLt
  change (256 * (r.extractLsb' 24 8).toNat + (r.extractLsb' 16 8).toNat) * 65536 +
    (256 * (r.extractLsb' 8 8).toNat + (r.extractLsb' 0 8).toNat) = r.toNat
  simp only [toNat_extractLsb'_eq]
  omega

theorem toNat_foldl_add (bytes : List Byte) (b : Byte) :
    (bytes.foldl (· + ·) b).toNat = (b.toNat + (bytes.map BitVec.toNat).sum) % 256 := by
  induction bytes generalizing b with
  | nil => exact (Nat.mod_eq_of_lt b.isLt).symm
  | cons c rest ih =>
    rw [List.foldl_cons, ih, BitVec.toNat_add, List.map_cons, List.sum_cons]
    omega

theorem toNat_sumCheck (bytes : List Byte) :
    (sumCheck bytes).toNat + (bytes.map BitVec.toNat).sum % 256 = 255 := by
  have zero : (0 : Byte).toNat = 0 := rfl
  rw [sumCheck, BitVec.toNat_not, toNat_foldl_add, zero, Nat.zero_add]
  omega

end Sys2Proof.Proofs

/-! # Proofs: what arrives

The fields of a tile burst, of a control cell that passes, and of an upstream frame, each as the number that its bytes
give. -/

namespace Sys2Proof.Proofs

open Sys2Proof.Machine Sys2Proof.Claims

/-! ### Tile burst (Table 12-1) -/

theorem toNat_high_nibble (b : Byte) : (b.extractLsb' 4 4).toNat = b.toNat / 16 := by
  have bound : b.toNat < 256 := b.isLt
  rw [toNat_extractLsb'_eq]
  omega

theorem burstOf_ok_iff (bytes : List Byte) :
    (burstOf bytes).ok = true ↔ (crc16 (bytes.take 390)).toNat = at2 bytes 390 := by
  rw [← toNat_wordAt, ← BitVec.toNat_eq]
  exact beq_iff_eq

theorem burstFields (bytes : List Byte) (h : bytes.length = 392) :
     let b := burstOf bytes
     let cut := b.last = true ∧ 1 ≤ at2 bytes 4 ∧ at2 bytes 4 ≤ 255
     b.pos.frame.toNat = at1 bytes 0 / 16 ∧ b.last = decide (at1 bytes 0 / 8 % 2 = 1) ∧ b.pos.line = at2 bytes 1 ∧
     b.index = at1 bytes 3 ∧ SamplesAt bytes 6 b.samples ∧ (b.ok = true ↔ (crc16 (bytes.take 390)).toNat = at2 bytes 390) ∧
     (¬ cut → storedSamples b = b.samples) ∧
     (cut → storedSamples b = b.samples.take (at2 bytes 4) ++ List.replicate (256 - at2 bytes 4) 0) := by
  have valid : (burstOf bytes).valid = at2 bytes 4 := toNat_wordAt ..
  refine ⟨toNat_high_nibble _, getLsbD_eq_decide _ 3, toNat_wordAt .., rfl, samplesAt_unpackSamples (by omega),
    burstOf_ok_iff bytes, fun whole => ?_, fun cut => ?_⟩
  · rw [storedSamples, valid, if_neg whole]
  · rw [storedSamples, valid, if_pos cut]

/-! ### Control cell (section 12.5) -/

theorem kind_unknown_iff (kind : Byte) : (kind ≠ 0 ∧ kind ≠ 1) ∧ kind ≠ 2 ↔ 2 < kind.toNat := by
  have zero : (0 : Byte).toNat = 0 := rfl
  have one : (1 : Byte).toNat = 1 := rfl
  have two : (2 : Byte).toNat = 2 := rfl
  simp only [ne_eq, BitVec.toNat_eq, zero, one, two]
  omega

theorem cellOf_eq_some_iff (slot : List Byte) (c : Cell) :
    cellOf slot = some c ↔
      (byteAt slot 2).toNat ≤ 44 ∧
        crc16 (slot.take (3 + (byteAt slot 2).toNat)) = wordAt slot (3 + (byteAt slot 2).toNat) ∧
        (byteAt slot 0).toNat ≤ 2 ∧ (byteAt slot 0 = 2 → (byteAt slot 2).toNat ≤ 42) ∧
        c = { kind := byteAt slot 0, tag := byteAt slot 1, payload := slice slot 3 (byteAt slot 2).toNat } := by
  simp only [cellOf, kind_unknown_iff, Bool.and_eq_true, beq_iff_eq, bne_iff_ne, decide_eq_true_eq]
  by_cases long : 44 < (byteAt slot 2).toNat
  · rw [if_pos long]
    exact ⟨nofun, fun ⟨fits, _⟩ => absurd fits (by omega)⟩
  rw [if_neg long]
  by_cases check : crc16 (slot.take (3 + (byteAt slot 2).toNat)) = wordAt slot (3 + (byteAt slot 2).toNat)
  case neg =>
    rw [if_pos check]
    exact ⟨nofun, fun ⟨_, right, _⟩ => absurd right check⟩
  rw [if_neg (not_not_intro check)]
  by_cases unknown : 2 < (byteAt slot 0).toNat
  · rw [if_pos unknown]
    exact ⟨nofun, fun ⟨_, _, known, _⟩ => absurd known (by omega)⟩
  rw [if_neg unknown]
  by_cases relay : byteAt slot 0 = 2 ∧ 42 < (byteAt slot 2).toNat
  · rw [if_pos relay]
    exact ⟨nofun, fun ⟨_, _, _, short, _⟩ => absurd (short relay.1) (by omega)⟩
  rw [if_neg relay, Option.some_inj]
  exact ⟨fun same => ⟨by omega, check, by omega, fun two => by_contra fun long => relay ⟨two, by omega⟩, same.symm⟩,
    fun ⟨_, _, _, _, same⟩ => same.symm⟩

theorem cellFields (slot : List Byte) (c : Cell) :
     let n := at1 slot 2
     (cellOf slot = some c ↔
       n ≤ 44 ∧ (crc16 (slot.take (3 + n))).toNat = at2 slot (3 + n) ∧ at1 slot 0 ≤ 2 ∧ (at1 slot 0 = 2 → n ≤ 42) ∧
         c = { kind := slot.getD 0 0, tag := slot.getD 1 0, payload := (slot.drop 3).take n }) := by
  have kind : at1 slot 0 = 2 ↔ byteAt slot 0 = 2 := (BitVec.toNat_eq (x := byteAt slot 0) (y := 2)).symm
  intro n
  rw [cellOf_eq_some_iff, ← toNat_wordAt, ← BitVec.toNat_eq, kind]
  rfl

/-! ### Auxiliary slot (Table 12-5) -/

theorem markOf_eq (n : Nat) : markOf n = if n = 0 then .clean else if n = 2 then .framing else .parity := by
  by_cases zero : n = 0
  · rw [zero]; rfl
  by_cases two : n = 2
  · rw [two]; rfl
  rw [if_neg zero, if_neg two]
  exact markOf.eq_3 n zero two

theorem get_auxOf (slot : List Byte) (i : SideId) : (auxOf slot).get i = auxLineOf slot (9 * sideNum i) := by
  cases i <;> rfl

@[simp] theorem length_auxLineOf (slot : List Byte) (start : Nat) :
    (auxLineOf slot start).length = min 4 (byteAt slot start).toNat := by
  rw [auxLineOf, List.length_map, List.length_range]

theorem getElem?_auxLineOf {slot : List Byte} {start j : Nat} {r : ByteRecord}
    (h : (auxLineOf slot start)[j]? = some r) :
    j < min 4 (byteAt slot start).toNat ∧
      r = { data := byteAt slot (start + 1 + 2 * j), mark := markOf (byteAt slot (start + 2 + 2 * j)).toNat } := by
  obtain ⟨hj, place⟩ := List.getElem?_eq_some_iff.1 h
  refine ⟨by simpa using hj, ?_⟩
  rw [← place]
  simp only [auxLineOf, List.getElem_map, List.getElem_range]

theorem sideNum_le (i : SideId) : sideNum i ≤ 2 := by cases i <;> decide

/-- The records of an auxiliary slot that stands at a place of a frame. -/
theorem auxFields (bytes : List Byte) (i : SideId) :
    ((auxOf (slice bytes 410 400)).get i).length = min 4 (at1 bytes (410 + 9 * sideNum i)) ∧
      ∀ (j : Nat) (r : ByteRecord), ((auxOf (slice bytes 410 400)).get i)[j]? = some r →
        r.data = bytes.getD (410 + 9 * sideNum i + 1 + 2 * j) 0 ∧
          r.mark = if at1 bytes (410 + 9 * sideNum i + 2 + 2 * j) = 0 then .clean
            else if at1 bytes (410 + 9 * sideNum i + 2 + 2 * j) = 2 then .framing else .parity := by
  have side := sideNum_le i
  rw [get_auxOf, length_auxLineOf, byteAt_slice bytes (by omega)]
  refine ⟨rfl, fun j r hr => ?_⟩
  obtain ⟨hj, rfl⟩ := getElem?_auxLineOf hr
  rw [byteAt_slice bytes (by omega), byteAt_slice bytes (by omega), markOf_eq, ← Nat.add_assoc,
    ← Nat.add_assoc, ← Nat.add_assoc, ← Nat.add_assoc]
  exact ⟨rfl, rfl⟩

/-! ### Return slot -/

theorem returnFields (bytes : List Byte) (start : Nat) (h : start + 400 ≤ bytes.length) :
    let r := returnSlotOf (slice bytes start 400)
    r.kind = bytes.getD start 0 ∧ r.frame = bytes.getD (start + 3) 0 ∧ r.line.toNat = at2 bytes (start + 4) ∧
      r.index = bytes.getD (start + 6) 0 ∧ r.lastOfLine = decide (at1 bytes (start + 7) / 32 % 2 = 1) ∧
      r.seq.toNat = at2 bytes (start + 8) ∧ SamplesAt bytes (start + 16) r.samples := by
  simp only [returnSlotOf, byteAt_slice, wordAt_slice, slice_slice, toNat_wordAt, getLsbD_eq_decide,
    Nat.reduceLT, Nat.reduceAdd, Nat.reduceLeDiff]
  exact ⟨rfl, rfl, trivial, rfl, rfl, trivial, samplesAt_unpackSamples (by omega)⟩

/-! ### Upstream class field (R181) -/

theorem classOf_classNum (k : RateClass) : classOf (classNum k) = some k := by cases k <;> rfl

theorem classOf_eq_none {n : Nat} (h : n = 0 ∨ 5 < n) : classOf n = none := by
  match n, h with
  | 0, _ => rfl
  | n + 6, _ => rfl

theorem upClassField_refuse (n : Nat) : upClassField 3 n = .refuse := by
  cases h : classOf n <;> simp only [upClassField, h]

theorem upClassField_unknown {code : Nat} (h : code = 0 ∨ 3 < code) (n : Nat) : upClassField code n = .none := by
  match code, h with
  | 0, _ => rfl
  | code + 4, _ => rfl

theorem upClassField_unnamed {code n : Nat} (hcode : code ≠ 3) (h : n = 0 ∨ 5 < n) : upClassField code n = .none := by
  match code, hcode with
  | 0, _ => rfl
  | 1, _ => simp only [upClassField, classOf_eq_none h]
  | 2, _ => simp only [upClassField, classOf_eq_none h]
  | code + 4, _ => rfl

theorem upClassField_classNum (j : RateClass) :
    upClassField 1 (classNum j) = .propose j ∧ upClassField 2 (classNum j) = .agree j := by
  cases j <;> exact ⟨rfl, rfl⟩

/-! ### Upstream frame (Table 12-4) -/

/-- The select field of an upstream frame: its code 1 names a class. -/
theorem upFrameOf_select (k : RateClass) (bytes : List Byte) :
    (upFrameOf k bytes).select = if at1 bytes 6 = 1 then classOf (at1 bytes 7) else none := by
  have code : (byteAt bytes 6 == 1) = true ↔ at1 bytes 6 = 1 :=
    beq_iff_eq.trans (BitVec.toNat_eq (x := byteAt bytes 6) (y := 1))
  by_cases one : at1 bytes 6 = 1
  · rw [if_pos one]
    exact if_pos (code.2 one)
  · rw [if_neg one]
    exact if_neg (one ∘ code.1)

@[simp] theorem length_returns_upFrameOf (k : RateClass) (bytes : List Byte) :
    (upFrameOf k bytes).returns.length = slotsUp k - 2 := by
  change ((List.range _).map _).length = _
  rw [List.length_map, List.length_range]

theorem getElem?_returns_upFrameOf {k : RateClass} {bytes : List Byte} {i : Nat} {r : ReturnSlot}
    (h : (upFrameOf k bytes).returns[i]? = some r) :
    i < slotsUp k - 2 ∧ r = returnSlotOf (slice bytes (10 + 400 * (i + 2)) 400) := by
  obtain ⟨hi, place⟩ := List.getElem?_eq_some_iff.1 h
  refine ⟨by simpa using hi, ?_⟩
  rw [← place]
  simp only [upFrameOf, List.getElem_map, List.getElem_range]

theorem upFrameFields (k : RateClass) (bytes : List Byte) (h : bytes.length = 10 + 400 * slotsUp k + 4) :
     let u := upFrameOf k bytes
     let code := at1 bytes 4
     let named := at1 bytes 5
     u.count.toNat = at2 bytes 0 ∧ u.beacon = bytes.getD 2 0 ∧ u.echo = bytes.getD 3 0 ∧
     (∀ j, classNum j = named → (code = 1 → u.classField = .propose j) ∧ (code = 2 → u.classField = .agree j)) ∧
     (code = 3 → u.classField = .refuse) ∧ (code = 0 ∨ 3 < code → u.classField = .none) ∧
     (code ≠ 3 → named = 0 ∨ 5 < named → u.classField = .none) ∧
     (∀ j, at1 bytes 6 = 1 → classNum j = at1 bytes 7 → u.select = some j) ∧
     (at1 bytes 6 ≠ 1 ∨ at1 bytes 7 = 0 ∨ 5 < at1 bytes 7 → u.select = none) ∧ u.classEcho = bytes.getD 8 0 ∧
     u.program = decide (at1 bytes 9 % 2 = 1) ∧ u.preview = decide (at1 bytes 9 / 2 % 2 = 1) ∧
     u.call = decide (at1 bytes 9 / 4 % 2 = 1) ∧ u.cell = cellOf ((bytes.drop 10).take 400) ∧
     (∀ i : SideId,
       let start := 410 + 9 * sideNum i
       (u.aux.get i).length = min 4 (at1 bytes start) ∧
       ∀ (j : Nat) (r : ByteRecord), (u.aux.get i)[j]? = some r →
         let mark := at1 bytes (start + 2 + 2 * j)
         r.data = bytes.getD (start + 1 + 2 * j) 0 ∧
           r.mark = if mark = 0 then .clean else if mark = 2 then .framing else .parity) ∧
     u.returns.length = slotsUp k - 2 ∧
     ∀ (i : Nat) (r : ReturnSlot), u.returns[i]? = some r →
       let start := 810 + 400 * i
       r.kind = bytes.getD start 0 ∧ r.frame = bytes.getD (start + 3) 0 ∧ r.line.toNat = at2 bytes (start + 4) ∧
         r.index = bytes.getD (start + 6) 0 ∧ r.lastOfLine = decide (at1 bytes (start + 7) / 32 % 2 = 1) ∧
         r.seq.toNat = at2 bytes (start + 8) ∧ SamplesAt bytes (start + 16) r.samples := by
  intro u code named
  have field : u.classField = upClassField code named := rfl
  have select : u.select = if at1 bytes 6 = 1 then classOf (at1 bytes 7) else none := upFrameOf_select k bytes
  have bit0 : (byteAt bytes 9).getLsbD 0 = decide (at1 bytes 9 % 2 = 1) := by
    rw [getLsbD_eq_decide, Nat.pow_zero, Nat.div_one]
    rfl
  refine ⟨toNat_wordAt .., rfl, rfl, fun j hj => ⟨fun one => ?_, fun two => ?_⟩, fun three => ?_, fun unknown => ?_,
    fun other unnamed => ?_, fun j one hj => ?_, fun missing => ?_, rfl, bit0, getLsbD_eq_decide _ 1,
    getLsbD_eq_decide _ 2, rfl, auxFields bytes, length_returns_upFrameOf k bytes, fun i r hr => ?_⟩
  · rw [field, one, ← hj]
    exact (upClassField_classNum j).1
  · rw [field, two, ← hj]
    exact (upClassField_classNum j).2
  · rw [field, three]
    exact upClassField_refuse named
  · rw [field]
    exact upClassField_unknown unknown named
  · rw [field]
    exact upClassField_unnamed other unnamed
  · rw [select, if_pos one, ← hj, classOf_classNum]
  · rw [select]
    obtain other | unnamed := missing
    · exact if_neg other
    · rw [classOf_eq_none unnamed, ite_self]
  · obtain ⟨hi, rfl⟩ := getElem?_returns_upFrameOf hr
    have start : 10 + 400 * (i + 2) = 810 + 400 * i := by omega
    rw [start]
    exact returnFields bytes (810 + 400 * i) (by omega)

end Sys2Proof.Proofs

/-! # Proofs: what is sent

The bytes of the downstream frame, part by part: header, control slot, auxiliary slot, data slots and frame check. The
control slot and the auxiliary slot read back as what they were built from. -/

namespace Sys2Proof.Proofs

open Sys2Proof.Machine Sys2Proof.Claims

/-! ### Header (Table 12-2) -/

theorem carryBits_lt (c : Option CarryState) : carryBits c < 4 := by
  obtain _ | c := c
  · decide
  · cases c <;> decide

theorem length_carryBytes (n : Nat) (carry : List (Option CarryState)) (h : carry.length = 4 * n) :
    (carryBytes carry).length = n := by
  induction n generalizing carry with
  | zero => rw [List.length_eq_zero_iff.1 h]; rfl
  | succ n ih =>
    match carry, h with
    | p :: q :: r :: s :: rest, h =>
      exact congrArg (· + 1) (ih rest (by simp only [List.length_cons] at h; omega))

/-- Four positions of the carry vector in one byte. -/
theorem carryByte_place (p q r s c : Option CarryState) {j : Nat} (hc : [p, q, r, s][j]? = some c) :
    (byteOf (64 * carryBits p + 16 * carryBits q + 4 * carryBits r + carryBits s)).toNat / 4 ^ (3 - j) % 4 =
      carryBits c := by
  have := carryBits_lt p
  have := carryBits_lt q
  have := carryBits_lt r
  have := carryBits_lt s
  rw [toNat_byteOf_of_lt (by omega)]
  match j, hc with
  | 0, hc => obtain rfl : p = c := Option.some_inj.1 hc; omega
  | 1, hc => obtain rfl : q = c := Option.some_inj.1 hc; omega
  | 2, hc => obtain rfl : r = c := Option.some_inj.1 hc; omega
  | 3, hc => obtain rfl : s = c := Option.some_inj.1 hc; omega

theorem carryBytes_place (n : Nat) (carry : List (Option CarryState)) (h : carry.length = 4 * n) {i : Nat}
    {c : Option CarryState} (hc : carry[i]? = some c) :
    at1 (carryBytes carry) (i / 4) / 4 ^ (3 - i % 4) % 4 = carryBits c := by
  induction n generalizing carry i with
  | zero => rw [List.length_eq_zero_iff.1 h] at hc; cases hc
  | succ n ih =>
    match carry, h with
    | p :: q :: r :: s :: rest, h =>
      by_cases first : i < 4
      · rw [Nat.div_eq_of_lt first, Nat.mod_eq_of_lt first]
        refine carryByte_place p q r s c ?_
        rw [← hc]
        exact (List.getElem?_append_left (l₁ := [p, q, r, s]) (l₂ := rest) first).symm
      · obtain ⟨j, rfl⟩ : ∃ j, i = j + 4 := ⟨i - 4, by omega⟩
        rw [Nat.add_div_right j (by decide), Nat.add_mod_right]
        exact ih rest (by simp only [List.length_cons] at h; omega) hc

theorem length_headerBytes {h : Header} (hcarry : h.carry.length = 24) : (headerBytes h).length = 18 := by
  have carry := length_carryBytes 6 h.carry hcarry
  rw [headerBytes, List.length_append, carry]
  rfl

theorem headerBytes_carry {h : Header} (hcarry : h.carry.length = 24) {i : Nat} {c : Option CarryState}
    (hc : h.carry[i]? = some c) : at1 (headerBytes h) (12 + i / 4) / 4 ^ (3 - i % 4) % 4 = carryBits c := by
  have place : at1 (headerBytes h) (12 + i / 4) = at1 (carryBytes h.carry) (i / 4) := by
    rw [Nat.add_comm]
    rfl
  rw [place]
  exact carryBytes_place 6 h.carry hcarry hc

theorem classNum_lt (k : RateClass) : classNum k < 256 := by cases k <;> decide

theorem classOptNum_lt (k : Option RateClass) : classOptNum k < 256 := by
  cases k with
  | none => decide
  | some k => exact classNum_lt k

theorem classFieldNum_lt (c : ClassField) : classFieldNum c < 256 := by cases c <;> simp [classFieldNum]

theorem classFieldClass_lt (c : ClassField) : classFieldClass c < 256 := by
  cases c with
  | propose k => exact classNum_lt k
  | agree k => exact classNum_lt k
  | none => decide
  | refuse => decide

theorem boolNum_le (b : Bool) : boolNum b ≤ 1 := by cases b <;> decide

/-- The fields of the header that are numbers. -/
theorem headerBytes_numbers (h : Header) :
    at2 (headerBytes h) 0 = h.frameCount.toNat ∧ at1 (headerBytes h) 2 = classNum h.cls ∧
      at1 (headerBytes h) 7 = classFieldNum h.classField ∧ at1 (headerBytes h) 8 = classFieldClass h.classField ∧
      at1 (headerBytes h) 9 = boolNum h.training.isSome ∧ at1 (headerBytes h) 10 = classOptNum h.training ∧
      at1 (headerBytes h) 11 = 128 * boolNum h.overcommit + 64 * boolNum h.test := by
  have training := boolNum_le h.training.isSome
  have overcommit := boolNum_le h.overcommit
  have test := boolNum_le h.test
  have count : wordAt (headerBytes h) 0 = h.frameCount := joinBytes_highByte_lowByte h.frameCount
  refine ⟨?_, toNat_byteOf_of_lt (classNum_lt _), toNat_byteOf_of_lt (classFieldNum_lt _),
    toNat_byteOf_of_lt (classFieldClass_lt _), toNat_byteOf_of_lt (by omega), toNat_byteOf_of_lt (classOptNum_lt _),
    toNat_byteOf_of_lt (by omega)⟩
  rw [← toNat_wordAt, count]

/-! ### Slots (Table 12-3) -/

theorem setWidth_eq_byteOf (x : BitVec 4) : x.setWidth 8 = byteOf x.toNat :=
  BitVec.eq_of_toNat_eq ((BitVec.toNat_setWidth ..).trans (toNat_byteOf _).symm)

theorem packSamples_zeroSamples : packSamples zeroSamples = List.replicate 384 0 := packSamples_replicate 128

theorem length_padSlot {bytes : List Byte} (h : bytes.length ≤ 400) : (padSlot bytes).length = 400 := by
  rw [padSlot, List.length_append, List.length_replicate]
  omega

/-! ### Control slot (section 12.5) -/

theorem length_cellBody (c : Cell) : (cellBody c).length = 3 + c.payload.length := by
  rw [cellBody, List.length_cons, List.length_cons, List.length_cons]
  omega

theorem length_cellBytes (c : Cell) : (cellBytes c).length = 5 + c.payload.length := by
  have check : (wordBytes (crc16 (cellBody c))).length = 2 := rfl
  rw [cellBytes, List.length_append, length_cellBody, check]
  omega

/-- A cell sent in a slot passes where its kind is known and its payload short enough for it, and reads back as itself. -/
theorem cellOf_padSlot (c : Cell) (h : c.payload.length ≤ 44) :
    cellOf (padSlot (cellBytes c)) =
      if c.kind.toNat ≤ 2 ∧ (c.kind = 2 → c.payload.length ≤ 42) then some c else none := by
  have count : (byteAt (padSlot (cellBytes c)) 2).toNat = c.payload.length := toNat_byteOf_of_lt (by omega)
  have body : (padSlot (cellBytes c)).take (3 + c.payload.length) = cellBody c := by
    rw [padSlot, cellBytes, List.append_assoc]
    exact List.take_left' (length_cellBody c)
  have check : wordAt (padSlot (cellBytes c)) (3 + c.payload.length) = crc16 (cellBody c) := by
    rw [padSlot, ← length_cellBody]
    exact wordAt_length_append ..
  have payload : slice (padSlot (cellBytes c)) 3 c.payload.length = c.payload := by
    rw [slice, padSlot, cellBytes, List.append_assoc]
    exact List.take_left
  have passes (d : Cell) : cellOf (padSlot (cellBytes c)) = some d ↔
      (c.kind.toNat ≤ 2 ∧ (c.kind = 2 → c.payload.length ≤ 42)) ∧ d = c := by
    rw [cellOf_eq_some_iff, count, body, check, payload]
    exact ⟨fun ⟨_, _, known, short, same⟩ => ⟨⟨known, short⟩, same⟩,
      fun ⟨⟨known, short⟩, same⟩ => ⟨h, rfl, known, short, same⟩⟩
  split
  case isTrue good => exact (passes c).2 ⟨good, rfl⟩
  case isFalse bad => exact Option.eq_none_iff_forall_ne_some.2 fun d hd => bad ((passes d).1 hd).1

/-! ### Auxiliary slot (Table 12-5) -/

theorem markOf_markNum (m : ByteMark) : markOf (byteOf (markNum m)).toNat = m := by cases m <;> rfl

theorem length_flatMap_recordBytes (rs : List ByteRecord) : (rs.flatMap recordBytes).length = 2 * rs.length := by
  induction rs with
  | nil => rfl
  | cons r rest ih =>
    have : (recordBytes r).length = 2 := rfl
    rw [List.flatMap_cons, List.length_append, ih, List.length_cons]
    omega

theorem length_auxLineBytes {rs : List ByteRecord} (h : rs.length ≤ 4) : (auxLineBytes rs).length = 9 := by
  rw [auxLineBytes, List.length_cons, List.length_append, length_flatMap_recordBytes, List.length_replicate]
  omega

theorem byteAt_flatMap_recordBytes {rs : List ByteRecord} {j : Nat} (hj : j < rs.length) (rest : List Byte) :
    byteAt (rs.flatMap recordBytes ++ rest) (2 * j) = rs[j].data ∧
      byteAt (rs.flatMap recordBytes ++ rest) (2 * j + 1) = byteOf (markNum rs[j].mark) := by
  induction rs generalizing j with
  | nil => cases hj
  | cons r rs ih =>
    cases j with
    | zero => exact ⟨rfl, rfl⟩
    | succ j => exact ih (Nat.lt_of_succ_lt_succ hj)

theorem byteAt_length_append (before bytes : List Byte) (i : Nat) :
    byteAt (before ++ bytes) (before.length + i) = byteAt bytes i := by
  rw [byteAt, byteAt, List.getD_eq_getElem?_getD, List.getD_eq_getElem?_getD,
    List.getElem?_append_right (Nat.le_add_right ..), Nat.add_sub_cancel_left]

/-- At most four records of a line read back at their place. -/
theorem auxLineOf_auxLineBytes (before : List Byte) {rs : List ByteRecord} (h : rs.length ≤ 4) (rest : List Byte) :
    auxLineOf (before ++ (auxLineBytes rs ++ rest)) before.length = rs := by
  have count : (byteAt (before ++ (auxLineBytes rs ++ rest)) before.length).toNat = rs.length := by
    rw [← Nat.add_zero before.length, byteAt_length_append]
    exact toNat_byteOf_of_lt (by omega)
  refine List.ext_getElem (by rw [length_auxLineOf, count]; omega) fun j _ hj => ?_
  obtain ⟨data, mark⟩ := byteAt_flatMap_recordBytes hj (List.replicate (8 - 2 * rs.length) 0 ++ rest)
  simp only [auxLineOf, List.getElem_map, List.getElem_range]
  have place (i : Nat) : byteAt (before ++ (auxLineBytes rs ++ rest)) (before.length + (i + 1)) =
      byteAt (rs.flatMap recordBytes ++ (List.replicate (8 - 2 * rs.length) 0 ++ rest)) i := by
    rw [byteAt_length_append, ← List.append_assoc]
    rfl
  have dataPlace : before.length + 1 + 2 * j = before.length + (2 * j + 1) := by omega
  have markPlace : before.length + 2 + 2 * j = before.length + (2 * j + 1 + 1) := by omega
  rw [dataPlace, markPlace, place, place, data, mark, markOf_markNum]

theorem length_auxBytes {a : PerSide (List ByteRecord)} (h : ∀ i, (a.get i).length ≤ 4) : (auxBytes a).length = 27 := by
  have len0 : (auxLineBytes a.s0).length = 9 := length_auxLineBytes (h .s0)
  have len1 : (auxLineBytes a.s1).length = 9 := length_auxLineBytes (h .s1)
  have len2 : (auxLineBytes a.s2).length = 9 := length_auxLineBytes (h .s2)
  rw [auxBytes, List.length_append, List.length_append, len0, len1, len2]

theorem auxOf_padSlot {a : PerSide (List ByteRecord)} (h : ∀ i, (a.get i).length ≤ 4) :
    auxOf (padSlot (auxBytes a)) = a := by
  have len0 : (auxLineBytes a.s0).length = 9 := length_auxLineBytes (h .s0)
  have len1 : (auxLineBytes a.s1).length = 9 := length_auxLineBytes (h .s1)
  have line0 (rest : List Byte) : auxLineOf (auxLineBytes a.s0 ++ rest) 0 = a.s0 :=
    auxLineOf_auxLineBytes [] (h .s0) rest
  have line1 (rest : List Byte) : auxLineOf (auxLineBytes a.s0 ++ (auxLineBytes a.s1 ++ rest)) 9 = a.s1 := by
    rw [← len0]
    exact auxLineOf_auxLineBytes _ (h .s1) rest
  have line2 (rest : List Byte) :
      auxLineOf (auxLineBytes a.s0 ++ (auxLineBytes a.s1 ++ (auxLineBytes a.s2 ++ rest))) 18 = a.s2 := by
    have before : (auxLineBytes a.s0 ++ auxLineBytes a.s1).length = 18 := by rw [List.length_append, len0, len1]
    rw [← List.append_assoc, ← before]
    exact auxLineOf_auxLineBytes _ (h .s2) rest
  simp only [auxOf, padSlot, auxBytes, List.append_assoc]
  rw [line0, line1, line2]

/-! ### The frame as sent (R82) -/

section
variable {f : Frame} (hcarry : f.header.carry.length = 24) (hpayload : f.control.payload.length ≤ 44)
  (haux : ∀ i, (f.aux.get i).length ≤ 4)
include hcarry hpayload haux

theorem length_frameBody :
    (frameBody f).length = 818 + (f.slots.map fun x => (dataSlotBytes x).length).sum := by
  have control : (padSlot (cellBytes f.control)).length = 400 := length_padSlot (by rw [length_cellBytes]; omega)
  have aux : (padSlot (auxBytes f.aux)).length = 400 := length_padSlot (by rw [length_auxBytes haux]; decide)
  rw [frameBody, List.length_append, List.length_append, List.length_append, length_headerBytes hcarry, control, aux,
    List.length_flatMap]

/-- The parts of a frame stand at their places, whatever follows them. -/
theorem frameBody_parts (rest : List Byte) :
    (frameBody f ++ rest).take 18 = headerBytes f.header ∧
      ((frameBody f ++ rest).drop 18).take 400 = padSlot (cellBytes f.control) ∧
      ((frameBody f ++ rest).drop 418).take 400 = padSlot (auxBytes f.aux) ∧
      ((frameBody f ++ rest).drop 818).take (f.slots.map fun x => (dataSlotBytes x).length).sum =
        f.slots.flatMap dataSlotBytes := by
  have header := length_headerBytes hcarry
  have control : (padSlot (cellBytes f.control)).length = 400 := length_padSlot (by rw [length_cellBytes]; omega)
  have aux : (padSlot (auxBytes f.aux)).length = 400 := length_padSlot (by rw [length_auxBytes haux]; decide)
  have drop18 : (frameBody f ++ rest).drop 18 =
      padSlot (cellBytes f.control) ++ (padSlot (auxBytes f.aux) ++ (f.slots.flatMap dataSlotBytes ++ rest)) := by
    simp only [frameBody, List.append_assoc]
    exact List.drop_left' header
  have drop418 : (frameBody f ++ rest).drop 418 =
      padSlot (auxBytes f.aux) ++ (f.slots.flatMap dataSlotBytes ++ rest) := by
    change (frameBody f ++ rest).drop (18 + 400) = _
    rw [← List.drop_drop, drop18]
    exact List.drop_left' control
  have drop818 : (frameBody f ++ rest).drop 818 = f.slots.flatMap dataSlotBytes ++ rest := by
    change (frameBody f ++ rest).drop (418 + 400) = _
    rw [← List.drop_drop, drop418]
    exact List.drop_left' aux
  refine ⟨?_, ?_, ?_, ?_⟩
  · simp only [frameBody, List.append_assoc]
    exact List.take_left' header
  · rw [drop18]
    exact List.take_left' control
  · rw [drop418]
    exact List.take_left' aux
  · rw [drop818]
    exact List.take_left' List.length_flatMap

end

end Sys2Proof.Proofs

/-! # Proofs: the fields stand in their bytes (O5) -/

namespace Sys2Proof.Proofs

open Sys2Proof.Machine Sys2Proof.Claims

/-! ### Responses and event records (section 12.6) -/

theorem responseBytes_eq (r : Response) :
    responseBytes r = [r.opcode, r.tag, byteOf (resultNum r.result), byteOf r.data.length] ++ r.data ++
      [sumCheck ([r.opcode, r.tag, byteOf (resultNum r.result), byteOf r.data.length] ++ r.data)] := rfl

theorem eventBytes_eq (e : EventRecord) :
    eventBytes e = [byteOf (eventNum e.kind)] ++ two e.stamp.toNat ++ [e.subject] ++ two e.detail.toNat := by
  rw [eventBytes, wordBytes_eq_two, wordBytes_eq_two]
  rfl

/-! ### Slot labels (Table 12-3) -/

theorem tileLabelBytes_eq (kind : Byte) (x : TileLabel) :
    tileLabelBytes kind x =
      [kind, byteOf x.entry, byteOf (laneNum x.lane), byteOf x.pos.frame.toNat] ++ two x.pos.line
        ++ [byteOf x.index, marksByte x.marks, 0, 0] ++ List.replicate 6 0 := by
  rw [tileLabelBytes, setWidth_eq_byteOf, bytes2_eq_two]

theorem bareLabelBytes_eq (kind : Byte) (seq : Word16) :
    bareLabelBytes kind seq = [kind, 255, 255, 255, 255, 255, 255, 0] ++ two seq.toNat ++ List.replicate 6 0 := by
  rw [bareLabelBytes, wordBytes_eq_two]

/-! ### The frame as sent (R82) -/

theorem frameFields (f : Frame) (hcarry : f.header.carry.length = 24) (hpayload : f.control.payload.length ≤ 44)
    (haux : ∀ i, (f.aux.get i).length ≤ 4) :
    let out := frameBytes f
    let slots := (f.slots.map fun x => (dataSlotBytes x).length).sum
    let n := f.control.payload.length
    let covered := [f.control.kind, f.control.tag, byteOf n] ++ f.control.payload
    out.length = 18 + 800 + slots + 4 ∧ out.take 18 = headerBytes f.header ∧
    (out.drop 18).take 400 = covered ++ two (crc16 covered).toNat ++ List.replicate (395 - n) 0 ∧
    cellOf ((out.drop 18).take 400) = (if f.control.kind.toNat ≤ 2 ∧ (f.control.kind = 2 → f.control.payload.length ≤ 42)
      then some f.control else none) ∧
    auxOf ((out.drop 418).take 400) = f.aux ∧ (out.drop 818).take slots = f.slots.flatMap dataSlotBytes ∧
    out.drop (818 + slots) = crc32Bytes (crc32 (out.take (818 + slots))) := by
  intro out slots n covered
  obtain ⟨header, control, aux, data⟩ := frameBody_parts hcarry hpayload haux (crc32Bytes (crc32 (frameBody f)))
  have length : (frameBody f).length = 818 + slots := length_frameBody hcarry hpayload haux
  have body : out.take (818 + slots) = frameBody f := List.take_left' length
  have check : out.drop (818 + slots) = crc32Bytes (crc32 (frameBody f)) := List.drop_left' length
  have cell : padSlot (cellBytes f.control) = covered ++ two (crc16 covered).toNat ++ List.replicate (395 - n) 0 := by
    have rest : 400 - (5 + n) = 395 - n := by omega
    rw [padSlot, length_cellBytes, rest, cellBytes, wordBytes_eq_two]
    rfl
  refine ⟨?_, header, control.trans cell, ?_, ?_, data, ?_⟩
  · have four : (crc32Bytes (crc32 (frameBody f))).length = 4 := rfl
    change (frameBody f ++ crc32Bytes (crc32 (frameBody f))).length = _
    rw [List.length_append, length, four]
  · rw [show (out.drop 18).take 400 = _ from control]
    exact cellOf_padSlot f.control hpayload
  · rw [show (out.drop 418).take 400 = _ from aux]
    exact auxOf_padSlot haux
  · rw [check, body]

/-- Settles O5, part by part: the checks, what arrives (bursts, cells, upstream frames), what is sent (headers, slots,
frames), responses, event records and codes. -/
theorem fieldsStandInTheirBytes : Obligations.FieldsStandInTheirBytes := by
  unfold Obligations.FieldsStandInTheirBytes
  refine ⟨fun bytes => ⟨checked_crc16 bytes, checked_not_crc32 bytes, fun r => ⟨rfl, at2_crc32Bytes r⟩,
    toNat_sumCheck bytes⟩, burstFields, fun slot c _ => cellFields slot c, upFrameFields, fun h hcarry => ?header,
    fun x seq xs => ?slots, frameFields, fun r e => ⟨responseBytes_eq r, eventBytes_eq e⟩, rfl, rfl⟩
  case header =>
    obtain ⟨count, cls, code, named, isTraining, training, flags⟩ := headerBytes_numbers h
    refine ⟨length_headerBytes hcarry, count, cls, rfl, rfl, rfl, rfl, code.trans ?_, named.trans ?_, isTraining, training, flags,
      fun i c hc => (headerBytes_carry hcarry hc).trans ?_⟩
    · cases h.classField <;> rfl
    · cases h.classField <;> rfl
    · match c with
      | none | some .carried | some .thinned | some .shed => rfl
  case slots =>
    intro marks label bare
    have marked : marksByte x.marks = byteOf marks := by
      match hg : x.marks.group with
      | none | some .outOfStep | some .partialGroup => simp only [marksByte, marks, hg]; rfl
    refine ⟨?_, ?_, ?_, ?_⟩
    · rw [dataSlotBytes, tileLabelBytes_eq, marked]
    · rw [dataSlotBytes, tileLabelBytes_eq, marked]
    · rw [dataSlotBytes, bareLabelBytes_eq]
    · rw [dataSlotBytes, bareLabelBytes_eq, packSamples_zeroSamples]
      rfl

end Sys2Proof.Proofs

/-! # Proofs: the state after reset (O10) -/

namespace Sys2Proof.Proofs

open Sys2Proof.Machine Sys2Proof.Claims

/-- Every counter starts at 0 with its half flag armed (R172). -/
theorem counter_reset (id : CounterId) : State.reset.counter id = Counter.reset := by
  cases id with
  | lane l c => cases l <;> cases c <;> rfl
  | link c => cases c <;> rfl
  | relayOverruns => rfl
  | side i c => cases i <;> cases c <;> rfl

theorem side_reset (i : SideId) : State.reset.side i = SideLine.reset := by cases i <;> rfl

/-- No hold, no switch on its way, and two banks without an entry (R56, R61). -/
theorem planLaw_reset : PlanLaw State.reset.plan :=
  have no_entries (b : Bank) (h : b.entries = []) : BankLaw b := by simp [BankLaw, h]
  ⟨no_entries _ rfl, no_entries _ rfl, rfl, Nat.zero_le _, fun _ => rfl, rfl, rfl, rfl⟩

/-- With no ceiling known, class 5 is in force and none is selected or proposed (R129). -/
theorem classLaw_reset : ClassLaw State.reset :=
  have none_selected : State.reset.link.selected = none := rfl
  have none_proposed : proposalClass State.reset.link.proposal = none := rfl
  ⟨rfl, fun _ => rfl, by simp [none_selected], by simp [none_proposed]⟩

theorem queuesBounded_reset : QueuesBounded State.reset :=
  ⟨by decide, by decide, by decide, by decide, by decide, by decide, by decide,
    fun i => by rw [side_reset]; decide, by decide, by decide⟩

/-- Settles O10: the lanes and the pool by the laws of LaneLaw for the blank state, the rest block by block. -/
theorem theResetStateKeepsEveryLaw : Obligations.TheResetStateKeepsEveryLaw :=
  have no_binding_entry (e : Entry) : e ∉ bindingEntries State.reset := fun named => nomatch named
  ⟨poolLaw.blank rfl rfl, allotmentLaw.blank rfl rfl, planLaw_reset, fun e named => absurd named (no_binding_entry e), .nil,
    classLaw_reset, fun id => by rw [counter_reset]; decide, queuesBounded_reset, fun low => nomatch low⟩

end Sys2Proof.Proofs

/-! # Proofs: lanes that lose their released tiles

The discards of R30 over several lanes, as an assessment (R106) and a plan switch (R87) do them: what they leave of each lane, of
the pool and of the records. -/

namespace Sys2Proof.Proofs

open Sys2Proof.Machine Sys2Proof.Claims

variable {s t u v : State} {l k : LaneId} {ls : List LaneId}

/-- A lane without its RELEASED lines (R30). -/
def laneCut (x : Lane) : Lane := { x with queue := x.queue.filter fun r => r.state != .released }

@[simp] theorem laneCut_laneCut (x : Lane) : laneCut (laneCut x) = laneCut x := by simp [laneCut]

/-- A discard counts the cut line once the queue and the pool are settled. -/
theorem discardReleased_eq (l : LaneId) (s : State) : discardReleased l s =
    countCut l ((s.lane l).queue.filter fun r => r.state == .released)
      ((s.modLane l laneCut).addFree (releasedTiles s l)) := rfl

theorem discardReleased_lane (l : LaneId) (s : State) : (discardReleased l s).lane l = laneCut (s.lane l) := by
  rw [discardReleased_eq, (countCut_recording l _).lane]
  exact lane_modLane_same l laneCut s

theorem discardReleased_lane_other (h : k ≠ l) (s : State) : (discardReleased l s).lane k = s.lane k := by
  rw [discardReleased_eq, (countCut_recording l _).lane]
  exact lane_modLane_other l k laneCut s h

theorem discards_lane (ls : List LaneId) (s : State) (k : LaneId) :
    (State.each discardReleased ls s).lane k = if k ∈ ls then laneCut (s.lane k) else s.lane k := by
  induction ls generalizing s with
  | nil => rfl
  | cons l ls ih =>
    rw [State.each, ih]
    by_cases h : k = l
    · subst h
      simp [discardReleased_lane]
    · simp [discardReleased_lane_other h, h]

/-- The buffers that a lane gives up when its RELEASED lines go. -/
theorem heldIn_laneCut (x : Lane) : releasedIn x.queue + heldIn (laneCut x).queue = heldIn x.queue :=
  heldIn_filter_released x.queue

/-- The lanes and the pool after the discards, wherever the lanes and the pool stood as in a state `s` before them and nothing
touched them after. -/
theorem discards_loseReleased (before : v.lanes = s.lanes ∧ v.poolFree = s.poolFree)
    (after : t.lanes = (State.each discardReleased ls v).lanes ∧ t.poolFree = (State.each discardReleased ls v).poolFree) :
    LoseReleased (fun l => l ∈ ls) s t := by
  have lane (l : LaneId) : t.lane l = if l ∈ ls then laneCut (s.lane l) else s.lane l := by
    rw [lane_congr after.1, discards_lane, lane_congr before.1]
  let n (l : LaneId) : Nat := if l ∈ ls then releasedTiles s l else 0
  have exchange (l : LaneId) : n l + held t l = held s l := by
    simp only [n, held, lane]
    split
    · exact heldIn_laneCut (s.lane l)
    · exact Nat.zero_add _
  have total : poolTotal t = poolTotal s :=
    (poolTotal_congr after.1 after.2).trans ((thins_each discardReleased_thins ls v).pool.trans
      (poolTotal_congr before.1 before.2))
  refine ⟨fun l h => by rw [lane, if_pos h]; rfl, fun l h => by rw [lane, if_neg h],
    n, fun l h => if_pos h, fun l h => if_neg h, ?_⟩
  have l0 := exchange .l0
  have l1 := exchange .l1
  have l2 := exchange .l2
  have l3 := exchange .l3
  simp only [poolTotal] at total
  omega

/-- The cut line of a lane, counted where its RELEASED lines held one that was partly sent (R30). -/
def releasedCutCounted (s : State) (l : LaneId) (u : State) : State :=
  if ((s.lane l).queue.filter fun r => r.state == .released).any partlySent then u.bump (.lane l .cutLines) else u

theorem cutReleased_eq (ls : List LaneId) (s : State) : cutReleased ls s = State.each (releasedCutCounted s) ls s := rfl

/-- The cut lines are counted lane after lane, in the order of the list (log 28). -/
theorem discards_agree (distinct : ls.Nodup) (hl : ∀ l ∈ ls, v.lane l = s.lane l) (h : Agree u v) :
    Agree (State.each (releasedCutCounted s) ls u) (State.each discardReleased ls v) := by
  induction ls generalizing u v with
  | nil => exact h
  | cons l ls ih =>
    obtain ⟨fresh_l, rest⟩ := List.nodup_cons.mp distinct
    refine ih rest (fun k hk => ?_) ?_
    · have other : k ≠ l := by rintro rfl; exact fresh_l hk
      rw [discardReleased_lane_other other, hl k (List.mem_cons_of_mem l hk)]
    · have settled : Agree v ((v.modLane l laneCut).addFree (releasedTiles v l)) := ⟨⟨rfl, rfl, rfl⟩, rfl⟩
      rw [discardReleased_eq, hl l List.mem_cons_self]
      exact (countCut_recording l _).agree (h.trans settled)

end Sys2Proof.Proofs

/-! # Proofs: the carry assessment (O38) -/

namespace Sys2Proof.Proofs

open Sys2Proof.Machine Sys2Proof.Claims

variable {s : State}

/-! ### The ladder gives every entry a state -/

theorem length_thinLevel (p : Fin 4) (c16 : Nat) (xs : List (Entry × CarryState)) (t : Nat) :
    (thinLevel p c16 xs t).1.length = xs.length := by
  induction xs generalizing t with
  | nil => rfl
  | cons x xs ih => unfold thinLevel; split <;> simp [ih]

theorem length_shedLevel (p : Fin 4) (c16 : Nat) (xs : List (Entry × CarryState)) (t : Nat) :
    (shedLevel p c16 xs t).1.length = xs.length := by
  induction xs generalizing t with
  | nil => rfl
  | cons x xs ih => unfold shedLevel; split <;> simp [ih]

theorem length_ladderLevel (c16 : Nat) (x : List (Entry × CarryState) × Nat) (p : Fin 4) :
    (ladderLevel c16 x p).1.length = x.1.length := by
  unfold ladderLevel
  simp only
  split
  · exact length_thinLevel ..
  · rw [length_shedLevel, length_thinLevel]

theorem length_ladder (es : List Entry) (c16 : Nat) : (ladder es c16).1.length = es.length := by
  simp [ladder, length_ladderLevel]

/-! ### The runtimes, the lanes newly SHED and the entries that differ -/

theorem boundCredit_eq (q : Nat) (c : CarryState) (credit : Nat) :
    boundCredit q c credit = if c = .shed then 0 else min credit (effShare q c + 15) := by
  cases c <;> rfl

/-- Entries, states and runtimes side by side end with the shortest list. -/
theorem zip_zip_eq_nil {es : List Entry} {cs : List CarryState} {rs : List Runtime}
    (short : ∀ e es' c cs' r rs', es = e :: es' → cs = c :: cs' → rs = r :: rs' → False) : es.zip (cs.zip rs) = [] := by
  match es, cs, rs with
  | [], _, _ | _ :: _, [], _ | _ :: _, _ :: _, [] => rfl
  | e :: es', c :: cs', r :: rs' => exact (short e es' c cs' r rs' rfl rfl rfl).elim

theorem settleRuntimes_eq (es : List Entry) (cs : List CarryState) (rs : List Runtime) : settleRuntimes es cs rs =
    (es.zip (cs.zip rs)).map fun x => { credit := boundCredit x.1.share x.2.1 x.2.2.credit, carry := x.2.1 } := by
  fun_induction settleRuntimes with
  | case1 e es c cs r rs ih => simp [ih]
  | case2 es cs rs short => rw [zip_zip_eq_nil short, List.map_nil]

theorem newlyShed_eq (es : List Entry) (cs : List CarryState) (rs : List Runtime) : newlyShed es cs rs =
    ((es.zip (cs.zip rs)).filter fun x => x.2.1 == .shed && x.2.2.carry != .shed).map fun x => x.1.lane := by
  fun_induction newlyShed with
  | case1 e es c cs r rs h ih => simp [h, ih]
  | case2 e es c cs r rs h ih => simp [h, ih]
  | case3 es cs rs short => rw [zip_zip_eq_nil short]; rfl

theorem newlyShed_sublist (es : List Entry) (cs : List CarryState) (rs : List Runtime) :
    (newlyShed es cs rs).Sublist (es.map fun e => e.lane) := by
  fun_induction newlyShed with
  | case1 e es c cs r rs h ih => exact ih.cons_cons e.lane
  | case2 e es c cs r rs h ih => exact ih.cons e.lane
  | case3 => exact List.nil_sublist _

theorem changedCount_eq (cs : List CarryState) (rs : List Runtime) :
    changedCount cs rs = ((cs.zip rs).filter fun x => x.1 != x.2.carry).length := by
  induction cs generalizing rs with
  | nil => rfl
  | cons c cs ih =>
    cases rs with
    | nil => rfl
    | cons r rs =>
      rw [changedCount, ih, List.zip_cons_cons, List.filter_cons]
      by_cases h : c = r.carry
      · simp [h]
      · simp [h]; omega

/-! ### The assessment -/

/-- The ladder against the class as applied (R103, R104). -/
def assessed (s : State) : List CarryState × Nat := ladder (activeBank s).entries (capacity16 s.builder.classApplied)

/-- The total of the ladder exceeds the capacity (R105). -/
def exceeding (s : State) : Bool := decide (capacity16 s.builder.classApplied < (assessed s).2)

/-- The lanes whose entries the assessment newly sheds, in plan order (R106; log 28). -/
def shedLanes (s : State) : List LaneId := newlyShed (activeBank s).entries (assessed s).1 s.builder.runtimes

/-- The builder's part of the assessment: carry states, credits, flag and total (R105, R106). -/
def builderAssessed (s : State) : State :=
  s.modBuilder fun b =>
    { b with
      runtimes := settleRuntimes (activeBank s).entries (assessed s).1 s.builder.runtimes
      overcommit := exceeding s
      assessedTotal := (assessed s).2 }

/-- The events of the assessment (R108, R109). -/
def assessEvents (s : State) : List (EventKind × Nat × Nat) :=
  let changed := changedCount (assessed s).1 s.builder.runtimes
  (if changed = 0 then [] else [(.carryChanged, classNum s.builder.classApplied, changed)]) ++
    if exceeding s && !s.builder.overcommit then [(.overcommit, classNum s.builder.classApplied, (assessed s).2)] else []

theorem raiseAll_only (es : List (EventKind × Nat × Nat)) (s : State) :
    OnlyChanges [.events, .notices, .counters] s (raiseAll es s) := by
  induction es generalizing s with
  | nil => exact .refl _ _
  | cons e es ih => exact (raise_only _ _ _ _).trans (ih _)

/-- The builder settled and the lanes newly SHED cut, before the events are raised. -/
def assessDiscarded (s : State) : State := State.each discardReleased (shedLanes s) (builderAssessed s)

theorem assessDiscarded_builder (s : State) : (assessDiscarded s).builder = (builderAssessed s).builder :=
  each_only discardReleased_only _ _ .builder (by decide)

theorem assessDiscarded_applied (s : State) : (assessDiscarded s).builder.classApplied = s.builder.classApplied := by
  rw [assessDiscarded_builder]; rfl

/-- CARRY_CHANGED raised, if any entry differs (R108). -/
def carryRaised (s : State) : State :=
  if changedCount (assessed s).1 s.builder.runtimes = 0 then assessDiscarded s
  else (assessDiscarded s).raise .carryChanged (classNum (assessDiscarded s).builder.classApplied)
    (changedCount (assessed s).1 s.builder.runtimes)

theorem carryRaised_applied (s : State) : (carryRaised s).builder.classApplied = s.builder.classApplied := by
  unfold carryRaised
  split
  · exact assessDiscarded_applied s
  · exact Eq.trans (congrArg Builder.classApplied (raise_only _ _ _ _ .builder (by decide))) (assessDiscarded_applied s)

theorem assess_eq_carryRaised (s : State) : assess s = if exceeding s = true ∧ s.builder.overcommit = false then
    (carryRaised s).raise .overcommit (classNum (carryRaised s).builder.classApplied) (assessed s).2 else carryRaised s := by
  unfold assess carryRaised assessDiscarded shedLanes builderAssessed exceeding assessed
  rfl

/-- An assessment raises its events once the builder and the lanes are settled. -/
theorem assess_eq (s : State) : assess s = raiseAll (assessEvents s) (assessDiscarded s) := by
  have carry : carryRaised s = raiseAll (if changedCount (assessed s).1 s.builder.runtimes = 0 then [] else
      [(.carryChanged, classNum s.builder.classApplied, changedCount (assessed s).1 s.builder.runtimes)])
        (assessDiscarded s) := by
    rw [carryRaised, assessDiscarded_applied]
    split <;> rfl
  rw [assess_eq_carryRaised, carryRaised_applied, assessEvents, raiseAll_append, ← carry]
  cases exceeding s <;> cases s.builder.overcommit <;> simp [raiseAll]

theorem assess_only_records (s : State) : OnlyChanges [.events, .notices, .counters] (assessDiscarded s) (assess s) := by
  rw [assess_eq]
  exact raiseAll_only _ _

theorem assess_builder (s : State) : (assess s).builder = (builderAssessed s).builder :=
  Eq.trans (assess_only_records s .builder (by decide)) (assessDiscarded_builder s)

theorem assess_records (distinct : ((activeBank s).entries.map fun e => e.lane).Nodup) :
    SameRecords (raiseAll (assessEvents s) (cutReleased (shedLanes s) s)) (assess s) := by
  have cuts : Agree (cutReleased (shedLanes s) s) (assessDiscarded s) := by
    rw [cutReleased_eq]
    exact discards_agree (distinct.sublist (newlyShed_sublist ..)) (fun _ _ => rfl) ⟨⟨rfl, rfl, rfl⟩, rfl⟩
  rw [assess_eq]
  exact ((raiseAll_recording (assessEvents s)).agree cuts).1

/-- Settles O38: the runtimes by the entries side by side with the ladder's states, the lanes and the records by the discards of
the lanes newly SHED. -/
theorem theAssessmentSettlesAndRaises : Obligations.TheAssessmentSettlesAndRaises := by
  intro s es rs k cs total exceeds news changed aligned distinct t
  have builder : t.builder = (builderAssessed s).builder := assess_builder s
  have runtimes : t.builder.runtimes = settleRuntimes es cs rs := congrArg Builder.runtimes builder
  have cut : shedLanes s = news.map fun x => x.1.lane := newlyShed_eq es cs rs
  have events : changedCount cs rs = changed := changedCount_eq cs rs
  have only := assess_only_records s
  refine ⟨assess_only s, ?_, ?_, fun i e r c he hr hc => ?_, ?_, ?_⟩
  · rw [builder]; rfl
  · rw [runtimes, settleRuntimes_eq, List.length_map, List.length_zip, List.length_zip, length_ladder, aligned]
    simp
  · have side_by_side : (es.zip (cs.zip rs))[i]? = some (e, c, r) := by
      rw [List.getElem?_zip_eq_some, List.getElem?_zip_eq_some]
      exact ⟨he, hc, hr⟩
    rw [runtimes, settleRuntimes_eq, List.getElem?_map, side_by_side, Option.map_some, boundCredit_eq]
  · rw [← cut]
    exact discards_loseReleased (v := builderAssessed s) ⟨rfl, rfl⟩ ⟨only .lanes (by decide), only .poolFree (by decide)⟩
  · rw [← cut, ← events]
    exact assess_records distinct

end Sys2Proof.Proofs

/-! # Proofs: the plan switch (O39)

The switch that is due in its stages: the banks and the runtimes, the discards of the lanes that the new plan does not name, the
record, and the echo watch. Then the tick that takes it. -/

namespace Sys2Proof.Proofs

open Sys2Proof.Machine Sys2Proof.Claims

variable {s t u v : State} {d : Due}

/-! ### The banks -/

/-- The pending bank ACTIVE, the other emptied, the hold freed (R56, R61, R118). -/
def banksSwitched (p : PlanStore) : PlanStore :=
  { bankSet (bankSet p (otherId p) { bankGet p (otherId p) with role := .active }) (activeId p) .emptied with
    hold := .free, due := none }

/-- The plan store once the switch has been taken and the echo watch set (R118, R124). -/
def planSwitched (up : Bool) (p : PlanStore) : PlanStore :=
  { banksSwitched p with echo := if up then .running 0 0 none else .idle }

section
variable (p : PlanStore)

theorem activeId_banksSwitched : activeId (banksSwitched p) = otherId p := by
  by_cases h : p.bank0.role = .active <;>
    simp [banksSwitched, otherId, activeId, otherBank, bankSet, bankGet, Bank.emptied, h]

theorem bankGet_banksSwitched_other :
    bankGet (banksSwitched p) (otherId p) = { bankGet p (otherId p) with role := .active } := by
  unfold banksSwitched otherId
  cases activeId p <;> rfl

theorem bankGet_banksSwitched_active : bankGet (banksSwitched p) (activeId p) = .emptied := by
  unfold banksSwitched otherId
  cases activeId p <;> rfl

theorem banksSwitched_countdown : (banksSwitched p).countdown = p.countdown := by
  unfold banksSwitched otherId
  cases activeId p <;> rfl

theorem banksSwitched_baseStanding : (banksSwitched p).baseStanding = p.baseStanding := by
  unfold banksSwitched otherId
  cases activeId p <;> rfl

theorem banksSwitched_noted (lost : Bool) :
    banksSwitched { p with lossTaken := lost } = { banksSwitched p with lossTaken := lost } := by
  have id : activeId { p with lossTaken := lost } = activeId p := rfl
  unfold banksSwitched otherId
  rw [id]
  cases activeId p <;> rfl

end

/-- The active bank is read from the two banks alone. -/
theorem activeBank_congr (h : t.plan.bank0 = s.plan.bank0) (k : t.plan.bank1 = s.plan.bank1) : activeBank t = activeBank s := by
  have id : activeId t.plan = activeId s.plan := by rw [activeId, activeId, h]
  rw [activeBank, activeBank, id]
  cases activeId s.plan
  · exact h
  · exact k

/-- The new plan is in force. -/
theorem activeBank_switched (h : t.plan = banksSwitched s.plan) : activeBank t = { pendingBank s with role := .active } := by
  rw [activeBank, h, activeId_banksSwitched, bankGet_banksSwitched_other]
  rfl

theorem activeBank_planSwitched {up : Bool} (h : t.plan = planSwitched up s.plan) :
    activeBank t = { pendingBank s with role := .active } := by
  rw [← activeBank_switched (t := s.modPlan banksSwitched) rfl]
  exact activeBank_congr (by rw [h]; rfl) (by rw [h]; rfl)

/-! ### The runtimes -/

theorem runtimeFor_named {es : List Entry} {rs : List Runtime} {j : Nat} {f : Entry} {x : Runtime}
    (distinct : (es.map (·.lane)).Nodup) (hf : es[j]? = some f) (hx : rs[j]? = some x) :
    runtimeFor es rs f.lane = some x := by
  induction es generalizing rs j with
  | nil => simp at hf
  | cons e es ih =>
    obtain ⟨fresh_lane, rest⟩ := List.nodup_cons.mp distinct
    cases rs with
    | nil => simp at hx
    | cons r rs =>
      cases j with
      | zero =>
        obtain rfl := Option.some.inj hf
        rw [runtimeFor, if_pos rfl]
        exact hx
      | succ j =>
        have later : f.lane ∈ es.map (·.lane) := List.mem_map_of_mem (List.mem_of_getElem? hf)
        have other : e.lane ≠ f.lane := by
          intro same
          exact fresh_lane (same.symm ▸ later : e.lane ∈ es.map (·.lane))
        rw [runtimeFor, if_neg other]
        exact ih rest hf hx

theorem runtimeFor_unnamed {es : List Entry} {l : LaneId} (rs : List Runtime) (h : ∀ e ∈ es, e.lane ≠ l) :
    runtimeFor es rs l = none := by
  induction es generalizing rs with
  | nil => rfl
  | cons e es ih =>
    cases rs with
    | nil => rfl
    | cons r rs =>
      rw [runtimeFor, if_neg (h e List.mem_cons_self)]
      exact ih rs fun f hf => h f (List.mem_cons_of_mem e hf)

/-- The runtimes of the new plan before they are bounded (R86). -/
def switchRuntimes (s : State) : List Runtime :=
  (pendingBank s).entries.map (startRuntime (activeBank s).entries s.builder.runtimes)

theorem carryOver_eq (e : Entry) (r : Runtime) : carryOver e r =
    let c := if e.priority = 0 ∧ r.carry = .shed then CarryState.carried else r.carry
    { carry := c, credit := if c = .shed then 0 else min r.credit (effShare e.share c + 15) } := by
  rw [carryOver, boundCredit_eq]

/-! ### The stages of the switch -/

/-- The lanes that lose their released tiles (R87). -/
def switchAbsent (s : State) : List LaneId := absentLanes (activeBank s).entries (pendingBank s).entries

/-- The banks and the runtimes of the new plan (R86, R111, R118). -/
def switchSettled (s : State) : State :=
  (s.modPlan banksSwitched).modBuilder fun b =>
    { b with
      runtimes := if isUp s then switchRuntimes s
        else List.zipWith carryOver (pendingBank s).entries (switchRuntimes s) }

/-- The absent lanes cut (R87). -/
def switchDiscarded (s : State) : State := State.each discardReleased (switchAbsent s) (switchSettled s)

/-- PLAN_ACTIVE raised (R118). -/
def switchRaised (s : State) : State :=
  (switchDiscarded s).raise .planActive (holderNum s.plan.hold) (pendingBank s).epoch.toNat

theorem switchRaised_only (s : State) :
    OnlyChanges [.lanes, .poolFree, .events, .notices, .counters] (switchSettled s) (switchRaised s) :=
  (each_only discardReleased_only _ _).andThen (raise_only _ _ _ _)

theorem isUp_switchRaised (s : State) : isUp (switchRaised s) = isUp s := by
  have link : (switchRaised s).link = s.link := switchRaised_only s .link (by decide)
  rw [isUp, isUp, link]

theorem takeSwitch_due (due : s.plan.due = some d) : takeSwitch s =
    if isUp s then startEcho (if d = .uncounted then announceInForce (switchRaised s) else switchRaised s)
    else stopEcho (switchRaised s) := by
  rw [← isUp_switchRaised s]
  unfold takeSwitch
  rw [due]
  rfl

/-- What follows the record touches the echo watch and the announcement queue alone. -/
theorem takeSwitch_only_raised (due : s.plan.due = some d) :
    OnlyChanges [.plan, .announce] (switchRaised s) (takeSwitch s) := by
  rw [takeSwitch_due due]
  split
  · split
    · exact (announceInForce_only _).andThen (modPlan_only _ _)
    · exact (modPlan_only _ _).wider
  · exact (modPlan_only _ _).wider

theorem takeSwitch_plan (due : s.plan.due = some d) : (takeSwitch s).plan = planSwitched (isUp s) s.plan := by
  have raised : (switchRaised s).plan = banksSwitched s.plan := switchRaised_only s .plan (by decide)
  have announced : (announceInForce (switchRaised s)).plan = banksSwitched s.plan :=
    Eq.trans (announceInForce_only _ .plan (by decide)) raised
  rw [takeSwitch_due due, planSwitched]
  cases isUp s with
  | false => simp [stopEcho, raised]
  | true => by_cases h : d = .uncounted <;> simp [startEcho, raised, announced, h]

theorem takeSwitch_builder (due : s.plan.due = some d) : (takeSwitch s).builder = (switchSettled s).builder :=
  Eq.trans (takeSwitch_only_raised due .builder (by decide)) (switchRaised_only s .builder (by decide))

theorem takeSwitch_announce (due : s.plan.due = some d) : (takeSwitch s).control.announce =
    if isUp s = true ∧ d = .uncounted then announcement .inForce (pendingBank s).entries.length else s.control.announce := by
  have raised : (switchRaised s).control.announce = s.control.announce := switchRaised_only s .announce (by decide)
  have new : activeBank (switchRaised s) = { pendingBank s with role := .active } :=
    activeBank_switched (switchRaised_only s .plan (by decide))
  have announced : (announceInForce (switchRaised s)).control.announce =
      announcement .inForce (pendingBank s).entries.length := by
    rw [announceInForce, new]
    rfl
  rw [takeSwitch_due due]
  cases isUp s with
  | false => simp [stopEcho, raised]
  | true => by_cases h : d = .uncounted <;> simp [startEcho, raised, announced, h]

theorem takeSwitch_loseReleased (due : s.plan.due = some d) : LoseReleased (fun l => l ∈ switchAbsent s) s (takeSwitch s) := by
  have only := takeSwitch_only_raised due
  have raised : OnlyChanges [.events, .notices, .counters] (switchDiscarded s) (switchRaised s) := raise_only _ _ _ _
  exact discards_loseReleased (v := switchSettled s) ⟨rfl, rfl⟩
    ⟨Eq.trans (only .lanes (by decide)) (raised .lanes (by decide)),
      Eq.trans (only .poolFree (by decide)) (raised .poolFree (by decide))⟩

theorem takeSwitch_records (due : s.plan.due = some d) (distinct : ((activeBank s).entries.map (·.lane)).Nodup) :
    SameRecords ((cutReleased (switchAbsent s) s).raise .planActive (holderNum s.plan.hold) (pendingBank s).epoch.toNat)
      (takeSwitch s) := by
  have cuts : Agree (cutReleased (switchAbsent s) s) (switchDiscarded s) := by
    rw [cutReleased_eq]
    exact discards_agree (distinct.filter _) (fun _ _ => rfl) ⟨⟨rfl, rfl, rfl⟩, rfl⟩
  have raised := (raise_recording .planActive (holderNum s.plan.hold) (pendingBank s).epoch.toNat).agree cuts
  exact (raised.trans (agree_of_only (takeSwitch_only_raised due))).1

/-! ### The tick that takes the switch -/

theorem prepareUp_plan (switched : Bool) (s : State) : (prepareUp switched s).plan = s.plan := by
  have applied : (applyDueClass s).plan = s.plan := applyDueClass_only s .plan (by decide)
  have assessed (v : State) (c : Prop) [Decidable c] : (if c then assess v else v).plan = v.plan := by
    split
    · exact assess_only v .plan (by decide)
    · rfl
  unfold prepareUp
  rw [modBuilder_plan, assessed, modBuilder_plan, applied]

/-- With no countdown on its way, the hand-over of the first frame of a plan leaves the plan store and the frame alone. -/
theorem handOverUp_switched (h : s.plan.countdown = 0) : OnlyChanges [.link, .sides] s (handOverUp true s) := by
  have counted : countdownTick s = s := if_pos h
  rw [handOverUp, counted]
  exact ((classCountTick_only s).andThen (rs := [.link, .sides]) (modLink_only _ _)).andThen (auxLeave_only _)

/-- The state whose frame a frame event in UP builds: prepared, with its slots filled (R83). -/
def carriageFilled (switched : Bool) (s : State) : State := (fill (prepareUp switched s)).2

/-- The frame that a frame event in UP builds (R82). -/
def carriageBuilt (switched : Bool) (s : State) : Frame :=
  let w := carriageFilled switched s
  { header := { headerOf w w.builder.classApplied with
      classCountdown := classCountOf w.link.proposal, classField := upClassMessage w.link }
    control := (chooseCell w).1
    aux := auxTaken w
    slots := (fill (prepareUp switched s)).1 }

theorem carriageFrame_eq (switched : Bool) (s : State) : carriageFrame switched s =
    handOverUp switched (handToLine (carriageBuilt switched s) (chooseCell (carriageFilled switched s)).2) := rfl

theorem carriageFilled_plan (switched : Bool) (s : State) : (carriageFilled switched s).plan = s.plan :=
  Eq.trans (fill_only _ .plan (by decide)) (prepareUp_plan switched s)

theorem handToLine_plan (f : Frame) (s : State) : (handToLine f s).plan = s.plan := rfl

theorem handToLine_lineOut (f : Frame) (s : State) : (handToLine f s).lineOut = some f := rfl

/-- The header shows the plan store as it stands when the slots have been filled (R98, R99). -/
theorem carriageBuilt_header (switched : Bool) (s : State) :
    (carriageBuilt switched s).header.activeEpoch = (activeBank (carriageFilled switched s)).epoch ∧
    (carriageBuilt switched s).header.planCountdown = (carriageFilled switched s).plan.countdown ∧
    (carriageBuilt switched s).header.pendingEpoch = if (carriageFilled switched s).plan.countdown = 0 then none
      else some (pendingBank (carriageFilled switched s)).epoch := ⟨rfl, rfl, rfl⟩

/-- The frame that is built within the event of a switch shows the new plan, and leaves the plan store as it is. -/
theorem carriageFrame_switched (h : s.plan.countdown = 0) : (carriageFrame true s).plan = s.plan ∧
    ∃ f, (carriageFrame true s).lineOut = some f ∧ f.header.activeEpoch = (activeBank s).epoch ∧
      f.header.planCountdown = 0 ∧ f.header.pendingEpoch = none := by
  have filled : (carriageFilled true s).plan = s.plan := carriageFilled_plan true s
  have bank : activeBank (carriageFilled true s) = activeBank s := activeBank_congr (by rw [filled]) (by rw [filled])
  have chosen : (chooseCell (carriageFilled true s)).2.plan = (carriageFilled true s).plan :=
    chooseCell_only _ .plan (by decide)
  have sent : (handToLine (carriageBuilt true s) (chooseCell (carriageFilled true s)).2).plan = s.plan := by
    rw [handToLine_plan, chosen, filled]
  have handed : OnlyChanges [.link, .sides] (handToLine (carriageBuilt true s) (chooseCell (carriageFilled true s)).2)
      (carriageFrame true s) := by
    rw [carriageFrame_eq]
    exact handOverUp_switched (by rw [sent, h])
  have plan : (carriageFrame true s).plan = _ := handed .plan (by decide)
  have line : (carriageFrame true s).lineOut = _ := handed .lineOut (by decide)
  obtain ⟨epoch, count, pending⟩ := carriageBuilt_header true s
  exact ⟨plan.trans sent, carriageBuilt true s, line.trans (handToLine_lineOut _ _), by rw [epoch, bank],
    by rw [count, filled, h], by rw [pending, filled, if_pos h]⟩

/-- A drop with the hold FREE stops the echo watch and notes the loss (R63, R124; log 10). -/
theorem dropToDown_plan_free (cause : Cause) (h : s.plan.hold = .free) :
    (dropToDown cause s).plan = { s.plan with lossTaken := true, echo := .idle } := by
  let v := enterDown (recordDrop cause s)
  have plan_v : v.plan = s.plan := raise_only _ _ _ _ .plan (by decide)
  have kept : planLoss v = v := by rw [planLoss, plan_v, h]
  have relay (w : State) : (discardRelayOut w).plan = w.plan := discardRelayOut_only w .plan (by decide)
  rw [dropToDown, lossOfLink, relay]
  simp only [stopEcho, modPlan_plan, modControl_plan, noteLoss_plan]
  rw [kept, plan_v]

theorem frameEvent_up (up : s.link.state = .up) :
    frameEvent s = carriageFrame s.plan.due.isSome (takeSwitch (countFrame s)) := by
  unfold frameEvent
  simp only [takeSwitch_countFrame_link, up]

/-- The frame event of a tick that takes a switch in UP. -/
theorem tickFramed_switched (up : s.link.state = .up) (due : s.plan.due = some d) (h : s.plan.countdown = 0) :
    (tickFramed s).link.state = .up ∧ (tickFramed s).plan = planSwitched true { s.plan with lossTaken := false } ∧
    ∃ f, (tickFramed s).lineOut = some f ∧ f.header.activeEpoch = (pendingBank s).epoch ∧ f.header.planCountdown = 0 ∧
      f.header.pendingEpoch = none := by
  let u := s.modPlan fun p => { p with lossTaken := false }
  have plan : (countFrame u).plan = u.plan := countFrame_only u .plan (by decide)
  have link : (countFrame u).link = s.link := countFrame_only u .link (by decide)
  have due_u : (countFrame u).plan.due = some d := by rw [plan]; exact due
  have up_u : isUp (countFrame u) = true := by rw [isUp_iff, link, up]
  have switched : (takeSwitch (countFrame u)).plan = planSwitched true u.plan := by rw [takeSwitch_plan due_u, up_u, plan]
  have bank : activeBank (takeSwitch (countFrame u)) = { pendingBank u with role := .active } :=
    activeBank_planSwitched (s := u) switched
  have framed : tickFramed s = carriageFrame true (takeSwitch (countFrame u)) := by
    have switching : u.plan.due.isSome = true := by rw [show u.plan.due = some d from due]; rfl
    rw [← switching]
    exact frameEvent_up (s := u) up
  have countdown : (takeSwitch (countFrame u)).plan.countdown = 0 := by
    rw [switched]
    exact (banksSwitched_countdown u.plan).trans h
  obtain ⟨stands, f, line, epoch, count, pending⟩ := carriageFrame_switched countdown
  refine ⟨?_, ?_, f, ?_, ?_, count, pending⟩
  · obtain same | ⟨train, -⟩ := (tickFramed_supervised s).state
    · exact same.trans up
    · rw [modPlan_link, up] at train
      cases train
  · rw [framed, stands, switched]; rfl
  · rw [framed, line]
  · rw [epoch, bank]; rfl

/-- The verdict of a tick in UP with the hold FREE: the plan store stands but for the note of a loss, and the echo watch runs
on while the link is UP (R63, R124). -/
theorem superviseTick_plan_free (up : u.link.state = .up) (free : u.plan.hold = .free) :
    ∃ lost, (superviseTick u).plan =
      { u.plan with lossTaken := lost, echo := if (superviseTick u).link.state = .up then u.plan.echo else .idle } := by
  have only : OnlyChanges [.events, .notices, .counters] (takeVerdict u.rx.period u) (superviseTick u) := by
    rw [superviseTick_eq]
    exact ite_only (bump_only _ _) (.refl _ _)
  have plan : (superviseTick u).plan = (takeVerdict u.rx.period u).plan := only .plan (by decide)
  have link : (superviseTick u).link = (takeVerdict u.rx.period u).link := only .link (by decide)
  rw [plan, link]
  cases met : criterionMet u.link.criteria (superviseWith u.rx.period u.link.supervision) with
  | none =>
    rw [takeVerdict_none met, modLink_link, if_pos up]
    exact ⟨u.plan.lossTaken, rfl⟩
  | some cause =>
    rw [takeVerdict_some met, dropToDown_plan_free (s := u.modLink _) _ free, (dropToDown_link cause _).1, if_neg (by decide)]
    exact ⟨true, rfl⟩

/-- What a reference tick leaves of the plan store and of the line after the verdict. -/
theorem referenceTick_judged (s : State) : (referenceTick s).plan = (tickJudged s).plan ∧
    (referenceTick s).link = (tickJudged s).link ∧ (referenceTick s).lineOut = (tickFramed s).lineOut :=
  have rest := referenceTick_only_judged s
  ⟨rest .plan (by decide), rest .link (by decide),
    Eq.trans (rest .lineOut (by decide)) (tickJudged_only s .lineOut (by decide))⟩

/-- A reference tick that takes a switch in UP: the new plan is in force after the verdict, and its frame has gone to the line. -/
theorem referenceTick_switched (up : s.link.state = .up) (due : s.plan.due = some d) (h : s.plan.countdown = 0) :
    (∃ lost, (referenceTick s).plan = { banksSwitched s.plan with
      lossTaken := lost, echo := if (referenceTick s).link.state = .up then .running 0 0 none else .idle }) ∧
    ∃ f, (referenceTick s).lineOut = some f ∧ f.header.activeEpoch = (pendingBank s).epoch ∧ f.header.planCountdown = 0 ∧
      f.header.pendingEpoch = none := by
  obtain ⟨framed_up, framed_plan, framed⟩ := tickFramed_switched up due h
  obtain ⟨plan, link, line⟩ := referenceTick_judged s
  have judged_eq : tickJudged s = superviseTick (tickFramed s) := if_pos (by rw [up]; rfl)
  obtain ⟨lost, supervised⟩ := superviseTick_plan_free framed_up (by rw [framed_plan]; rfl)
  refine ⟨⟨lost, ?_⟩, by rwa [line]⟩
  rw [plan, link, judged_eq, supervised, framed_plan, planSwitched, banksSwitched_noted]
  rfl

/-! ### The statement -/

/-- A switch that is due is a COUNTING hold's, with its countdown at an end (R116). -/
theorem counting_of_due (law : PlanLaw s.plan) (due : s.plan.due = some d) :
    (∃ o, s.plan.hold = .counting o) ∧ s.plan.countdown = 0 := by
  obtain ⟨-, -, -, -, ended, hold⟩ := law
  refine ⟨?_, ended (by rw [due]; rfl)⟩
  cases h : s.plan.hold with
  | free => rw [h] at hold; exact absurd (hold.2.2.symm.trans due) (by simp)
  | held o ms => rw [h] at hold; exact absurd (hold.2.2.2.symm.trans due) (by simp)
  | counting o => exact ⟨o, rfl⟩

theorem nodup_activeBank (law : PlanLaw s.plan) : ((activeBank s).entries.map (·.lane)).Nodup := by
  obtain ⟨bank0, bank1, -⟩ := law
  unfold activeBank
  cases activeId s.plan
  · exact bank0.2
  · exact bank1.2

theorem switchSettled_runtimes (s : State) : (switchSettled s).builder.runtimes =
    if s.link.state = .up then switchRuntimes s else List.zipWith carryOver (pendingBank s).entries (switchRuntimes s) := by
  simp only [← isUp_iff]
  rfl

theorem length_switchSettled_runtimes (s : State) :
    (switchSettled s).builder.runtimes.length = (pendingBank s).entries.length := by
  rw [switchSettled_runtimes]
  split <;> simp [switchRuntimes]

/-- The old entry of the lane, if the old plan has one, gives the runtime that an entry starts with (R86). -/
theorem startRuntime_named {es : List Entry} {rs : List Runtime} {j : Nat} {e f : Entry} {x : Runtime}
    (distinct : (es.map (·.lane)).Nodup) (hf : es[j]? = some f) (hx : rs[j]? = some x) (same : f.lane = e.lane) :
    startRuntime es rs e = x := by
  rw [startRuntime, ← same, runtimeFor_named distinct hf hx, Option.getD_some]

theorem startRuntime_unnamed {es : List Entry} (rs : List Runtime) {e : Entry} (h : ∀ f ∈ es, f.lane ≠ e.lane) :
    startRuntime es rs e = { credit := 0, carry := .carried } := by
  rw [startRuntime, runtimeFor_unnamed rs h, Option.getD_none]

/-- Settles O39: the switch by its stages, the tick by its frame event and its verdict. -/
theorem aSwitchMakesThePendingBankActive : Obligations.ASwitchMakesThePendingBankActive := by
  refine ⟨fun s d o law due hold => ?_, fun s live up law switching => ?_⟩
  · intro old new absent t
    have plan : t.plan = planSwitched (isUp s) s.plan := takeSwitch_plan due
    have builder : t.builder = (switchSettled s).builder := takeSwitch_builder due
    have records := takeSwitch_records due (nodup_activeBank law)
    rw [hold] at records
    refine ⟨takeSwitch_only s, activeBank_planSwitched plan, ?_, ?_, ?_, ?_, ?_, ?_, ?_, fun i e he => ?_,
      takeSwitch_loseReleased due, records, fun up => ?_, fun down => ?_⟩
    · rw [plan]; exact bankGet_banksSwitched_active s.plan
    · rw [plan]; rfl
    · rw [plan]; rfl
    · rw [plan]; exact (banksSwitched_countdown s.plan).trans (counting_of_due law due).2
    · rw [plan]; exact banksSwitched_baseStanding s.plan
    · rw [builder]; rfl
    · rw [builder]; exact length_switchSettled_runtimes s
    · have start : (switchRuntimes s)[i]? = some (startRuntime old.entries s.builder.runtimes e) := by
        rw [switchRuntimes, List.getElem?_map, he, Option.map_some]
      refine ⟨startRuntime old.entries s.builder.runtimes e, fun j f x hf hx same => ?_, fun unnamed => ?_, fun up => ?_,
        fun down => ?_⟩
      · exact startRuntime_named (nodup_activeBank law) hf hx same
      · exact startRuntime_unnamed _ unnamed
      · rw [builder, switchSettled_runtimes, if_pos up, start]
      · rw [builder, switchSettled_runtimes, if_neg down, List.getElem?_zipWith, he, start]
        exact congrArg some (carryOver_eq e _)
    · have is_up := (isUp_iff s).mpr up
      refine ⟨by rw [plan, is_up]; rfl, ?_⟩
      simpa [is_up] using takeSwitch_announce due
    · have not_up : isUp s = false := by rwa [← Bool.not_eq_true, isUp_iff]
      refine ⟨by rw [plan, not_up]; rfl, ?_⟩
      simpa [not_up] using takeSwitch_announce due
  · obtain ⟨d, due⟩ := Option.ne_none_iff_exists'.mp switching
    obtain ⟨-, countdown⟩ := counting_of_due law due
    obtain ⟨⟨lost, plan⟩, f, line, epoch, count, pending⟩ := referenceTick_switched up due countdown
    have row : exec .referenceTick s = .next (referenceTick s) := by
      rw [exec, execReferenceTick, whenLive, if_neg (by simpa using live)]
    have new : activeBank (referenceTick s) = { pendingBank s with role := .active } := by
      rw [← activeBank_switched (t := s.modPlan banksSwitched) rfl]
      exact activeBank_congr (by rw [plan]; rfl) (by rw [plan]; rfl)
    refine ⟨referenceTick s, f, row, line, new, ?_, ?_, ?_, epoch, count, pending, ?_⟩
    · rw [plan]; rfl
    · rw [plan]; rfl
    · rw [plan]; exact (banksSwitched_countdown s.plan).trans countdown
    · rw [plan]

end Sys2Proof.Proofs

/-! # Proofs: the fill (O40)

Both passes of the fill give the slots that are free one after another to the entries of the plan, and each entry's slots carry
the front of its lane's released tiles. So the proof has three parts: what sending n tiles does to one queue, what sending does
lane after lane, and what the passes give to each entry. -/

namespace Sys2Proof.Proofs

open Sys2Proof.Machine Sys2Proof.Claims

variable {s t u : State} {l k : LaneId}

/-! ### The front of a queue -/

/-- A released tile with its line as far as a label shows it: how many tiles of the line have gone before does not count. -/
def shownTile (x : LineRecord × Tile) : LineRecord × Tile := ({ x.1 with carried := 0 }, x.2)

/-- What is left of a queue when the first n of its released tiles have been sent (R27, R28). -/
structure FrontSent (n : Nat) (q q' : List LineRecord) : Prop where
  released : (releasedList q').map shownTile = ((releasedList q).drop n).map shownTile
  others : (q'.filter fun r => r.state != .released) = q.filter fun r => r.state != .released
  unsent : (∀ r ∈ q, r.state = .released → r.carried < r.tiles.length) →
    ∀ r ∈ q', r.state = .released → r.carried < r.tiles.length

theorem FrontSent.refl (q : List LineRecord) : FrontSent 0 q q := ⟨rfl, rfl, id⟩

theorem FrontSent.trans {m n : Nat} {p q r : List LineRecord} (h : FrontSent m p q) (k : FrontSent n q r) :
    FrontSent (m + n) p r where
  released := by
    rw [k.released, List.map_drop, h.released, ← List.map_drop, List.drop_drop]
  others := k.others.trans h.others
  unsent hp := k.unsent (h.unsent hp)

/-- The tiles alone, without their lines. -/
theorem FrontSent.tiles {n : Nat} {q q' : List LineRecord} (h : FrontSent n q q') :
    (releasedList q').map (·.2) = ((releasedList q).drop n).map (·.2) := by
  have shown (xs : List (LineRecord × Tile)) : xs.map (·.2) = (xs.map shownTile).map (·.2) := by
    rw [List.map_map]; rfl
  rw [shown, h.released, ← shown]

theorem FrontSent.length {n : Nat} {q q' : List LineRecord} (h : FrontSent n q q') :
    (releasedList q').length = (releasedList q).length - n := by
  simpa using congrArg List.length h.released

theorem releasedList_append (p q : List LineRecord) : releasedList (p ++ q) = releasedList p ++ releasedList q := by
  simp [releasedList]

theorem releasedList_cons_released {r : LineRecord} (h : r.state = .released) (q : List LineRecord) :
    releasedList (r :: q) = (r.tiles.drop r.carried).map (fun t => (r, t)) ++ releasedList q := by
  simp [releasedList, h]

theorem releasedList_eq_nil_iff (q : List LineRecord) :
    releasedList q = [] ↔ ∀ r ∈ q, r.state = .released → r.tiles.length ≤ r.carried := by
  simp [releasedList, List.flatMap_eq_nil_iff]

/-- The number of released tiles (R27). -/
theorem releasedIn_eq_length (q : List LineRecord) : releasedIn q = (releasedList q).length := by
  simp only [releasedIn, releasedList, List.length_flatMap, List.length_map, List.length_drop]
  rfl

theorem takeFront_none {q : List LineRecord} (h : takeFront q = none) : releasedList q = [] := by
  rw [releasedList_eq_nil_iff]
  induction q with
  | nil => simp
  | cons x q ih =>
    rw [takeFront] at h
    split at h
    · cases h
    · rename_i front
      intro r hr released
      obtain rfl | hr := List.mem_cons.mp hr
      · simpa [released] using front
      · exact ih (Option.map_eq_none_iff.mp h) r hr released

theorem takeFront_tile {q q' : List LineRecord} {r : LineRecord} {t : Tile} (h : takeFront q = some (r, t, q')) :
    r.tiles[r.carried]? = some t := by
  induction q generalizing q' with
  | nil => cases h
  | cons x q ih =>
    rw [takeFront] at h
    split at h
    · rename_i front
      obtain ⟨rfl, rfl, -⟩ : x = r ∧ _ = t ∧ _ := by simpa using h
      exact (Option.ite_none_right_eq_some.mp front).2
    · obtain ⟨⟨y, z, rest⟩, found, same⟩ := Option.map_eq_some_iff.mp h
      obtain ⟨rfl, rfl, -⟩ : y = r ∧ z = t ∧ _ := by simpa using same
      exact ih found

/-- A line that has sent a tile: it stays with one tile fewer, or leaves with its last (R28). -/
def lineSent (r : LineRecord) : List LineRecord :=
  if r.carried + 1 = r.tiles.length then [] else [{ r with carried := r.carried + 1 }]

theorem releasedList_lineSent {r : LineRecord} (h : r.state = .released) :
    (releasedList (lineSent r)).map shownTile = (r.tiles.drop (r.carried + 1)).map fun t => shownTile (r, t) := by
  unfold lineSent
  split
  · rename_i last
    rw [last, List.drop_length]
    rfl
  · simp [releasedList, h, shownTile, Function.comp_def]

/-- The front tile with its line, and the queue after it has been sent. -/
theorem takeFront_sent {q q' : List LineRecord} {r : LineRecord} {t : Tile} (h : takeFront q = some (r, t, q')) :
    (∃ rest, releasedList q = (r, t) :: rest) ∧ FrontSent 1 q q' := by
  have tile := takeFront_tile h
  obtain ⟨before, after, rfl, released, carried, sent_before, (rfl : q' = before ++ lineSent r ++ after)⟩ := takeFront_some h
  have front : releasedList (before ++ r :: after) =
      (r, t) :: ((r.tiles.drop (r.carried + 1)).map (fun t => (r, t)) ++ releasedList after) := by
    have this_tile : r.tiles[r.carried] = t := Option.some.inj ((List.getElem?_eq_getElem carried).symm.trans tile)
    rw [releasedList_append, (releasedList_eq_nil_iff before).mpr sent_before, releasedList_cons_released released,
      List.drop_eq_getElem_cons carried, this_tile]
    rfl
  refine ⟨⟨_, front⟩, ?_, ?_, fun unsent x hx is_released => ?_⟩
  · rw [front, releasedList_append, releasedList_append, (releasedList_eq_nil_iff before).mpr sent_before]
    simp [releasedList_lineSent released, Function.comp_def]
  · have gone : (lineSent r).filter (fun r => r.state != .released) = [] := by
      unfold lineSent
      split <;> simp [released]
    simp [gone, released]
  · obtain hx | hx | hx : x ∈ before ∨ x ∈ lineSent r ∨ x ∈ after := by simpa [or_assoc] using hx
    · exact unsent x (by simp [hx]) is_released
    · unfold lineSent at hx
      split at hx
      · cases hx
      · obtain rfl := List.mem_singleton.mp hx
        change r.carried + 1 < r.tiles.length
        omega
    · exact unsent x (by simp [hx]) is_released

/-! ### Tiles of one lane -/

/-- The slots that tiles of a lane make for an entry (R94, R95). -/
def slotsOf (slot : TileLabel → List Sample → DataSlot) (entry : Nat) (l : LaneId) (d : Descriptor)
    (ts : List (LineRecord × Tile)) : List DataSlot :=
  ts.map fun x => slot (labelled entry l (tiles d) x) x.2.samples

section
variable (slot : TileLabel → List Sample → DataSlot) (entry : Nat) (d : Descriptor)

/-- A slot shows of a line what has been sent of it no more than how much. -/
theorem slotsOf_congr {ts us : List (LineRecord × Tile)} (h : ts.map shownTile = us.map shownTile) :
    slotsOf slot entry l d ts = slotsOf slot entry l d us := by
  have shown (xs : List (LineRecord × Tile)) : slotsOf slot entry l d xs = slotsOf slot entry l d (xs.map shownTile) := by
    rw [slotsOf, slotsOf, List.map_map]
    rfl
  rw [shown, h, ← shown]

/-- The front n released tiles of a lane have been sent, each returning its buffer (R28). -/
structure Sends (l : LaneId) (n : Nat) (s t : State) : Prop where
  pool : t.poolFree = s.poolFree + n
  queue : FrontSent n (s.lane l).queue (t.lane l).queue
  others : ∀ k, k ≠ l → t.lane k = s.lane k

theorem sendTiles_sends {n : Nat} (h : n ≤ (releasedList (s.lane l).queue).length) :
    (sendTiles slot entry l n s).1 = slotsOf slot entry l (s.lane l).desc ((releasedList (s.lane l).queue).take n) ∧
    Sends l n s (sendTiles slot entry l n s).2 := by
  induction n generalizing s with
  | zero => exact ⟨by simp [sendTiles, slotsOf], rfl, .refl _, fun _ _ => rfl⟩
  | succ n ih =>
    cases found : takeFront (s.lane l).queue with
    | none =>
      rw [takeFront_none found] at h
      cases h
    | some x =>
      obtain ⟨r, t, q⟩ := x
      obtain ⟨⟨rest, front⟩, sent⟩ := takeFront_sent found
      let u := (s.modLane l fun x => { x with queue := q }).addFree 1
      have lane : u.lane l = { s.lane l with queue := q } := lane_requeue l q 1 s
      have later : (releasedList q).map shownTile = rest.map shownTile := by
        rw [sent.released, front]; rfl
      have enough : n ≤ (releasedList (u.lane l).queue).length := by
        rw [lane, sent.length]
        omega
      obtain ⟨slots, sends⟩ := ih enough
      have eq : sendTiles slot entry l (n + 1) s =
          (slot (labelled entry l (tiles (s.lane l).desc) (r, t)) t.samples :: (sendTiles slot entry l n u).1,
            (sendTiles slot entry l n u).2) := by
        rw [sendTiles, found]
        rfl
      rw [eq]
      refine ⟨?_, ?_, ?_, fun k hk => ?_⟩
      · have rest_slots := slotsOf_congr slot entry (s.lane l).desc (l := l)
          (show ((releasedList q).take n).map shownTile = (rest.take n).map shownTile by
            rw [List.map_take, later, List.map_take])
        rw [slots, lane, rest_slots, front]
        rfl
      · rw [sends.pool]
        change s.poolFree + 1 + n = _
        omega
      · have queue := sends.queue
        rw [lane] at queue
        rw [Nat.add_comm]
        exact sent.trans queue
      · rw [sends.others k hk]
        exact lane_requeue_other hk _ 1 s

end

/-! ### Tiles of several lanes -/

/-- The lanes send tiles one after another, for the entries from an index on. -/
def sendLanes (slot : TileLabel → List Sample → DataSlot) : Nat → List LaneId → List Nat → State → List DataSlot × State
  | i, l :: ls, n :: ns, s =>
    let sent := sendTiles slot i l n s
    let rest := sendLanes slot (i + 1) ls ns sent.2
    (sent.1 ++ rest.1, rest.2)
  | _, _, _, s => ([], s)

theorem sendLanes_thins (slot : TileLabel → List Sample → DataSlot) (i : Nat) (ls : List LaneId) (ns : List Nat) (s : State) :
    Thins s (sendLanes slot i ls ns s).2 := by
  induction ls generalizing i ns s with
  | nil => exact .refl s
  | cons l ls ih =>
    cases ns with
    | nil => exact .refl s
    | cons n ns => exact (sendTiles_thins slot i l n s).trans (ih (i + 1) ns _)

theorem sendLanes_only (slot : TileLabel → List Sample → DataSlot) (i : Nat) (ls : List LaneId) (ns : List Nat) (s : State) :
    OnlyChanges [.lanes, .poolFree] s (sendLanes slot i ls ns s).2 := by
  induction ls generalizing i ns s with
  | nil => exact .refl _ s
  | cons l ls ih =>
    cases ns with
    | nil => exact .refl _ s
    | cons n ns => exact (sendTiles_only slot i l n s).trans (ih (i + 1) ns _)

/-- What the lanes of a list, one after another, have sent. -/
structure LanesSend (slot : TileLabel → List Sample → DataSlot) (i : Nat) (ls : List LaneId) (ns : List Nat) (s : State)
    (x : List DataSlot × State) : Prop where
  length : x.1.length = ns.sum
  pool : x.2.poolFree = s.poolFree + ns.sum
  others : ∀ k, k ∉ ls → x.2.lane k = s.lane k
  sent : ∀ (j : Nat) (l : LaneId) (n : Nat), ls[j]? = some l → ns[j]? = some n →
    (x.1.drop (ns.take j).sum).take n =
      slotsOf slot (i + j) l (s.lane l).desc ((releasedList (s.lane l).queue).take n) ∧
    FrontSent n (s.lane l).queue (x.2.lane l).queue

/-- Every lane of the list has the tiles that it is to send. -/
structure HaveTiles (s : State) (ls : List LaneId) (ns : List Nat) : Prop where
  length : ns.length = ls.length
  enough : ∀ (j : Nat) (l : LaneId) (n : Nat), ls[j]? = some l → ns[j]? = some n → n ≤ (releasedList (s.lane l).queue).length

theorem sendLanes_send (slot : TileLabel → List Sample → DataSlot) (i : Nat) {ls : List LaneId} {ns : List Nat}
    (distinct : ls.Nodup) (h : HaveTiles s ls ns) : LanesSend slot i ls ns s (sendLanes slot i ls ns s) := by
  induction ls generalizing i ns s with
  | nil =>
    obtain rfl := List.eq_nil_of_length_eq_zero h.length
    exact ⟨rfl, rfl, fun _ _ => rfl, fun j l n hl => by simp at hl⟩
  | cons l ls ih =>
    obtain ⟨fresh_l, rest_distinct⟩ := List.nodup_cons.mp distinct
    obtain ⟨n, ns, rfl⟩ := List.exists_cons_of_length_eq_add_one h.length
    have enough : n ≤ (releasedList (s.lane l).queue).length := h.enough 0 l n rfl rfl
    obtain ⟨slots, sends⟩ := sendTiles_sends slot i enough
    let u := (sendTiles slot i l n s).2
    have same (k : LaneId) (hk : k ∈ ls) : u.lane k = s.lane k :=
      sends.others k (by rintro rfl; exact fresh_l hk)
    have rest := ih (i + 1) rest_distinct (s := u) (ns := ns) ⟨by simpa using h.length, fun j k m hk hm => by
      rw [same k (List.mem_of_getElem? hk)]
      exact h.enough (j + 1) k m hk hm⟩
    have length : (sendTiles slot i l n s).1.length = n := by
      rw [slots, slotsOf, List.length_map, List.length_take, Nat.min_eq_left enough]
    have eq : sendLanes slot i (l :: ls) (n :: ns) s =
        ((sendTiles slot i l n s).1 ++ (sendLanes slot (i + 1) ls ns u).1, (sendLanes slot (i + 1) ls ns u).2) := rfl
    rw [eq]
    refine ⟨?_, ?_, fun k hk => ?_, fun j k m hk hm => ?_⟩
    · rw [List.length_append, length, rest.length, List.sum_cons]
    · rw [rest.pool, sends.pool, List.sum_cons, Nat.add_assoc]
    · obtain ⟨other, later⟩ := not_or.mp (mt List.mem_cons.mpr hk)
      rw [rest.others k later, sends.others k other]
    · cases j with
      | zero =>
        obtain ⟨rfl, rfl⟩ : l = k ∧ n = m := ⟨Option.some.inj hk, Option.some.inj hm⟩
        refine ⟨(List.take_left' length).trans slots, ?_⟩
        rw [rest.others l fresh_l]
        exact sends.queue
      | succ j =>
        obtain ⟨given, sent⟩ := rest.sent j k m hk hm
        rw [same k (List.mem_of_getElem? hk)] at given sent
        refine ⟨?_, sent⟩
        rw [List.take_succ_cons, List.sum_cons, ← List.drop_drop, List.drop_left' length, given, Nat.add_right_comm]
        rfl

/-! ### Slots given one entry after another -/

/-- The slots that the entries get, each as many as it wants of those that are still free (R88, R92). -/
def allot : Nat → List Nat → List Nat
  | _, [] => []
  | free, w :: ws => min w free :: allot (free - min w free) ws

@[simp] theorem length_allot (free : Nat) (ws : List Nat) : (allot free ws).length = ws.length := by
  induction ws generalizing free with
  | nil => rfl
  | cons w ws ih => simp [allot, ih]

theorem sum_allot_le (free : Nat) (ws : List Nat) : (allot free ws).sum ≤ free := by
  induction ws generalizing free with
  | nil => exact Nat.zero_le _
  | cons w ws ih =>
    have rest := ih (free - min w free)
    simp only [allot, List.sum_cons]
    omega

theorem getElem?_allot {free : Nat} {ws : List Nat} {i w : Nat} (h : ws[i]? = some w) :
    (allot free ws)[i]? = some (min w (free - ((allot free ws).take i).sum)) := by
  induction ws generalizing free i with
  | nil => simp at h
  | cons v ws ih =>
    cases i with
    | zero =>
      obtain rfl := Option.some.inj h
      rfl
    | succ i =>
      have rest := ih (free := free - min v free) (i := i) h
      simp only [allot, List.getElem?_cons_succ, List.take_succ_cons, List.sum_cons, rest, Nat.sub_sub]

/-! ### The two passes -/

/-- The credit of an entry that is not SHED, with its effective share added under the cap (R88, step 1). -/
def creditOf (e : Entry) (r : Runtime) : Nat := min (r.credit + effShare e.share r.carry) (effShare e.share r.carry + 15)

/-- The slots that an entry could use in the credit pass: its credit in whole slots, as far as its lane's tiles go (R88). -/
def creditWant (waiting : LaneId → Nat) (e : Entry) (r : Runtime) : Nat :=
  if r.carry = .shed then 0 else min (creditOf e r / 16) (waiting e.lane)

/-- The runtime of an entry that has been granted n slots (R88, step 3). -/
def afterGrant (x : Entry × Runtime) (n : Nat) : Runtime :=
  if x.2.carry = .shed then x.2 else { x.2 with credit := creditOf x.1 x.2 - 16 * n }

/-- The slots that an entry could use in the drain pass (R92). -/
def drainWant (waiting : LaneId → Nat) (e : Entry) (r : Runtime) : Nat :=
  if e.drain = true ∧ r.carry ≠ .shed then waiting e.lane else 0

theorem creditWant_le (waiting : LaneId → Nat) (e : Entry) (r : Runtime) : creditWant waiting e r ≤ waiting e.lane := by
  unfold creditWant
  split <;> omega

theorem drainWant_le (waiting : LaneId → Nat) (e : Entry) (r : Runtime) : drainWant waiting e r ≤ waiting e.lane := by
  unfold drainWant
  split <;> omega

section
variable {es : List Entry} {rs : List Runtime} {e : Entry} {r : Runtime} (i free : Nat) {waiting : LaneId → Nat}

theorem creditPass_cons (hw : waiting e.lane = releasedTiles s e.lane) : creditPass i (e :: es) (r :: rs) free s =
    let n := min (creditWant waiting e r) free
    let sent := sendTiles .data i e.lane n s
    let rest := creditPass (i + 1) es rs (free - n) sent.2
    { rest with slots := sent.1 ++ rest.slots, runtimes := afterGrant (e, r) n :: rest.runtimes } := by
  rw [creditPass, creditWant, hw]
  by_cases shed : r.carry = .shed
  · simp [shed, afterGrant, sendTiles]
  · simp [shed, afterGrant, grantOf, creditOf, Nat.min_assoc]

theorem drainPass_cons (hw : waiting e.lane = releasedTiles s e.lane) : drainPass i (e :: es) (r :: rs) free s =
    let n := min (drainWant waiting e r) free
    let sent := sendTiles .drain i e.lane n s
    let rest := drainPass (i + 1) es rs (free - n) sent.2
    (sent.1 ++ rest.1, rest.2) := by
  rw [drainPass, drainWant, hw]
  by_cases drains : e.drain = true ∧ r.carry ≠ .shed
  · simp [drains]
  · simp [drains, sendTiles]

/-- Tiles of one lane leave the released tiles of the other entries' lanes as they are. -/
theorem waiting_after_sends {n : Nat} (sends : Sends e.lane n s t) (distinct : ((e :: es).map (·.lane)).Nodup)
    (hw : ∀ f ∈ e :: es, waiting f.lane = releasedTiles s f.lane) (f : Entry) (hf : f ∈ es) :
    waiting f.lane = releasedTiles t f.lane := by
  have fresh_lane : e.lane ∉ es.map (·.lane) := (List.nodup_cons.mp distinct).1
  have other : f.lane ≠ e.lane := by
    intro same
    exact fresh_lane (same ▸ List.mem_map_of_mem hf)
  rw [hw f (List.mem_cons_of_mem e hf), releasedTiles, releasedTiles, sends.others f.lane other]

/-- What an entry is given, its lane can send. -/
theorem sends_of_want {w : Nat} (slot : TileLabel → List Sample → DataSlot) (hw : waiting e.lane = releasedTiles s e.lane)
    (hn : w ≤ waiting e.lane) : Sends e.lane (min w free) s (sendTiles slot i e.lane (min w free) s).2 := by
  refine (sendTiles_sends slot i ?_).2
  rw [← releasedIn_eq_length]
  exact (Nat.min_le_left w free).trans (hn.trans_eq hw)

/-- The credit pass gives slots to the entries and has their lanes send, one after another. -/
theorem creditPass_eq (aligned : rs.length = es.length) (distinct : (es.map (·.lane)).Nodup)
    (hw : ∀ e ∈ es, waiting e.lane = releasedTiles s e.lane) :
    let ns := allot free (List.zipWith (creditWant waiting) es rs)
    let sent := sendLanes .data i (es.map (·.lane)) ns s
    creditPass i es rs free s =
      { slots := sent.1, runtimes := List.zipWith afterGrant (es.zip rs) ns, free := free - ns.sum, state := sent.2 } := by
  induction es generalizing i rs free s with
  | nil =>
    obtain rfl := List.eq_nil_of_length_eq_zero aligned
    rfl
  | cons e es ih =>
    obtain ⟨r, rs, rfl⟩ := List.exists_cons_of_length_eq_add_one aligned
    have here := hw e List.mem_cons_self
    have sends := sends_of_want i free DataSlot.data here (creditWant_le waiting e r)
    have rest := ih (i + 1) (free - min (creditWant waiting e r) free) (by simpa using aligned)
      (List.nodup_cons.mp distinct).2 (waiting_after_sends sends distinct hw)
    simp only at rest
    simp [creditPass_cons i free here, rest, sendLanes, allot, Nat.sub_sub]

theorem drainPass_eq (aligned : rs.length = es.length) (distinct : (es.map (·.lane)).Nodup)
    (hw : ∀ e ∈ es, waiting e.lane = releasedTiles s e.lane) :
    let ns := allot free (List.zipWith (drainWant waiting) es rs)
    let sent := sendLanes .drain i (es.map (·.lane)) ns s
    drainPass i es rs free s = (sent.1, free - ns.sum, sent.2) := by
  induction es generalizing i rs free s with
  | nil =>
    obtain rfl := List.eq_nil_of_length_eq_zero aligned
    rfl
  | cons e es ih =>
    obtain ⟨r, rs, rfl⟩ := List.exists_cons_of_length_eq_add_one aligned
    have here := hw e List.mem_cons_self
    have sends := sends_of_want i free DataSlot.drain here (drainWant_le waiting e r)
    have rest := ih (i + 1) (free - min (drainWant waiting e r) free) (by simpa using aligned)
      (List.nodup_cons.mp distinct).2 (waiting_after_sends sends distinct hw)
    simp only at rest
    simp [drainPass_cons i free here, rest, sendLanes, allot, Nat.sub_sub]

end

/-! ### A part of a list of slots -/

theorem take_drop_append_left {α : Type} {xs : List α} (ys : List α) {a n : Nat} (h : a + n ≤ xs.length) :
    ((xs ++ ys).drop a).take n = (xs.drop a).take n := by
  rw [List.drop_append_of_le_length (by omega), List.take_append_of_le_length (by rw [List.length_drop]; omega)]

theorem sum_take_add_le {ns : List Nat} {i n : Nat} (h : ns[i]? = some n) : (ns.take i).sum + n ≤ ns.sum := by
  have upto : (ns.take (i + 1)).sum = (ns.take i).sum + n := by rw [List.take_add_one, h, List.sum_append]; simp
  have split_sum := List.sum_take_add_sum_drop ns (i + 1)
  omega

/-! ### The fill -/

/-- The slots that the credit pass grants, entry by entry (R88). -/
def grants (s : State) : List Nat :=
  allot (dataSlots s.builder.classApplied)
    (List.zipWith (creditWant (releasedTiles s)) (activeBank s).entries s.builder.runtimes)

/-- The DATA slots, and the state once they have been given. -/
def granted (s : State) : List DataSlot × State := sendLanes .data 0 ((activeBank s).entries.map (·.lane)) (grants s) s

/-- The runtimes that the credit pass leaves. -/
def grantedRuntimes (s : State) : List Runtime :=
  List.zipWith afterGrant ((activeBank s).entries.zip s.builder.runtimes) (grants s)

/-- The slots that the drain pass gives, entry by entry (R92). -/
def drains (s : State) : List Nat :=
  allot (dataSlots s.builder.classApplied - (grants s).sum)
    (List.zipWith (drainWant (releasedTiles (granted s).2)) (activeBank s).entries (grantedRuntimes s))

/-- The DRAIN slots, and the state once they have been given. -/
def drained (s : State) : List DataSlot × State :=
  sendLanes .drain 0 ((activeBank s).entries.map (·.lane)) (drains s) (granted s).2

theorem getElem?_of_aligned {α β : Type} {xs : List α} {ys : List β} {j : Nat} {x : α} (aligned : ys.length = xs.length)
    (hx : xs[j]? = some x) : ∃ y, ys[j]? = some y := by
  obtain ⟨within, -⟩ := List.getElem?_eq_some_iff.mp hx
  exact ⟨_, List.getElem?_eq_getElem (aligned ▸ within)⟩

theorem haveTiles_allot {es : List Entry} {rs : List Runtime} {want : Entry → Runtime → Nat} (free : Nat)
    (aligned : rs.length = es.length) (h : ∀ e r, want e r ≤ releasedTiles s e.lane) :
    HaveTiles s (es.map (·.lane)) (allot free (List.zipWith want es rs)) where
  length := by simp [aligned]
  enough j l n hl hn := by
    rw [List.getElem?_map, Option.map_eq_some_iff] at hl
    obtain ⟨e, he, rfl⟩ := hl
    obtain ⟨r, hr⟩ := getElem?_of_aligned aligned he
    have wanted : (List.zipWith want es rs)[j]? = some (want e r) := by rw [List.getElem?_zipWith, he, hr]
    rw [getElem?_allot wanted] at hn
    obtain rfl := Option.some.inj hn
    rw [← releasedIn_eq_length]
    exact (Nat.min_le_left _ _).trans (h e r)

section
variable (aligned : s.builder.runtimes.length = (activeBank s).entries.length)
include aligned

theorem length_grants : (grants s).length = (activeBank s).entries.length := by simp [grants, aligned]

theorem length_grantedRuntimes : (grantedRuntimes s).length = (activeBank s).entries.length := by
  simp [grantedRuntimes, length_grants aligned, aligned]

theorem length_drains : (drains s).length = (activeBank s).entries.length := by
  simp [drains, length_grantedRuntimes aligned]

variable (distinct : ((activeBank s).entries.map (·.lane)).Nodup)
include distinct

theorem fill_eq : fill s =
    ((granted s).1 ++ (drained s).1 ++
        List.replicate (dataSlots s.builder.classApplied - (grants s).sum - (drains s).sum) .pad,
      (drained s).2.modBuilder fun b => { b with runtimes := grantedRuntimes s }) := by
  have credit : creditPass 0 (activeBank s).entries s.builder.runtimes (dataSlots s.builder.classApplied) s =
      { slots := (granted s).1, runtimes := grantedRuntimes s,
        free := dataSlots s.builder.classApplied - (grants s).sum, state := (granted s).2 } :=
    creditPass_eq 0 _ aligned distinct fun _ _ => rfl
  have drain : drainPass 0 (activeBank s).entries (grantedRuntimes s)
      (dataSlots s.builder.classApplied - (grants s).sum) (granted s).2 =
      ((drained s).1, dataSlots s.builder.classApplied - (grants s).sum - (drains s).sum, (drained s).2) :=
    drainPass_eq 0 _ (length_grantedRuntimes aligned) distinct fun _ _ => rfl
  simp only [fill, credit, drain]

theorem granted_send : LanesSend .data 0 ((activeBank s).entries.map (·.lane)) (grants s) s (granted s) :=
  sendLanes_send _ _ distinct (haveTiles_allot _ aligned fun e r => creditWant_le _ e r)

theorem drained_send :
    LanesSend .drain 0 ((activeBank s).entries.map (·.lane)) (drains s) (granted s).2 (drained s) :=
  sendLanes_send _ _ distinct (haveTiles_allot _ (length_grantedRuntimes aligned) fun e r => drainWant_le _ e r)

/-- Every queue has sent the front of its released tiles. -/
theorem fill_front (l : LaneId) : ∃ n, FrontSent n (s.lane l).queue ((fill s).2.lane l).queue := by
  have credit := granted_send aligned distinct
  have drain := drained_send aligned distinct
  rw [fill_eq aligned distinct]
  change ∃ n, FrontSent n (s.lane l).queue ((drained s).2.lane l).queue
  by_cases named : l ∈ (activeBank s).entries.map (·.lane)
  · obtain ⟨j, hj⟩ := List.mem_iff_getElem?.mp named
    obtain ⟨n, hn⟩ := getElem?_of_aligned (ys := grants s) (by simp [length_grants aligned]) hj
    obtain ⟨m, hm⟩ := getElem?_of_aligned (ys := drains s) (by simp [length_drains aligned]) hj
    exact ⟨n + m, (credit.sent j l n hj hn).2.trans (drain.sent j l m hj hm).2⟩
  · rw [drain.others l named, credit.others l named]
    exact ⟨0, .refl _⟩

/-! #### One entry -/

variable {i n m : Nat} {e : Entry} {r : Runtime} (he : (activeBank s).entries[i]? = some e)
  (hr : s.builder.runtimes[i]? = some r) (hn : (grants s)[i]? = some n)

omit aligned distinct in
include he hr hn in
/-- The grant of an entry (R88, step 2). -/
theorem grant_eq : n = min (creditWant (releasedTiles s) e r)
    (dataSlots s.builder.classApplied - ((grants s).take i).sum) := by
  have wanted : (List.zipWith (creditWant (releasedTiles s)) (activeBank s).entries s.builder.runtimes)[i]? =
      some (creditWant (releasedTiles s) e r) := by rw [List.getElem?_zipWith, he, hr]
  exact Option.some.inj (hn.symm.trans (getElem?_allot wanted))

omit aligned distinct in
include he hr hn in
theorem getElem?_grantedRuntimes : (grantedRuntimes s)[i]? = some (afterGrant (e, r) n) := by
  have pair : ((activeBank s).entries.zip s.builder.runtimes)[i]? = some (e, r) :=
    List.getElem?_zip_eq_some.mpr ⟨he, hr⟩
  rw [grantedRuntimes, List.getElem?_zipWith, pair, hn]

include he hn in
/-- The lane of an entry after its grant: its front tiles are in its slots (R94, R95). -/
theorem grant_sent : ((granted s).1.drop ((grants s).take i).sum).take n =
      slotsOf .data i e.lane (s.lane e.lane).desc ((releasedList (s.lane e.lane).queue).take n) ∧
    FrontSent n (s.lane e.lane).queue ((granted s).2.lane e.lane).queue := by
  have lane : ((activeBank s).entries.map (·.lane))[i]? = some e.lane := by rw [List.getElem?_map, he]; rfl
  have sent := (granted_send aligned distinct).sent i e.lane n lane hn
  rwa [Nat.zero_add] at sent

include he hr hn in
/-- What drain gives an entry (R92). -/
theorem drain_eq (hm : (drains s)[i]? = some m) : m =
    min (if e.drain = true ∧ r.carry ≠ .shed then releasedTiles s e.lane - n else 0)
      (dataSlots s.builder.classApplied - (grants s).sum - ((drains s).take i).sum) := by
  have waiting : releasedTiles (granted s).2 e.lane = releasedTiles s e.lane - n := by
    rw [releasedTiles, releasedTiles, releasedIn_eq_length, releasedIn_eq_length]
    exact (grant_sent aligned distinct he hn).2.length
  have carry : (afterGrant (e, r) n).carry = r.carry := by unfold afterGrant; split <;> rfl
  have wanted : (List.zipWith (drainWant (releasedTiles (granted s).2)) (activeBank s).entries (grantedRuntimes s))[i]? =
      some (if e.drain = true ∧ r.carry ≠ .shed then releasedTiles s e.lane - n else 0) := by
    rw [List.getElem?_zipWith, he, getElem?_grantedRuntimes he hr hn]
    simp only [drainWant, carry, waiting]
  exact Option.some.inj (hm.symm.trans (getElem?_allot wanted))

include he hn in
theorem drain_sent (hm : (drains s)[i]? = some m) : ((drained s).1.drop ((drains s).take i).sum).take m =
      slotsOf .drain i e.lane (s.lane e.lane).desc (((releasedList (s.lane e.lane).queue).drop n).take m) ∧
    FrontSent (n + m) (s.lane e.lane).queue ((drained s).2.lane e.lane).queue := by
  have lane : ((activeBank s).entries.map (·.lane))[i]? = some e.lane := by rw [List.getElem?_map, he]; rfl
  obtain ⟨slots, sent⟩ := (drained_send aligned distinct).sent i e.lane m lane hm
  have front := (grant_sent aligned distinct he hn).2
  have desc : ((granted s).2.lane e.lane).desc = (s.lane e.lane).desc :=
    (sendLanes_thins _ _ _ _ s).desc e.lane
  refine ⟨?_, front.trans sent⟩
  rw [slots, desc, Nat.zero_add]
  refine slotsOf_congr _ _ _ ?_
  rw [List.map_take, front.released, List.map_take]

include he hn in
/-- The slots of an entry's grant carry the front of its lane's released tiles (R94, R95). -/
theorem fill_data : ((fill s).1.drop ((grants s).take i).sum).take n =
    slotsOf .data i e.lane (s.lane e.lane).desc ((releasedList (s.lane e.lane).queue).take n) := by
  have within := sum_take_add_le hn
  rw [← (granted_send aligned distinct).length] at within
  rw [fill_eq aligned distinct, List.append_assoc, take_drop_append_left _ within]
  exact (grant_sent aligned distinct he hn).1

include he hn in
/-- The slots that drain gives an entry carry the tiles behind those of its grant (R92). -/
theorem fill_drain (hm : (drains s)[i]? = some m) :
    ((fill s).1.drop ((grants s).sum + ((drains s).take i).sum)).take m =
      slotsOf .drain i e.lane (s.lane e.lane).desc (((releasedList (s.lane e.lane).queue).drop n).take m) := by
  have within := sum_take_add_le hm
  rw [← (drained_send aligned distinct).length] at within
  rw [fill_eq aligned distinct, List.append_assoc, ← List.drop_drop,
    List.drop_left' (granted_send aligned distinct).length, take_drop_append_left _ within]
  exact (drain_sent aligned distinct he hn hm).1

end

/-! ### The statement -/

theorem effShare_eq {q : Nat} {c : CarryState} (h : c ≠ .shed) : effShare q c = if c = .thinned then (q + 1) / 2 else q := by
  cases c with
  | carried | thinned => rfl
  | shed => exact absurd rfl h

/-- Settles O40: the two passes as slots given one entry after another, and the queues by their fronts. -/
theorem theFillGrantsWholeSlots : Obligations.TheFillGrantsWholeSlots := by
  intro s es rs cap share tilesOf aligned distinct slots t
  have credit := granted_send aligned distinct
  have drain := drained_send aligned distinct
  have filled := fill_eq aligned distinct
  have slots_eq : slots = (granted s).1 ++ ((drained s).1 ++ List.replicate (cap - (grants s).sum - (drains s).sum) .pad) := by
    rw [← List.append_assoc]
    exact congrArg Prod.fst filled
  have state_eq : t = (drained s).2.modBuilder fun b => { b with runtimes := grantedRuntimes s } := congrArg Prod.snd filled
  have grants_fit : (grants s).sum ≤ cap := sum_allot_le _ _
  have drains_fit : (drains s).sum ≤ cap - (grants s).sum := sum_allot_le _ _
  have builder : (drained s).2.builder = s.builder :=
    ((sendLanes_only _ _ _ _ s).trans (sendLanes_only _ _ _ _ (granted s).2)) .builder (by decide)
  refine ⟨grants s, drains s, length_grants aligned, length_drains aligned, fun i e r n m he hr hn hm => ?_, ?_, ?_, ?_, ?_, ?_,
    ?_, fill_only s, fun l => ?_⟩
  · intro credit_r waiting free
    have waits : releasedTiles s e.lane = waiting := releasedIn_eq_length _
    have grant : n = min (creditWant (releasedTiles s) e r) (cap - ((grants s).take i).sum) := grant_eq he hr hn
    have given : m = min (if e.drain = true ∧ r.carry ≠ .shed then releasedTiles s e.lane - n else 0) free :=
      drain_eq aligned distinct he hr hn hm
    have runtime : t.builder.runtimes[i]? = some (afterGrant (e, r) n) := by
      rw [state_eq]
      exact getElem?_grantedRuntimes he hr hn
    refine ⟨fun shed => ?_, fun kept => ?_, ⟨?_, ?_⟩, ?_⟩
    · rw [creditWant, if_pos shed, Nat.zero_min] at grant
      rw [if_neg (by simp [shed]), Nat.zero_min] at given
      exact ⟨grant, given, by rw [runtime, afterGrant, if_pos shed]⟩
    · have share_eq : effShare e.share r.carry = share e r := effShare_eq kept
      have credit_eq : creditOf e r = credit_r := by rw [creditOf, share_eq]
      refine ⟨?_, ?_, ?_⟩
      · rw [grant, creditWant, if_neg kept, credit_eq, waits, Nat.min_assoc]
      · rw [given, waits]
        by_cases drains_e : e.drain = true
        · rw [if_pos ⟨drains_e, kept⟩, if_pos drains_e]
        · rw [if_neg (fun h => drains_e h.1), if_neg drains_e, Nat.zero_min]
      · rw [runtime, afterGrant, if_neg kept, credit_eq]
    · exact fill_data aligned distinct he hn
    · exact fill_drain aligned distinct he hn hm
    · rw [state_eq]
      exact (drain_sent aligned distinct he hn hm).2.tiles
  · rw [slots_eq]
    simp only [List.length_append, credit.length, drain.length, List.length_replicate]
    omega
  · omega
  · have before : ((granted s).1 ++ (drained s).1).length = (grants s).sum + (drains s).sum := by
      rw [List.length_append, credit.length, drain.length]
    rw [slots_eq, ← List.append_assoc, List.drop_left' before]
    exact fun x hx => List.eq_of_mem_replicate hx
  · rw [state_eq, modBuilder_poolFree, drain.pool, credit.pool]
  · rw [state_eq, modBuilder_builder, builder]
  · rw [state_eq, modBuilder_builder]
    exact length_grantedRuntimes aligned
  · obtain ⟨n, front⟩ := fill_front aligned distinct l
    refine ⟨(fill_thins s).with_queue l, front.others, fun unnamed => ?_, front.unsent⟩
    have absent : l ∉ es.map (·.lane) := by simpa using unnamed
    rw [state_eq]
    change ((drained s).2.lane l).queue = _
    rw [drain.others l absent, credit.others l absent]

end Sys2Proof.Proofs

/-! # Proofs: positions (O35)

When a position is ahead of another, behind it or equal to it (R40). -/

namespace Sys2Proof.Proofs

open Sys2Proof.Machine Sys2Proof.Claims

variable {p c : Position}

/-- Positions are equal at no frame difference and the same line. -/
theorem position_eq_iff : p = c ↔ (p.frame - c.frame).toNat = 0 ∧ p.line = c.line := by
  have frames : (p.frame - c.frame).toNat = 0 ↔ p.frame = c.frame := by
    rw [← BitVec.toNat_inj, BitVec.toNat_sub]; omega
  rw [frames]
  cases p; cases c; simp

/-- The difference the other way round. -/
theorem frameDifference_flip (p c : Position) :
    (c.frame - p.frame).toNat = (16 - (p.frame - c.frame).toNat) % 16 := by
  simp only [BitVec.toNat_sub]; omega

theorem judge_ahead_iff : judge p c = .ahead ↔
    (1 ≤ (p.frame - c.frame).toNat ∧ (p.frame - c.frame).toNat ≤ 7) ∨ (p.frame - c.frame).toNat = 0 ∧ c.line < p.line := by
  simp only [judge]
  generalize (p.frame - c.frame).toNat = d
  split_ifs <;> simp <;> omega

theorem judge_behind_iff : judge p c = .behind ↔
    8 ≤ (p.frame - c.frame).toNat ∨ (p.frame - c.frame).toNat = 0 ∧ p.line < c.line := by
  simp only [judge]
  generalize (p.frame - c.frame).toNat = d
  split_ifs <;> simp <;> omega

theorem judge_equal_iff : judge p c = .equal ↔ p = c := by
  rw [position_eq_iff]
  simp only [judge]
  generalize (p.frame - c.frame).toNat = d
  split_ifs <;> simp <;> omega

/-- Settles O35, by the differences at which each judgement is given. -/
theorem positionsAreJudgedByTheirDifference : Obligations.PositionsAreJudgedByTheirDifference := by
  intro p c d
  have bound : d < 16 := (p.frame - c.frame).isLt
  have flip : (c.frame - p.frame).toNat = (16 - d) % 16 := frameDifference_flip p c
  refine ⟨fun near => ?_, fun far => ?_, fun same later => ?_, fun same earlier => ?_, fun same line => ?_, fun h => ?_⟩
  · exact judge_ahead_iff.mpr (.inl near)
  · exact judge_behind_iff.mpr (.inl far)
  · exact judge_ahead_iff.mpr (.inr ⟨same, later⟩)
  · exact judge_behind_iff.mpr (.inr ⟨same, earlier⟩)
  · exact judge_equal_iff.mpr (position_eq_iff.mpr ⟨same, line⟩)
  · rw [judge_ahead_iff, judge_behind_iff, flip]
    omega

end Sys2Proof.Proofs

/-! # Proofs: the release of one line

A release takes the oldest COMPLETE line of a lane, and with it one of the lines that wait (R35, R36); and a release of every
waiting line, one after another (R42). -/

namespace Sys2Proof.Proofs

open Sys2Proof.Machine Sys2Proof.Claims

variable {s t u : State} {l k : LaneId} {mark : Option GroupMark} {q before rest : List LineRecord} {r : LineRecord}

/-! ### Lines that wait -/

theorem completeIn_append (p q : List LineRecord) : completeIn (p ++ q) = completeIn p + completeIn q := by
  simp [completeIn]

theorem completeIn_cons (r : LineRecord) (q : List LineRecord) :
    completeIn (r :: q) = (if r.state = .complete then 1 else 0) + completeIn q := by
  by_cases h : r.state = .complete <;> simp [completeIn, h, Nat.add_comm]

theorem completeIn_eq_zero : completeIn q = 0 ↔ NoneComplete q := by
  simp [completeIn, NoneComplete, List.filter_eq_nil_iff]

theorem headOf_eq_none : headOf s l = none ↔ NoneComplete (s.lane l).queue := by
  simp [headOf, NoneComplete]

theorem headOf_congr (h : t.lane l = s.lane l) : headOf t l = headOf s l := by rw [headOf, headOf, h]

/-! ### One release -/

theorem releaseOldest_idle (h : NoneComplete (s.lane l).queue) : releaseOldest mark l s = s := by
  simp [releaseOldest, splitComplete_of_none h]

theorem releaseOldest_kept (hq : (s.lane l).queue = before ++ r :: rest) (hb : NoneComplete before)
    (hr : r.state = .complete) (hd : discardTest s l r.pos.line = none) :
    releaseOldest mark l s =
      setLane l { s.lane l with queue := before ++ { r with state := .released, mark := mark } :: rest } s := by
  simp only [releaseOldest, hq, splitComplete_append hb hr, hd]
  rfl

theorem releaseOldest_discarded (hq : (s.lane l).queue = before ++ r :: rest) (hb : NoneComplete before)
    (hr : r.state = .complete) {c : LaneCounter} (hd : discardTest s l r.pos.line = some c) :
    releaseOldest mark l s = State.bump (.lane l c)
      { setLane l { s.lane l with queue := before ++ rest } s with poolFree := s.poolFree + (r.tiles.length - r.carried) } := by
  simp only [releaseOldest, hq, splitComplete_append hb hr, hd]
  rfl

theorem releaseOldest_lane_other (hk : k ≠ l) : (releaseOldest mark l s).lane k = s.lane k :=
  ((releaseOldest_evaluates (M := (· = l)) mark rfl s).outside k hk).1

/-- What a release does to its lane's queue: the oldest COMPLETE line leaves it or is COMPLETE no more. -/
theorem releaseOldest_queue (mark : Option GroupMark) (l : LaneId) (s : State) :
    (NoneComplete (s.lane l).queue ∧ (releaseOldest mark l s).lane l = s.lane l) ∨
    ∃ before r rest, (s.lane l).queue = before ++ r :: rest ∧ r.state = .complete ∧ NoneComplete before ∧
      ((discardTest s l r.pos.line = none ∧
          ((releaseOldest mark l s).lane l).queue = before ++ { r with state := .released, mark := mark } :: rest) ∨
        (discardTest s l r.pos.line ≠ none ∧ ((releaseOldest mark l s).lane l).queue = before ++ rest)) := by
  obtain ⟨none, h⟩ | ⟨before, r, rest, hq, hr, hb, h⟩ := releaseOldest_cases mark l s
  · exact .inl ⟨none, by rw [h]⟩
  · refine .inr ⟨before, r, rest, hq, hr, hb, ?_⟩
    obtain ⟨hd, -⟩ | ⟨c, hd, -⟩ := h
    · exact .inl ⟨hd, by rw [releaseOldest_kept hq hb hr hd, lane_setLane_same]⟩
    · refine .inr ⟨by simp [hd], ?_⟩
      rw [releaseOldest_discarded hq hb hr hd, (bump_recording _).lane]
      exact congrArg Lane.queue (lane_setLane_same l _ s)

/-- One line fewer waits. -/
theorem completeIn_releaseOldest (mark : Option GroupMark) (l : LaneId) (s : State) :
    completeIn ((releaseOldest mark l s).lane l).queue = completeIn (s.lane l).queue - 1 := by
  obtain ⟨none, h⟩ | ⟨before, r, rest, hq, hr, -, ⟨-, h⟩ | ⟨-, h⟩⟩ := releaseOldest_queue mark l s
  · rw [h, completeIn_eq_zero.mpr none]
  · simp only [hq, h, completeIn_append, completeIn_cons, hr, reduceCtorEq, if_true, if_false]; omega
  · simp only [hq, h, completeIn_append, completeIn_cons, hr, if_true]; omega

theorem completeIn_releaseOldest_le (mark : Option GroupMark) (l k : LaneId) (s : State) :
    completeIn ((releaseOldest mark l s).lane k).queue ≤ completeIn (s.lane k).queue := by
  by_cases hk : k = l
  · subst hk; rw [completeIn_releaseOldest]; omega
  · rw [releaseOldest_lane_other hk]

theorem completeIn_releases_le (mark : Option GroupMark) (ls : List LaneId) (k : LaneId) (s : State) :
    completeIn ((State.each (releaseOldest mark) ls s).lane k).queue ≤ completeIn (s.lane k).queue := by
  induction ls generalizing s with
  | nil => exact le_refl _
  | cons l ls ih => exact (ih _).trans (completeIn_releaseOldest_le mark l k s)

/-! ### Every waiting line -/

/-- What a release can change. -/
abbrev releaseParts : List Part := [.lanes, .poolFree, .events, .notices, .counters]

theorem discardTest_of_only (h : OnlyChanges releaseParts s t) (l : LaneId) (line : Nat) :
    discardTest t l line = discardTest s l line :=
  discardTest_congr (h .link (by decide)) (h .plan (by decide)) (h .builder (by decide)) l line

theorem each_append {α : Type} (f : α → State → State) (xs ys : List α) (s : State) :
    State.each f (xs ++ ys) s = State.each f ys (State.each f xs s) := by
  induction xs generalizing s with
  | nil => rfl
  | cons x xs ih => exact ih _

theorem releaseMany_eq_each (mark : Option GroupMark) (l : LaneId) (n : Nat) (s : State) :
    releaseMany mark l n s = State.each (releaseOldest mark) (List.replicate n l) s := by
  induction n generalizing s with
  | zero => rfl
  | succ n ih => exact ih _

theorem releaseAllAlone_lane_other (hk : k ≠ l) : (releaseAllAlone l s).lane k = s.lane k :=
  ((releaseMany_evaluates (M := (· = l)) _ rfl _ s).outside k hk).1

/-- Lanes one after another, each with all of its waiting lines, are as many releases as lines wait. -/
theorem releaseAllAlone_each {ls : List LaneId} (distinct : ls.Nodup) (h : ∀ l ∈ ls, u.lane l = s.lane l) :
    State.each releaseAllAlone ls u = State.each (releaseOldest (some .outOfStep))
      (ls.flatMap fun l => List.replicate (completeIn (s.lane l).queue) l) u := by
  induction ls generalizing u with
  | nil => rfl
  | cons l ls ih =>
    obtain ⟨apart, distinct⟩ := List.nodup_cons.mp distinct
    have own : releaseAllAlone l u =
        State.each (releaseOldest (some .outOfStep)) (List.replicate (completeIn (s.lane l).queue) l) u := by
      rw [releaseAllAlone, releaseMany_eq_each, h l List.mem_cons_self]
    rw [State.each, List.flatMap_cons, each_append, ← own]
    refine ih distinct fun k hk => ?_
    rw [releaseAllAlone_lane_other (by rintro rfl; exact apart hk)]
    exact h k (List.mem_cons_of_mem l hk)

/-- What the queue of a member holds after every lane of a list has released its waiting lines: what it holds after its own
releases, which no other lane's touch. -/
theorem releaseAllAlone_each_lane {ls : List LaneId} (distinct : ls.Nodup) (hl : l ∈ ls) (s : State) :
    ∃ v, OnlyChanges releaseParts s v ∧ v.lane l = s.lane l ∧
      (State.each releaseAllAlone ls s).lane l = (releaseAllAlone l v).lane l := by
  have others (ls : List LaneId) (h : l ∉ ls) (u : State) : (State.each releaseAllAlone ls u).lane l = u.lane l := by
    induction ls generalizing u with
    | nil => rfl
    | cons k ls ih =>
      obtain ⟨apart, rest⟩ := not_or.mp (mt List.mem_cons.mpr h)
      exact (ih rest _).trans (releaseAllAlone_lane_other apart)
  obtain ⟨before, rest, rfl⟩ := List.append_of_mem hl
  obtain ⟨-, after, apart⟩ := List.nodup_append.mp distinct
  refine ⟨State.each releaseAllAlone before s, each_only releaseAllAlone_only before s,
    others before (fun h => apart l h l List.mem_cons_self rfl) s, ?_⟩
  rw [each_append, State.each]
  exact others rest (List.nodup_cons.mp after).1 _

/-- Releasing a lane's waiting lines, all of them, leaves of its queue what a view of it holds that no single release
changes. -/
theorem releaseMany_queue {view : List LineRecord → List LineRecord} (done : ∀ q, NoneComplete q → view q = q)
    (kept : ∀ u, OnlyChanges releaseParts s u → view ((releaseOldest mark l u).lane l).queue = view (u.lane l).queue) :
    ((releaseMany mark l (completeIn (s.lane l).queue) s).lane l).queue = view (s.lane l).queue := by
  have run (n : Nat) (u : State) (only : OnlyChanges releaseParts s u) (hn : completeIn (u.lane l).queue = n) :
      ((releaseMany mark l n u).lane l).queue = view (u.lane l).queue := by
    induction n generalizing u with
    | zero => exact (done _ (completeIn_eq_zero.mp hn)).symm
    | succ n ih =>
      rw [← kept u only]
      exact ih _ (only.trans (releaseOldest_only mark l u)) (by rw [completeIn_releaseOldest, hn]; rfl)
  exact run _ s (.refl _ s) rfl

/-- While its lines are carried, each waiting line is released with the mark (R42). -/
theorem releaseAllAlone_carried (h : ∀ line, discardTest s l line = none) :
    ((releaseAllAlone l s).lane l).queue = releasedAlone (s.lane l).queue := by
  refine releaseMany_queue (fun q none => ?_) fun u only => ?_
  · exact (List.map_congr_left fun r hr => if_neg (none r hr)).trans (List.map_id' q)
  · have test (line : Nat) : discardTest u l line = none := (discardTest_of_only only l line).trans (h line)
    obtain ⟨-, same⟩ | ⟨before, r, rest, hq, hr, -, ⟨-, hu⟩ | ⟨discards, -⟩⟩ := releaseOldest_queue (some .outOfStep) l u
    · rw [same]
    · simp [hq, hu, releasedAlone, hr]
    · exact absurd (test _) discards

/-- While its lines are discarded, each waiting line leaves the queue (Table 3-1). -/
theorem releaseAllAlone_discarded (h : ∀ line, discardTest s l line ≠ none) :
    ((releaseAllAlone l s).lane l).queue = (s.lane l).queue.filter fun r => r.state != .complete := by
  refine releaseMany_queue (view := List.filter fun r => r.state != .complete) (fun q none => ?_) fun u only => ?_
  · exact List.filter_eq_self.mpr fun r hr => by simpa using none r hr
  · have test (line : Nat) : discardTest u l line ≠ none := by rw [discardTest_of_only only l line]; exact h line
    obtain ⟨-, same⟩ | ⟨before, r, rest, hq, hr, -, ⟨keeps, -⟩ | ⟨-, hu⟩⟩ := releaseOldest_queue (some .outOfStep) l u
    · rw [same]
    · exact absurd keeps (test _)
    · simp [hq, hu, hr]

end Sys2Proof.Proofs

/-! # Proofs: one pass of an evaluation

What a pass of an evaluation does, in the words of the statements (R44 to R50). With the cursor set, a member behind it has its
line released alone; else the present lines are released together, or the members waited for lag, or the cursor skips to the
nearest head, or nothing changes. -/

namespace Sys2Proof.Proofs

open Sys2Proof.Machine Sys2Proof.Claims

variable {s t u : State} {g : GroupId} {l : LaneId} {c p q : Position} {heads : List Position}

/-! ### The status of a member (Table 3-3) -/

/-- The status that a judgement of a member's head gives it. -/
def statusOf : Judgement → Status
  | .behind => .behind
  | .equal => .present
  | .ahead => .hole

theorem statusAt_eq_statusOf (j : Judgement) : statusAt s c l = statusOf j ↔ HeadJudged j s c l := by
  unfold statusAt HeadJudged
  cases headOf s l with
  | none => cases j <;> simp [statusOf]
  | some p => cases judged : judge p c <;> cases j <;> simp [statusOf, judged]

theorem statusAt_behind : statusAt s c l = .behind ↔ HeadJudged .behind s c l := statusAt_eq_statusOf .behind

theorem statusAt_hole : statusAt s c l = .hole ↔ HeadJudged .ahead s c l := statusAt_eq_statusOf .ahead

theorem statusAt_present : statusAt s c l = .present ↔ headOf s l = some c := by
  refine (statusAt_eq_statusOf .equal).trans ?_
  simp only [HeadJudged, judge_equal_iff, exists_eq_right]

theorem statusAt_absent : statusAt s c l = .absent ↔ headOf s l = none := by
  unfold statusAt
  cases headOf s l with
  | none => simp
  | some p => cases judged : judge p c <;> simp [judged]

/-- No member of the group has a line behind the cursor. -/
def NoneBehind (s : State) (g : GroupId) (c : Position) : Prop := ∀ l ∈ members s g, ¬ HeadJudged .behind s c l

theorem find_behind_iff : (members s g).find? (fun l => statusAt s c l == .behind) = some l ↔ FirstBehind s g c l := by
  rw [List.find?_eq_some_iff_append]
  simp only [beq_iff_eq, statusAt_behind, Bool.not_eq_true', beq_eq_false_iff_ne, ne_eq, FirstBehind]
  constructor
  · rintro ⟨behind, before, rest, split, first⟩
    exact ⟨before, rest, split, behind, first⟩
  · rintro ⟨before, rest, split, behind, first⟩
    exact ⟨behind, before, rest, split, first⟩

theorem find_behind_eq_none : (members s g).find? (fun l => statusAt s c l == .behind) = none ↔ NoneBehind s g c := by
  simp only [List.find?_eq_none, beq_iff_eq, statusAt_behind, NoneBehind]

/-- A member is the first behind the cursor, or none is behind it. -/
theorem firstBehind_or_noneBehind (s : State) (g : GroupId) (c : Position) : (∃ l, FirstBehind s g c l) ∨ NoneBehind s g c := by
  cases h : (members s g).find? (fun l => statusAt s c l == .behind) with
  | none => exact .inr (find_behind_eq_none.mp h)
  | some l => exact .inl ⟨l, find_behind_iff.mp h⟩

theorem mem_presentAt : l ∈ presentAt s g c ↔ l ∈ members s g ∧ headOf s l = some c := by simp [presentAt]

theorem mem_waitedFor : l ∈ waitedFor s g ↔ l ∈ members s g ∧ headOf s l = none ∧ s.standing l = some .inStep := by
  simp [waitedFor]

/-! ### The nearest head (R50) -/

/-- The heads of the holes of a group, in lane number order. -/
def holeHeads (s : State) (g : GroupId) (c : Position) : List Position :=
  ((members s g).filter fun l => statusAt s c l == .hole).filterMap (headOf s)

theorem mem_holeHeads : p ∈ holeHeads s g c ↔ ∃ l ∈ members s g, headOf s l = some p ∧ judge p c = .ahead := by
  simp only [holeHeads, List.mem_filterMap, List.mem_filter, beq_iff_eq, statusAt_hole, HeadJudged]
  constructor
  · rintro ⟨l, ⟨member, q, head, judged⟩, head'⟩
    obtain rfl : q = p := Option.some_inj.mp (head.symm.trans head')
    exact ⟨l, member, head, judged⟩
  · rintro ⟨l, member, head, judged⟩
    exact ⟨l, ⟨member, p, head, judged⟩, head⟩

theorem nearestHead_some (h : nearestHead heads = some p) : p ∈ heads ∧ ∀ q ∈ heads, judge p q ≠ .ahead :=
  ⟨List.mem_of_find?_eq_some h, by simpa using List.find?_some h⟩

/-- Of a position ahead of the cursor and one no further from it, by the frame difference and then the line, the second is not
ahead of the first. -/
theorem not_ahead_of_nearer (hq : judge q c = .ahead)
    (nearer : toLex ((p.frame - c.frame).toNat, p.line) ≤ toLex ((q.frame - c.frame).toNat, q.line)) :
    judge p q ≠ .ahead := by
  have between : (p.frame - q.frame).toNat = ((p.frame - c.frame).toNat + 16 - (q.frame - c.frame).toNat) % 16 := by
    simp only [BitVec.toNat_sub]; omega
  rw [judge_ahead_iff] at hq
  rw [Ne, judge_ahead_iff, between]
  rw [Prod.Lex.toLex_le_toLex] at nearer
  dsimp only at nearer
  omega

/-- Holes have a nearest head. -/
theorem exists_nearestHead (ahead : ∀ p ∈ heads, judge p c = .ahead) (some_head : heads ≠ []) :
    ∃ p, nearestHead heads = some p := by
  obtain ⟨p, hp, least⟩ := heads.toFinset.exists_min_image (fun p => toLex ((p.frame - c.frame).toNat, p.line))
    (by simpa using some_head)
  rw [List.mem_toFinset] at hp
  have near : (heads.all fun q => judge p q != .ahead) = true := by
    simp only [List.all_eq_true, bne_iff_ne]
    exact fun q hq => not_ahead_of_nearer (ahead q hq) (least q (List.mem_toFinset.mpr hq))
  exact Option.isSome_iff_exists.mp (List.find?_isSome.mpr ⟨p, hp, near⟩)

/-! ### The pass -/

/-- The mark of a group release: PARTIAL_GROUP where an IN_STEP member is a hole (R47). -/
def releaseMark (s : State) (g : GroupId) (c : Position) : Option GroupMark :=
  if (members s g).any fun l => statusAt s c l == .hole && isInStep s l then some .partialGroup else none

/-- The lag trigger (R49): a present member has as many COMPLETE lines as the skew limit. -/
def LagTriggered (s : State) (g : GroupId) (c : Position) : Prop :=
  ∃ l ∈ presentAt s g c, (s.group g).skew ≤ completeIn (s.lane l).queue

theorem releaseMark_partial (h : ∃ l, (l ∈ members s g ∧ HeadJudged .ahead s c l) ∧ s.standing l = some .inStep) :
    releaseMark s g c = some .partialGroup := by
  obtain ⟨l, ⟨member, hole⟩, step⟩ := h
  refine if_pos (List.any_eq_true.mpr ⟨l, member, ?_⟩)
  simp [statusAt_hole.mpr hole, isInStep, step]

theorem releaseMark_none (h : ∀ l, l ∈ members s g ∧ HeadJudged .ahead s c l → s.standing l ≠ some .inStep) :
    releaseMark s g c = none := by
  refine if_neg ?_
  simp only [List.any_eq_true, Bool.and_eq_true, beq_iff_eq, statusAt_hole, isInStep, not_exists, not_and]
  exact fun l member hole => h l ⟨member, hole⟩

/-- The state with the cursor of a group at a position. -/
def cursorAt (g : GroupId) (p : Position) (s : State) : State := s.modGroup g fun x => { x with cursor := some p }

@[simp] theorem group_cursorAt (g : GroupId) (p : Position) (s : State) :
    (cursorAt g p s).group g = { s.group g with cursor := some p } := by
  simp [cursorAt, State.group]

theorem evaluatePass_behind (h : FirstBehind s g c l) :
    evaluatePass g c s = some (releaseOldest (some .outOfStep) l s) := by
  simp only [evaluatePass, find_behind_iff.mpr h]

/-- A pass with no member behind the cursor. -/
theorem evaluatePass_of_noneBehind [Decidable (LagTriggered s g c)] (h : NoneBehind s g c) : evaluatePass g c s =
    if waitedFor s g = [] then
      if presentAt s g c = [] then (nearestHead (holeHeads s g c)).map (cursorAt g · s)
      else some (groupReleased (releaseMark s g c) g c s)
    else if LagTriggered s g c then some (groupLagged g s) else none := by
  have present : (members s g).filter (fun l => statusAt s c l == .present) = presentAt s g c :=
    List.filter_congr fun l _ => by rw [Bool.eq_iff_iff, beq_iff_eq, beq_iff_eq, statusAt_present]
  have waited : (members s g).filter (fun l => statusAt s c l == .absent && isInStep s l) = waitedFor s g :=
    List.filter_congr fun l _ => by
      have absent : (statusAt s c l == .absent) = (headOf s l == none) := by
        rw [Bool.eq_iff_iff, beq_iff_eq, beq_iff_eq, statusAt_absent]
      rw [absent, isInStep]
  have triggered : ((presentAt s g c).any fun l => decide ((s.group g).skew ≤ completeIn (s.lane l).queue)) = true ↔
      LagTriggered s g c := by simp only [List.any_eq_true, decide_eq_true_eq, LagTriggered]
  simp only [evaluatePass, find_behind_eq_none.mpr h, present, waited]
  by_cases waits : waitedFor s g = []
  · rw [if_pos waits, if_pos waits]
    by_cases nobody : presentAt s g c = []
    · rw [if_pos nobody, if_pos nobody, ← holeHeads]
      cases nearestHead (holeHeads s g c) <;> rfl
    · rw [if_neg nobody, if_neg nobody]
      rfl
  · rw [if_neg waits, if_neg waits]
    by_cases lag : LagTriggered s g c
    · rw [if_pos lag, if_pos (triggered.mpr lag)]
      rfl
    · rw [if_neg lag, if_neg (mt triggered.mp lag)]

theorem evaluatePass_released (h : NoneBehind s g c) (waits : waitedFor s g = []) (present : presentAt s g c ≠ []) :
    evaluatePass g c s = some (groupReleased (releaseMark s g c) g c s) := by
  classical rw [evaluatePass_of_noneBehind h, if_pos waits, if_neg present]

theorem evaluatePass_lags (h : NoneBehind s g c) (waits : waitedFor s g ≠ []) (lag : LagTriggered s g c) :
    evaluatePass g c s = some (groupLagged g s) := by
  classical rw [evaluatePass_of_noneBehind h, if_neg waits, if_pos lag]

theorem evaluatePass_waits (h : NoneBehind s g c) (waits : waitedFor s g ≠ []) (lag : ¬ LagTriggered s g c) :
    evaluatePass g c s = none := by
  classical rw [evaluatePass_of_noneBehind h, if_neg waits, if_neg lag]

theorem evaluatePass_skips (h : NoneBehind s g c) (waits : waitedFor s g = []) (nobody : presentAt s g c = []) :
    evaluatePass g c s = (nearestHead (holeHeads s g c)).map (cursorAt g · s) := by
  classical rw [evaluatePass_of_noneBehind h, if_pos waits, if_pos nobody]

/-- With nobody at the cursor and no hole the cursor stays. -/
theorem evaluatePass_noHoles (h : NoneBehind s g c) (waits : waitedFor s g = []) (nobody : presentAt s g c = [])
    (holes : ∀ l ∈ members s g, ¬ HeadJudged .ahead s c l) : evaluatePass g c s = none := by
  have none : holeHeads s g c = [] := List.eq_nil_iff_forall_not_mem.mpr fun p hp => by
    obtain ⟨l, member, head, judged⟩ := mem_holeHeads.mp hp
    exact holes l member ⟨p, head, judged⟩
  rw [evaluatePass_skips h waits nobody, none]
  rfl

/-- With nobody at the cursor it skips to the head of a hole that is not ahead of the head of any other (R50). -/
theorem evaluatePass_nearest (h : NoneBehind s g c) (waits : waitedFor s g = []) (nobody : presentAt s g c = [])
    (hole : ∃ l ∈ members s g, HeadJudged .ahead s c l) :
    ∃ p ∈ holeHeads s g c, (∀ q ∈ holeHeads s g c, judge p q ≠ .ahead) ∧ evaluatePass g c s = some (cursorAt g p s) := by
  obtain ⟨l, member, q, head, judged⟩ := hole
  have ahead (p : Position) (hp : p ∈ holeHeads s g c) : judge p c = .ahead := by
    obtain ⟨-, -, -, judged⟩ := mem_holeHeads.mp hp
    exact judged
  obtain ⟨p, nearest⟩ := exists_nearestHead ahead (List.ne_nil_of_mem (mem_holeHeads.mpr ⟨l, member, head, judged⟩))
  obtain ⟨hp, least⟩ := nearestHead_some nearest
  exact ⟨p, hp, least, by rw [evaluatePass_skips h waits nobody, nearest]; rfl⟩

/-- Members without a COMPLETE line do nothing, whether they are waited for or not. -/
theorem evaluatePass_noHeads (h : ∀ l ∈ members s g, headOf s l = none) (c : Position) : evaluatePass g c s = none := by
  have unjudged (j : Judgement) (l : LaneId) (member : l ∈ members s g) : ¬ HeadJudged j s c l := by
    rintro ⟨p, head, -⟩
    rw [h l member] at head
    cases head
  have nobody : presentAt s g c = [] := List.eq_nil_iff_forall_not_mem.mpr fun l present => by
    obtain ⟨member, head⟩ := mem_presentAt.mp present
    rw [h l member] at head
    cases head
  by_cases waits : waitedFor s g = []
  · exact evaluatePass_noHoles (unjudged .behind) waits nobody (unjudged .ahead)
  · refine evaluatePass_waits (unjudged .behind) waits ?_
    rintro ⟨l, present, -⟩
    rw [nobody] at present
    cases present

/-- What a pass that changes something does (R46, R47, R49, R50). -/
theorem evaluatePass_cases (h : evaluatePass g c s = some t) :
    (∃ l, FirstBehind s g c l ∧ t = releaseOldest (some .outOfStep) l s) ∨
    (presentAt s g c ≠ [] ∧ ∃ mark, t = groupReleased mark g c s) ∨
    (NoneBehind s g c ∧ presentAt s g c ≠ [] ∧ t = groupLagged g s) ∨
    (waitedFor s g = [] ∧ ∃ p ∈ holeHeads s g c, t = cursorAt g p s) := by
  classical
  obtain ⟨l, behind⟩ | behind := firstBehind_or_noneBehind s g c
  · rw [evaluatePass_behind behind, Option.some_inj] at h
    exact .inl ⟨l, behind, h.symm⟩
  · rw [evaluatePass_of_noneBehind behind] at h
    split_ifs at h with waits nobody lag
    · obtain ⟨p, nearest, rfl⟩ := Option.map_eq_some_iff.mp h
      exact .inr (.inr (.inr ⟨waits, p, (nearestHead_some nearest).1, rfl⟩))
    · exact .inr (.inl ⟨nobody, _, (Option.some_inj.mp h).symm⟩)
    · obtain ⟨l, present, -⟩ := lag
      exact .inr (.inr (.inl ⟨behind, List.ne_nil_of_mem present, (Option.some_inj.mp h).symm⟩))

/-! ### What the passes leave -/

theorem each_keeps {α β : Type} {f : α → State → State} {view : State → β} (h : ∀ a u, view (f a u) = view u) (xs : List α)
    (s : State) : view (State.each f xs s) = view s := by
  induction xs generalizing s with
  | nil => rfl
  | cons a xs ih => exact (ih _).trans (h a s)

theorem groups_of_only {ps : List Part} (h : OnlyChanges ps s t) (hp : Part.release ∉ ps := by decide) :
    t.release.groups = s.release.groups :=
  congrArg ReleaseUnit.groups (h .release hp)

/-- A member gets a standing and an event is raised for it. -/
theorem groups_raise_setStanding (l : LaneId) (v : Option Standing) (e : EventKind) (a b : Nat) (s : State) :
    ((s.setStanding l v).raise e a b).release.groups = s.release.groups :=
  (groups_of_only (s := s.setStanding l v) (raise_only e a b _)).trans rfl

theorem lanes_raise_setStanding (l : LaneId) (v : Option Standing) (e : EventKind) (a b : Nat) (s : State) :
    ((s.setStanding l v).raise e a b).lanes = s.lanes :=
  raise_only e a b _ .lanes (by decide)

theorem groupLagged_groups (g : GroupId) (s : State) : (groupLagged g s).release.groups = s.release.groups :=
  each_keeps (view := fun u => u.release.groups) (fun l u => groups_raise_setStanding l _ _ _ _ u) _ s

theorem groupLagged_lanes (g : GroupId) (s : State) : (groupLagged g s).lanes = s.lanes :=
  each_keeps (view := State.lanes) (fun l u => lanes_raise_setStanding l _ _ _ _ u) _ s

/-- The members that are waited for lag, and the others stand as they did. -/
theorem groupLagged_standing (g : GroupId) (s : State) (l : LaneId) :
    (groupLagged g s).standing l = if l ∈ waitedFor s g then some .lagging else s.standing l := by
  unfold groupLagged
  generalize waitedFor s g = ls
  induction ls generalizing s with
  | nil => rfl
  | cons k ls ih =>
    have raised : ((s.setStanding k (some .lagging)).raise .groupLag (laneNum k) (groupNum g)).standing l =
        (s.setStanding k (some .lagging)).standing l := standing_congr (raise_only _ _ _ _ .release (by decide)) l
    rw [State.each, ih, raised]
    by_cases hl : l = k
    · subst hl; simp [standing_setStanding_same]
    · simp [standing_setStanding_other hl, hl]

/-- A group release with its cursor still to be moved. -/
theorem groupReleased_eq (mark : Option GroupMark) (g : GroupId) (c : Position) (s : State) :
    groupReleased mark g c s = cursorAt g (nextPosition (groupLines s g) c)
      (State.each (rejoinMember g) ((presentAt s g c).filter fun l => !isInStep s l && isRunning s l)
        (State.each (releaseOldest mark) (presentAt s g c) s)) := rfl

theorem groupReleased_lanes (mark : Option GroupMark) (g : GroupId) (c : Position) (s : State) :
    (groupReleased mark g c s).lanes = (State.each (releaseOldest mark) (presentAt s g c) s).lanes :=
  each_keeps (view := State.lanes) (fun l u => lanes_raise_setStanding l _ _ _ _ u) _ _

theorem groupReleased_groups (mark : Option GroupMark) (g : GroupId) (c : Position) (s : State) :
    (groupReleased mark g c s).release.groups =
      s.release.groups.set g { s.group g with cursor := some (nextPosition (groupLines s g) c) } := by
  have same : (State.each (rejoinMember g) ((presentAt s g c).filter fun l => !isInStep s l && isRunning s l)
      (State.each (releaseOldest mark) (presentAt s g c) s)).release.groups = s.release.groups :=
    (each_keeps (view := fun u => u.release.groups) (fun l u => groups_raise_setStanding l _ _ _ _ u) _ _).trans
      (groups_of_only (each_only (releaseOldest_only mark) _ s))
  rw [groupReleased_eq, cursorAt, modGroup_release, same]
  rfl

/-- Of the groups only the cursor of one has moved. -/
def CursorMoved (g : GroupId) (s t : State) : Prop :=
  ∃ o, t.release.groups = s.release.groups.set g { s.group g with cursor := o }

theorem cursorMoved_of_same (h : t.release.groups = s.release.groups) (g : GroupId) : CursorMoved g s t :=
  ⟨(s.group g).cursor, by rw [h]; cases g <;> rfl⟩

theorem CursorMoved.trans (h : CursorMoved g s t) (k : CursorMoved g t u) : CursorMoved g s u := by
  obtain ⟨o, hs⟩ := h
  obtain ⟨o', ht⟩ := k
  exact ⟨o', by rw [ht, State.group, hs]; cases g <;> rfl⟩

theorem CursorMoved.skew (h : CursorMoved g s t) : (t.group g).skew = (s.group g).skew := by
  obtain ⟨o, h⟩ := h
  rw [State.group, h, perGroup_get_set_same]

theorem CursorMoved.other {j : GroupId} (h : CursorMoved g s t) (hj : j ≠ g) : t.group j = s.group j := by
  obtain ⟨o, h⟩ := h
  rw [State.group, h, perGroup_get_set_other _ _ _ _ hj, State.group]

theorem cursorMoved_modGroup (g : GroupId) (o : Option Position) (s : State) :
    CursorMoved g s (s.modGroup g fun x => { x with cursor := o }) := ⟨o, rfl⟩

theorem groupReleased_moves (mark : Option GroupMark) (g : GroupId) (c : Position) (s : State) :
    CursorMoved g s (groupReleased mark g c s) := ⟨_, groupReleased_groups mark g c s⟩

/-- Every pass leaves the groups but for the cursor of the one that is evaluated. -/
theorem evaluatePass_moves (h : evaluatePass g c s = some t) : CursorMoved g s t := by
  obtain ⟨l, -, rfl⟩ | ⟨-, mark, rfl⟩ | ⟨-, -, rfl⟩ | ⟨-, p, -, rfl⟩ := evaluatePass_cases h
  · exact cursorMoved_of_same (groups_of_only (releaseOldest_only _ l s)) g
  · exact groupReleased_moves mark g c s
  · exact cursorMoved_of_same (groupLagged_groups g s) g
  · exact cursorMoved_modGroup g (some p) s

/-- A cursor that is set stays set. -/
theorem evaluatePass_cursor (h : evaluatePass g c s = some t) (cursor : (s.group g).cursor = some c) :
    ∃ d, (t.group g).cursor = some d := by
  have unmoved (same : t.release.groups = s.release.groups) : (t.group g).cursor = some c := by
    rw [State.group, same]; exact cursor
  obtain ⟨l, -, rfl⟩ | ⟨-, mark, rfl⟩ | ⟨-, -, rfl⟩ | ⟨-, p, -, rfl⟩ := evaluatePass_cases h
  · exact ⟨c, unmoved (groups_of_only (releaseOldest_only _ l s))⟩
  · exact ⟨_, by rw [State.group, groupReleased_groups, perGroup_get_set_same]⟩
  · exact ⟨c, unmoved (groupLagged_groups g s)⟩
  · exact ⟨p, by rw [group_cursorAt]⟩

end Sys2Proof.Proofs

/-! # Proofs: a group is evaluated pass by pass (O36)

The passes of an evaluation end within its bound: each release takes a line that waits, and each lag trigger and each skip is
followed by a release. So an evaluation is one pass and the evaluation of what it leaves (R44). -/

namespace Sys2Proof.Proofs

open Sys2Proof.Machine Sys2Proof.Claims

variable {s t : State} {g : GroupId} {l : LaneId} {c p : Position} {mark : Option GroupMark} {m n : Nat}

/-! ### The lines that wait in a group -/

/-- The COMPLETE lines of all the members of a group. -/
def waitingIn (s : State) (g : GroupId) : Nat := ((members s g).map fun l => completeIn (s.lane l).queue).sum

theorem members_congr (h : t.lanes = s.lanes) (g : GroupId) : members t g = members s g := by
  simp only [members, lane_congr h]

theorem waitingIn_congr (h : t.lanes = s.lanes) (g : GroupId) : waitingIn t g = waitingIn s g := by
  simp only [waitingIn, members_congr h, lane_congr h]

theorem waitingIn_lt (same : members t g = members s g)
    (le : ∀ k, completeIn (t.lane k).queue ≤ completeIn (s.lane k).queue) (hl : l ∈ members s g)
    (lt : completeIn (t.lane l).queue < completeIn (s.lane l).queue) : waitingIn t g < waitingIn s g := by
  unfold waitingIn
  rw [same]
  exact List.sum_lt_sum _ _ (fun k _ => le k) ⟨l, hl, lt⟩

theorem completeIn_pos_of_head (h : headOf s l = some p) : 0 < completeIn (s.lane l).queue := by
  refine Nat.pos_of_ne_zero fun zero => ?_
  rw [headOf_eq_none.mpr (completeIn_eq_zero.mp zero)] at h
  cases h

theorem completeIn_releaseOldest_lt (h : headOf s l = some p) :
    completeIn ((releaseOldest mark l s).lane l).queue < completeIn (s.lane l).queue := by
  have waits := completeIn_pos_of_head h
  rw [completeIn_releaseOldest]
  omega

theorem waitingIn_releaseOldest_lt (h : FirstBehind s g c l) :
    waitingIn (releaseOldest (some .outOfStep) l s) g < waitingIn s g := by
  obtain ⟨before, rest, split, ⟨p, head, -⟩, -⟩ := h
  have member : l ∈ members s g := by simp [split]
  exact waitingIn_lt ((releaseOldest_evaluates _ member s).members_eq g) (completeIn_releaseOldest_le _ l · s) member
    (completeIn_releaseOldest_lt head)

theorem waitingIn_groupReleased_lt (mark : Option GroupMark) (h : presentAt s g c ≠ []) :
    waitingIn (groupReleased mark g c s) g < waitingIn s g := by
  have lanes := groupReleased_lanes mark g c s
  have evaluates : Evaluates (fun _ => True) s (State.each (releaseOldest mark) (presentAt s g c) s) :=
    evaluates_each (fun l _ u hu => hu.trans (releaseOldest_evaluates mark trivial u)) (.refl _ s)
  rw [waitingIn_congr lanes]
  obtain ⟨l, rest, split⟩ := List.exists_cons_of_ne_nil h
  have present : l ∈ presentAt s g c := by simp [split]
  obtain ⟨member, head⟩ := mem_presentAt.mp present
  refine waitingIn_lt (evaluates.members_eq g) (completeIn_releases_le mark _ · s) member ?_
  rw [split, State.each]
  exact (completeIn_releases_le mark rest l _).trans_lt (completeIn_releaseOldest_lt head)

/-! ### What follows a lag trigger and a skip -/

theorem presentAt_congr (h : t.lanes = s.lanes) (g : GroupId) (c : Position) : presentAt t g c = presentAt s g c := by
  simp only [presentAt, members_congr h, headOf_congr (lane_congr h _)]

/-- After the lag trigger nobody is waited for. -/
theorem waitedFor_groupLagged (g : GroupId) (s : State) : waitedFor (groupLagged g s) g = [] := by
  rw [List.eq_nil_iff_forall_not_mem]
  intro l waits
  obtain ⟨member, head, step⟩ := mem_waitedFor.mp waits
  have lanes := groupLagged_lanes g s
  rw [members_congr lanes] at member
  rw [headOf_congr (lane_congr lanes l)] at head
  rw [groupLagged_standing] at step
  split_ifs at step with waited
  · cases step
  · exact waited (mem_waitedFor.mpr ⟨member, head, step⟩)

/-- With a member at the cursor and nobody waited for, the pass is a release: of a line behind, or of the present lines. -/
theorem evaluatePass_releases (waits : waitedFor s g = []) (present : presentAt s g c ≠ []) :
    ∃ t, evaluatePass g c s = some t ∧ waitingIn t g < waitingIn s g := by
  obtain ⟨l, behind⟩ | behind := firstBehind_or_noneBehind s g c
  · exact ⟨_, evaluatePass_behind behind, waitingIn_releaseOldest_lt behind⟩
  · exact ⟨_, evaluatePass_released behind waits present, waitingIn_groupReleased_lt _ present⟩

/-- A pass takes a line that waits, or it takes none and the next pass does. -/
theorem evaluatePass_progress (h : evaluatePass g c s = some t) (cursor : (s.group g).cursor = some c) :
    waitingIn t g < waitingIn s g ∨ (waitingIn t g = waitingIn s g ∧
      ∃ d u, (t.group g).cursor = some d ∧ evaluatePass g d t = some u ∧ waitingIn u g < waitingIn t g) := by
  obtain ⟨l, behind, rfl⟩ | ⟨present, mark, rfl⟩ | ⟨-, present, rfl⟩ | ⟨waits, p, hole, rfl⟩ := evaluatePass_cases h
  · exact .inl (waitingIn_releaseOldest_lt behind)
  · exact .inl (waitingIn_groupReleased_lt mark present)
  · have lanes := groupLagged_lanes g s
    have group : (groupLagged g s).group g = s.group g := congrArg (·.get g) (groupLagged_groups g s)
    obtain ⟨u, pass, fewer⟩ := evaluatePass_releases (c := c) (waitedFor_groupLagged g s)
      (by rwa [presentAt_congr lanes])
    exact .inr ⟨waitingIn_congr lanes g, c, u, by rw [group, cursor], pass, fewer⟩
  · obtain ⟨l, member, head, -⟩ := mem_holeHeads.mp hole
    have present : l ∈ presentAt s g p := mem_presentAt.mpr ⟨member, head⟩
    obtain ⟨u, pass, fewer⟩ := evaluatePass_releases (s := cursorAt g p s) (g := g) (c := p) waits (List.ne_nil_of_mem present)
    exact .inr ⟨rfl, p, u, by rw [group_cursorAt], pass, fewer⟩

/-! ### The passes end -/

theorem evaluateLoop_settled (cursor : (s.group g).cursor = some c) (h : evaluatePass g c s = none) (n : Nat) :
    evaluateLoop g n s = s := by
  cases n with
  | zero => rfl
  | succ n => simp only [evaluateLoop, cursor, h]

theorem evaluateLoop_succ (cursor : (s.group g).cursor = some c) (h : evaluatePass g c s = some t) (n : Nat) :
    evaluateLoop g (n + 1) s = evaluateLoop g n t := by
  simp only [evaluateLoop, cursor, h]

/-- Two passes for each line that waits are enough: further ones change nothing. -/
theorem evaluateLoop_enough (cursor : (s.group g).cursor = some c) (hm : 2 * waitingIn s g ≤ m) (hn : 2 * waitingIn s g ≤ n) :
    evaluateLoop g m s = evaluateLoop g n s := by
  induction hw : waitingIn s g using Nat.strong_induction_on generalizing s c m n with
  | _ w ih =>
    subst hw
    cases pass : evaluatePass g c s with
    | none => rw [evaluateLoop_settled cursor pass, evaluateLoop_settled cursor pass]
    | some t =>
      obtain ⟨d, cursor_t⟩ := evaluatePass_cursor pass cursor
      obtain fewer | ⟨same, e, u, cursor_e, next, fewer⟩ := evaluatePass_progress pass cursor
      · obtain ⟨m, rfl⟩ : ∃ m', m = m' + 1 := ⟨m - 1, by omega⟩
        obtain ⟨n, rfl⟩ : ∃ n', n = n' + 1 := ⟨n - 1, by omega⟩
        rw [evaluateLoop_succ cursor pass, evaluateLoop_succ cursor pass]
        exact ih _ fewer cursor_t (by omega) (by omega) rfl
      · obtain ⟨m, rfl⟩ : ∃ m', m = m' + 1 + 1 := ⟨m - 2, by omega⟩
        obtain ⟨n, rfl⟩ : ∃ n', n = n' + 1 + 1 := ⟨n - 2, by omega⟩
        obtain ⟨f, cursor_u⟩ := evaluatePass_cursor next cursor_e
        rw [evaluateLoop_succ cursor pass, evaluateLoop_succ cursor pass, evaluateLoop_succ cursor_e next,
          evaluateLoop_succ cursor_e next]
        exact ih _ (same ▸ fewer) cursor_u (by omega) (by omega) rfl

/-! ### An evaluation -/

/-- A member of the group is RUNNING. -/
def SomeRunning (s : State) (g : GroupId) : Prop := ∃ l ∈ members s g, (s.lane l).state = .running

theorem any_running_iff : (members s g).any (isRunning s) = true ↔ SomeRunning s g := by
  simp [isRunning, SomeRunning]

theorem SomeRunning.of_evaluates (running : SomeRunning s g) (h : Evaluates (· ∈ members s g) s t) : SomeRunning t g := by
  obtain ⟨l, member, state⟩ := running
  exact ⟨l, by rwa [h.members_eq], by rwa [h.thins.state]⟩

theorem evaluate_running (running : SomeRunning s g) (cursor : (s.group g).cursor = some c) :
    evaluate g s = evaluateLoop g (2 * waitingIn s g + 2) s := by
  simp only [evaluate, any_running_iff.mpr running, if_true, cursor]
  rfl

/-- An evaluation is a pass and the evaluation of what it leaves (R44). -/
theorem evaluate_pass (running : SomeRunning s g) (cursor : (s.group g).cursor = some c)
    (pass : evaluatePass g c s = some t) : evaluate g s = evaluate g t := by
  obtain ⟨d, cursor_t⟩ := evaluatePass_cursor pass cursor
  have fewer : waitingIn t g ≤ waitingIn s g := by
    obtain fewer | ⟨same, -⟩ := evaluatePass_progress pass cursor
    · exact fewer.le
    · exact same.le
  rw [evaluate_running running cursor, evaluateLoop_succ cursor pass,
    evaluate_running (running.of_evaluates (evaluatePass_evaluates pass)) cursor_t]
  exact evaluateLoop_enough cursor_t (by omega) (by omega)

/-- It ends with the pass that changes nothing. -/
theorem evaluate_settled (running : SomeRunning s g) (cursor : (s.group g).cursor = some c)
    (pass : evaluatePass g c s = none) : evaluate g s = s := by
  rw [evaluate_running running cursor, evaluateLoop_settled cursor pass]

/-- An unset cursor stays so while no RUNNING member holds a COMPLETE line (R41). -/
theorem evaluate_unset (running : SomeRunning s g) (cursor : (s.group g).cursor = none)
    (h : ∀ l ∈ members s g, (s.lane l).state = .running → headOf s l = none) : evaluate g s = s := by
  have heads : ((members s g).filter (isRunning s)).filterMap (headOf s) = [] := by
    rw [List.filterMap_eq_nil_iff]
    intro l hl
    obtain ⟨member, runs⟩ := List.mem_filter.mp hl
    exact h l member (by simpa [isRunning] using runs)
  simp only [evaluate, any_running_iff.mpr running, if_true, cursor, heads]

/-- An unset cursor is set by the lowest RUNNING member that holds a COMPLETE line (R41). -/
theorem evaluate_sets_cursor {before rest : List LaneId} (cursor : (s.group g).cursor = none)
    (split : members s g = before ++ l :: rest) (runs : (s.lane l).state = .running) (head : headOf s l = some p)
    (first : ∀ k ∈ before, (s.lane k).state = .running → headOf s k = none) :
    evaluate g s = evaluate g (cursorAt g p s) := by
  have running : SomeRunning s g := ⟨l, by simp [split], runs⟩
  have skipped : (before.filter (isRunning s)).filterMap (headOf s) = [] := by
    rw [List.filterMap_eq_nil_iff]
    intro k hk
    obtain ⟨member, runs⟩ := List.mem_filter.mp hk
    exact first k member (by simpa [isRunning] using runs)
  have heads : ((members s g).filter (isRunning s)).filterMap (headOf s) =
      p :: (rest.filter (isRunning s)).filterMap (headOf s) := by
    have runs : isRunning s l = true := by simp [isRunning, runs]
    rw [split, List.filter_append, List.filterMap_append, skipped, List.filter_cons_of_pos runs, List.filterMap_cons, head]
    rfl
  have set_running : SomeRunning (cursorAt g p s) g := running
  rw [evaluate_running set_running (congrArg Group.cursor (group_cursorAt g p s))]
  simp only [evaluate, any_running_iff.mpr running, if_true, cursor, heads]
  rfl

/-! ### A group without a RUNNING member (R42) -/

/-- The state with the cursor of a group unset. -/
def unsetCursor (g : GroupId) (s : State) : State := s.modGroup g fun x => { x with cursor := none }

/-- The cursor is unset and the waiting lines are released alone. -/
theorem evaluate_noneRunning (h : ¬ SomeRunning s g) :
    evaluate g s = State.each releaseAllAlone (members s g) (unsetCursor g s) := by
  simp only [evaluate, Bool.eq_false_iff.mpr (mt any_running_iff.mp h)]
  rfl

theorem evaluate_noneRunning_release (h : ¬ SomeRunning s g) : (evaluate g s).release = (unsetCursor g s).release := by
  rw [evaluate_noneRunning h]
  exact each_only releaseAllAlone_only (members s g) (unsetCursor g s) .release (by decide)

theorem members_nodup (s : State) (g : GroupId) : (members s g).Nodup :=
  List.Nodup.filter _ (by decide : laneIds.Nodup)

/-- A member's line queue is what its own releases make of it. -/
theorem evaluate_noneRunning_lane (h : ¬ SomeRunning s g) (member : l ∈ members s g) :
    ∃ v, (∀ line, discardTest v l line = discardTest s l line) ∧ v.lane l = s.lane l ∧
      (evaluate g s).lane l = (releaseAllAlone l v).lane l := by
  obtain ⟨v, only, lane, eq⟩ := releaseAllAlone_each_lane (members_nodup s g) member (unsetCursor g s)
  exact ⟨v, discardTest_of_only only l, lane, by rw [evaluate_noneRunning h, eq]⟩

theorem evaluate_noneRunning_carried (h : ¬ SomeRunning s g) (member : l ∈ members s g) (up : s.link.state = .up)
    (carried : carryOf s l = some .carried) : ((evaluate g s).lane l).queue = releasedAlone (s.lane l).queue := by
  obtain ⟨v, test, lane, eq⟩ := evaluate_noneRunning_lane h member
  rw [eq, ← lane]
  exact releaseAllAlone_carried fun line => (test line).trans (discardTest_kept up (.inl carried))

theorem evaluate_noneRunning_uncarried (h : ¬ SomeRunning s g) (member : l ∈ members s g)
    (uncarried : s.link.state ≠ .up ∨ carryOf s l = none) :
    ((evaluate g s).lane l).queue = (s.lane l).queue.filter fun r => r.state != .complete := by
  obtain ⟨v, test, lane, eq⟩ := evaluate_noneRunning_lane h member
  rw [eq, ← lane]
  exact releaseAllAlone_discarded fun line => by rw [test, discardTest_uncarried uncarried]; simp

/-! ### The obligation -/

/-- Settles O36, by the release of one line, the releases without a RUNNING member, and one pass after another. -/
theorem aGroupIsEvaluatedPassByPass : Obligations.AGroupIsEvaluatedPassByPass := by
  refine ⟨fun mark l s => ⟨fun none => ?_, fun before r rest queue first complete => ?_⟩, fun g s idle => ?_,
    fun g s running unset => ⟨fun none => ?_, fun before l rest p split runs head first => ?_⟩,
    fun g c s running cursor => ⟨fun l behind => ?_, fun behind waits present => ⟨fun partially => ?_, fun whole => ?_⟩,
      fun behind waits => ⟨fun triggered => ?_, fun untriggered => ?_⟩,
      fun behind waits nobody => ⟨fun holes => ?_, fun ⟨k, member, hole⟩ => ?_⟩⟩⟩
  · exact releaseOldest_idle none
  · have gone {c : LaneCounter} (test : discardTest s l r.pos.line = some c) :=
      releaseOldest_discarded (mark := mark) queue first complete test
    exact ⟨fun h => gone (discardTest_uncarried h), fun up => ⟨fun h => gone (discardTest_shed up h),
      fun h odd => gone (discardTest_thinned up h odd),
      fun h => releaseOldest_kept queue first complete (discardTest_kept up h)⟩⟩
  · have none_runs : ¬ SomeRunning s g := fun ⟨l, member, runs⟩ => idle l member runs
    have release := evaluate_noneRunning_release none_runs
    refine ⟨(evaluate_noneRunning none_runs).trans (releaseAllAlone_each (members_nodup s g) fun _ _ => rfl), ?_, ?_,
      fun l member => ⟨evaluate_noneRunning_carried none_runs member, evaluate_noneRunning_uncarried none_runs member⟩⟩
    · rw [State.group, release]
      exact congrArg Group.cursor (perGroup_get_set_same _ g _)
    · rw [release]; rfl
  · exact evaluate_unset running unset none
  · exact evaluate_sets_cursor unset split runs head first
  · exact evaluate_pass running cursor (evaluatePass_behind behind)
  · rw [← releaseMark_partial partially]
    exact evaluate_pass running cursor (evaluatePass_released behind waits present)
  · rw [← releaseMark_none whole]
    exact evaluate_pass running cursor (evaluatePass_released behind waits present)
  · exact evaluate_pass running cursor (evaluatePass_lags behind waits triggered)
  · exact evaluate_settled running cursor (evaluatePass_waits behind waits untriggered)
  · exact evaluate_settled running cursor (evaluatePass_noHoles behind waits nobody fun l member hole => holes l ⟨member, hole⟩)
  · obtain ⟨p, hp, least, pass⟩ := evaluatePass_nearest behind waits nobody ⟨k, member, hole⟩
    obtain ⟨l, member_l, head_l, judged_l⟩ := mem_holeHeads.mp hp
    refine ⟨l, p, ⟨member_l, p, head_l, judged_l⟩, head_l, fun j q ⟨member_j, q', head', judged'⟩ head_j => ?_,
      evaluate_pass running cursor pass⟩
    obtain rfl : q' = q := Option.some_inj.mp (head'.symm.trans head_j)
    exact least q' (mem_holeHeads.mpr ⟨j, member_j, head_j, judged'⟩)

end Sys2Proof.Proofs

/-! # Proofs: GROUP_SET and the joint release (O19)

What GROUP_SET answers and leaves (R52), and the release of the lines that two members hold at the cursor (R44 to R47). -/

namespace Sys2Proof.Proofs

open Sys2Proof.Machine Sys2Proof.Claims

variable {s : State} {g : GroupId} {l k : LaneId} {c : Position} {x y : LineRecord}

/-! ### An evaluation moves one cursor -/

theorem evaluateLoop_moves (g : GroupId) (n : Nat) (s : State) : CursorMoved g s (evaluateLoop g n s) := by
  induction n generalizing s with
  | zero => exact cursorMoved_of_same rfl g
  | succ n ih =>
    unfold evaluateLoop
    split
    · exact cursorMoved_of_same rfl g
    · split
      · exact cursorMoved_of_same rfl g
      · rename_i pass
        exact (evaluatePass_moves pass).trans (ih _)

theorem evaluate_moves (g : GroupId) (s : State) : CursorMoved g s (evaluate g s) := by
  by_cases running : SomeRunning s g
  · simp only [evaluate, any_running_iff.mpr running, if_true]
    split
    · exact evaluateLoop_moves g _ s
    · split
      · exact cursorMoved_of_same rfl g
      · rename_i p _ _
        exact (cursorMoved_modGroup g (some p) s).trans (evaluateLoop_moves g _ _)
  · refine (cursorMoved_modGroup g none s).trans (cursorMoved_of_same ?_ g)
    exact congrArg ReleaseUnit.groups (evaluate_noneRunning_release running)

/-! ### GROUP_SET (R52) -/

/-- The state after GROUP_SET: the skew limit set and the group evaluated. -/
def groupSkewed (g : GroupId) (n : Nat) (s : State) : State := evaluate g (s.modGroup g fun x => { x with skew := n })

@[simp] theorem groupOfCode_groupNum (g : GroupId) : groupOfCode (byteOf (groupNum g)).toNat = some g := by cases g <;> rfl

theorem clampSkew_eq (n : Nat) : clampSkew n = if n = 0 then 1 else if 8 < n then 8 else n := by
  unfold clampSkew
  split_ifs <;> omega

theorem groupSkewed_only (g : GroupId) (n : Nat) (s : State) : OnlyChanges evaluationChanges s (groupSkewed g n s) :=
  (modGroup_only _ _ s).andThen (evaluate_only g _)

theorem groupSkewed_members (g : GroupId) (n : Nat) (s : State) : members (groupSkewed g n s) g = members s g :=
  (evaluate_evaluates g (s.modGroup g fun x => { x with skew := n })).members_eq g

theorem groupSkewed_skew (g : GroupId) (n : Nat) (s : State) : ((groupSkewed g n s).group g).skew = n :=
  (evaluate_moves g _).skew.trans (congrArg Group.skew (perGroup_get_set_same _ g _))

theorem groupSkewed_other {j : GroupId} (hj : j ≠ g) (n : Nat) (s : State) : (groupSkewed g n s).group j = s.group j :=
  ((evaluate_moves g _).other hj).trans (perGroup_get_set_other _ g j _ hj)

/-! ### Two lines at the cursor -/

/-- A line released whole, with no mark. -/
def releasedPlain (x : LineRecord) : LineRecord := { x with state := .released, mark := none }

/-- A lane that holds one line, which waits and which the discard tests keep. -/
structure HoldsLine (s : State) (l : LaneId) (x : LineRecord) : Prop where
  queue : (s.lane l).queue = [x]
  complete : x.state = .complete
  carried : carryOf s l = some .carried

theorem HoldsLine.head (h : HoldsLine s l x) : headOf s l = some x.pos := by simp [headOf, h.queue, h.complete]

theorem HoldsLine.released (h : HoldsLine s l x) (up : s.link.state = .up) :
    releaseOldest none l s = setLane l { s.lane l with queue := [releasedPlain x] } s :=
  releaseOldest_kept (before := []) (rest := []) h.queue (by simp [NoneComplete]) h.complete
    (discardTest_kept up (.inl h.carried))

theorem HoldsLine.setLane_other (h : HoldsLine s k x) (hk : k ≠ l) (v : Lane) : HoldsLine (setLane l v s) k x :=
  ⟨by rw [lane_setLane_other hk]; exact h.queue, h.complete, h.carried⟩

/-- The two lanes with their lines released. -/
def bothReleased (l k : LaneId) (x y : LineRecord) (s : State) : State :=
  setLane k { s.lane k with queue := [releasedPlain y] } (setLane l { s.lane l with queue := [releasedPlain x] } s)

theorem bothReleased_lane_left (hk : k ≠ l) (x y : LineRecord) (s : State) :
    ((bothReleased l k x y s).lane l).queue = [releasedPlain x] := by
  rw [bothReleased, lane_setLane_other hk.symm, lane_setLane_same]

theorem bothReleased_lane_right (l k : LaneId) (x y : LineRecord) (s : State) :
    ((bothReleased l k x y s).lane k).queue = [releasedPlain y] := by
  rw [bothReleased, lane_setLane_same]

theorem pair_apart (pair : members s g = [l, k]) : k ≠ l := by
  have distinct := members_nodup s g
  rw [pair] at distinct
  rintro rfl
  simp at distinct

/-- The group release of two IN_STEP members with one line each at the cursor. -/
theorem groupReleased_pair (pair : members s g = [l, k]) (step_l : s.standing l = some .inStep)
    (step_k : s.standing k = some .inStep) (up : s.link.state = .up) (hx : HoldsLine s l x) (hy : HoldsLine s k y)
    (at_x : x.pos = c) (at_y : y.pos = c) :
    groupReleased none g c s = cursorAt g (nextPosition (s.lane l).desc.h c) (bothReleased l k x y s) := by
  have apart := pair_apart pair
  have present : presentAt s g c = [l, k] := by simp [presentAt, pair, hx.head, hy.head, at_x, at_y]
  have lines : groupLines s g = (s.lane l).desc.h := by simp only [groupLines, pair]
  have both : State.each (releaseOldest none) [l, k] s = bothReleased l k x y s := by
    rw [State.each, State.each, State.each, hx.released up, (hy.setLane_other apart _).released up, lane_setLane_other apart]
    rfl
  rw [groupReleased_eq, present, lines, both]
  simp [isInStep, step_l, step_k, State.each]

/-- With no line that waits an evaluation does nothing. -/
theorem evaluate_noHeads (running : SomeRunning s g) (cursor : (s.group g).cursor = some c)
    (h : ∀ l ∈ members s g, headOf s l = none) : evaluate g s = s :=
  evaluate_settled running cursor (evaluatePass_noHeads h c)

/-- The joint release of two members is all that the evaluation does. -/
theorem evaluate_pair (pair : members s g = [l, k]) (runs : (s.lane l).state = .running)
    (step_l : s.standing l = some .inStep) (step_k : s.standing k = some .inStep) (cursor : (s.group g).cursor = some c)
    (up : s.link.state = .up) (hx : HoldsLine s l x) (hy : HoldsLine s k y) (at_x : x.pos = c) (at_y : y.pos = c) :
    evaluate g s = cursorAt g (nextPosition (s.lane l).desc.h c) (bothReleased l k x y s) := by
  have running : SomeRunning s g := ⟨l, by simp [pair], runs⟩
  have head (j : LaneId) (member : j ∈ members s g) : headOf s j = some c := by
    obtain rfl | rfl : j = l ∨ j = k := by simpa [pair] using member
    · rw [hx.head, at_x]
    · rw [hy.head, at_y]
  have judged {v : Judgement} {j : LaneId} (member : j ∈ members s g) (h : HeadJudged v s c j) : v = .equal := by
    obtain ⟨p, at_p, judged⟩ := h
    obtain rfl : c = p := Option.some_inj.mp ((head j member).symm.trans at_p)
    exact judged.symm.trans (judge_equal_iff.mpr rfl)
  have behind : NoneBehind s g c := fun j member h => nomatch judged member h
  have waits : waitedFor s g = [] := List.eq_nil_iff_forall_not_mem.mpr fun j waits => by
    obtain ⟨member, none, -⟩ := mem_waitedFor.mp waits
    rw [head j member] at none
    cases none
  have present : presentAt s g c ≠ [] :=
    List.ne_nil_of_mem (mem_presentAt.mpr ⟨by simp [pair], head l (by simp [pair])⟩)
  have mark : releaseMark s g c = none := releaseMark_none fun j ⟨member, hole⟩ => nomatch judged member hole
  have pass := evaluatePass_released behind waits present
  rw [mark, groupReleased_pair pair step_l step_k up hx hy at_x at_y] at pass
  have evaluates := evaluatePass_evaluates pass
  have apart := pair_apart pair
  rw [evaluate_pass running cursor pass]
  refine evaluate_noHeads (running.of_evaluates evaluates) (congrArg Group.cursor (group_cursorAt g _ _)) fun j member => ?_
  rw [evaluates.members_eq, pair] at member
  rw [headOf_eq_none]
  obtain rfl | rfl : j = l ∨ j = k := by simpa using member
  · exact (bothReleased_lane_left apart x y s).symm ▸ by simp [NoneComplete, releasedPlain]
  · exact (bothReleased_lane_right l j x y s).symm ▸ by simp [NoneComplete, releasedPlain]

/-- Settles O19, by the reply of GROUP_SET and the joint release of the two lines. -/
theorem groupsReleaseTogether : Obligations.GroupsReleaseTogether := by
  refine ⟨?_, ?_⟩
  · intro tag skew g s ready skewed t
    have clamped : clampSkew skew.toNat = skewed := clampSkew_eq skew.toNat
    have limit : (t.group g).skew = skewed := groupSkewed_skew g skewed s
    refine ⟨?_, groupSkewed_only g skewed s, limit, fun j hj => groupSkewed_other hj skewed s⟩
    have reply : perform .head tag (.groupSet (byteOf (groupNum g)) skew) s = (t, some (doneWith (groupData g t))) := by
      simp only [perform, cmdGroupSet, groupOfCode_groupNum, clamped]
      rfl
    refine (exec_taken (c := .groupSet _ _) ready reply rfl nofun).trans (congrArg (replies .head 7 tag .done · t) ?_)
    have same : members t g = members s g := groupSkewed_members g skewed s
    change [byteOf (t.group g).skew] ++ cursorBytes (t.group g).cursor ++ _ ++ _ = _
    rw [limit, same]
    cases (t.group g).cursor <;> rfl
  · intro g l k c x y s pair runs_l _ step_l step_k cursor up carried_l carried_k queue_l queue_k complete_x complete_y at_x
      at_y t
    have hx : HoldsLine s l x := ⟨queue_l, complete_x, carried_l⟩
    have hy : HoldsLine s k y := ⟨queue_k, complete_y, carried_k⟩
    have evaluated : t = cursorAt g (nextPosition (s.lane l).desc.h c) (bothReleased l k x y s) :=
      evaluate_pair pair runs_l step_l step_k cursor up hx hy at_x at_y
    rw [evaluated]
    exact ⟨bothReleased_lane_left (pair_apart pair) x y s, bothReleased_lane_right l k x y s,
      congrArg Group.cursor (group_cursorAt g _ _), rfl, rfl, rfl⟩

end Sys2Proof.Proofs

/-! # Proofs: a loss of the link

What a loss of the link leaves of the plan store, of the queues and of the records (R63, R121, R124, R126, R127, R153), and what a
drop leaves with it (R138). -/

namespace Sys2Proof.Proofs

open Sys2Proof.Machine Sys2Proof.Claims

variable {s t u v : State} {cause : Cause}

/-! ### The plan store -/

theorem announcedSwitch_iff (s : State) : announcedSwitch s = true ↔ Announced s := by
  simp [announcedSwitch, Announced]

/-- The plan store once its hold and its switch have met the loss (R63, R126, R127). -/
theorem planLoss_plan (s : State) : { (planLoss s).plan with echo := .idle, lossTaken := true } = lostPlan s := by
  have raised (k : EventKind) (a b : Nat) (u : State) : (u.raise k a b).plan = u.plan := raise_only k a b u .plan (by decide)
  have freed (u : State) : (freeHold u).plan = { bankSet u.plan (otherId u.plan) .emptied with hold := .free } := rfl
  unfold planLoss lostPlan
  cases hold : s.plan.hold with
  | free => simp [hold]
  | held o ms =>
    cases o with
    | head => simp [hold]
    | base =>
      simp only [raised, freed]
      cases otherId s.plan <;> rfl
  | counting o =>
    by_cases announced : Announced s
    · simp only [if_pos ((announcedSwitch_iff s).mpr announced), if_pos announced]
      cases o with
      | head => simp only [raised]; rfl
      | base =>
        simp only [raised, freeHold_clearCountdown_plan]
        cases otherId s.plan <;> rfl
    · simp only [if_neg (mt (announcedSwitch_iff s).mp announced), if_neg announced]
      cases o <;> rfl

/-- A loss depends on the plan store alone. -/
theorem lostPlan_congr (h : v.plan = s.plan) : lostPlan v = lostPlan s := by
  simp only [lostPlan, Announced, h]

theorem lossOfLink_plan (s : State) : (lossOfLink s).plan = lostPlan s := by
  have last : (lossOfLink s).plan = { (planLoss s).plan with echo := .idle, lossTaken := true } :=
    discardRelayOut_only _ .plan (by decide)
  rw [last, planLoss_plan]

theorem lossOfLink_lost (h : v.plan = s.plan) : LinkLost s (lossOfLink v) := by
  obtain ⟨-, announce, relayOut⟩ := lossOfLink_noted v
  exact ⟨announce, relayOut, (lossOfLink_plan v).trans (lostPlan_congr h)⟩

/-! ### The records -/

/-- What the plan store raises at a loss of the link (R63, R126, R127). -/
theorem planLoss_agree (hp : v.plan = s.plan) (h : Agree u v) : Agree (raiseAll (planLossEvents s) u) (planLoss v) := by
  have bank : pendingBank v = pendingBank s := by rw [pendingBank, pendingBank, hp]
  have announced : announcedSwitch v = announcedSwitch s := by rw [announcedSwitch, announcedSwitch, hp]
  have raises (k : EventKind) (a b : Nat) {x y : State} (h : Agree x y) : Agree (x.raise k a b) (y.raise k a b) :=
    (raise_recording k a b).agree h
  have freed (x : State) : Agree x (freeHold x) := agree_of_only (freeHold_only x) (by decide)
  have cleared : Agree u (clearCountdown v) := h.trans (agree_of_only (clearCountdown_only v) (by decide))
  unfold planLoss planLossEvents
  rw [hp, bank, announced]
  cases s.plan.hold with
  | free => exact h
  | held o ms =>
    cases o with
    | head => exact h
    | base => exact raises _ _ _ (h.trans (freed v))
  | counting o =>
    have same : (decide (0 < s.plan.countdown) || s.plan.due == some .counted) = announcedSwitch s := rfl
    cases o with
    | head =>
      simp only [same]
      cases announcedSwitch s with
      | false => exact h
      | true => exact raises _ _ _ (cleared.trans (agree_of_only (modPlan_only _ _) (by decide)))
    | base =>
      simp only [same]
      cases announcedSwitch s with
      | false => exact h
      | true => exact raises _ _ _ (raises _ _ _ (cleared.trans (freed _)))

theorem discardRelayOut_agree (hr : v.control.relayOut = s.control.relayOut) (h : Agree u v) :
    Agree (raiseAll (relayEvents s) u) (discardRelayOut v) := by
  unfold relayEvents discardRelayOut
  simp only [hr]
  by_cases none : s.control.relayOut.length = 0
  · rw [if_pos none, if_pos none]
    exact h
  · rw [if_neg none, if_neg none]
    exact (raise_recording _ _ _).agree (h.trans (agree_of_only (emptyRelayOut_only v) (by decide)))

/-- The records of a loss of the link, the plan store's before RELAY_DISCARDED (log 13). -/
theorem lossOfLink_agree (hp : v.plan = s.plan) (hr : v.control.relayOut = s.control.relayOut) (h : Agree u v) :
    Agree (raiseAll (lossEvents s) u) (lossOfLink v) := by
  have noted : OnlyChanges [.plan, .announce] (planLoss v)
      (stopEcho ((noteLoss (planLoss v)).modControl fun c => { c with announce := [] })) :=
    ((noteLoss_only _).andThen (emptyAnnounce_only _) (rs := [.plan, .announce])).andThen (stopEcho_only _)
  have relayOut : (planLoss v).control.relayOut = v.control.relayOut := planLoss_only v .relayOut (by decide)
  rw [lossEvents, raiseAll_append]
  exact discardRelayOut_agree (Eq.trans (noted .relayOut (by decide)) (relayOut.trans hr))
    ((planLoss_agree hp h).trans (agree_of_only noted (by decide)))

/-! ### A drop -/

theorem recordDrop_link (cause : Cause) (s : State) : (recordDrop cause s).link =
    { s.link with lastCause := cause, dropCount := min 65535 (s.link.dropCount + 1) } :=
  raise_only _ _ _ _ .link (by decide)

theorem recordDrop_agree (cause : Cause) (h : Agree u s) :
    Agree (u.raise .linkDown (classNum s.link.classInForce) (causeNum cause)) (recordDrop cause s) :=
  (raise_recording _ _ _).agree (h.trans (agree_of_only (modLink_only _ s) (by decide)))

theorem enterDown_link (s : State) : (enterDown s).link = resting .down (.running 1000) s.link := rfl

/-- The blocks of a drop before it is a loss for the other blocks (R138). -/
theorem recordDrop_enterDown_only (cause : Cause) (s : State) :
    OnlyChanges [.link, .events, .notices, .counters] s (enterDown (recordDrop cause s)) :=
  (recordDrop_only cause s).andThen (enterDown_only _)

theorem dropToDown_dropped (cause : Cause) (s : State) : Dropped cause s (dropToDown cause s) := by
  have only := recordDrop_enterDown_only cause s
  have link : (dropToDown cause s).link = (enterDown (recordDrop cause s)).link := lossOfLink_only _ .link (by decide)
  refine ⟨?_, lossOfLink_lost (only .plan (by decide))⟩
  rw [link, enterDown_link, recordDrop_link]
  rfl

theorem dropToDown_agree (cause : Cause) (h : Agree u s) :
    Agree (raiseAll (dropEvents cause s) u) (dropToDown cause s) := by
  have only := recordDrop_enterDown_only cause s
  exact lossOfLink_agree (only .plan (by decide)) (only .relayOut (by decide))
    ((recordDrop_agree cause h).trans (agree_of_only (enterDown_only _) (by decide)))

/-- A drop with the records that it raises, its LINK_DOWN first (log 13). -/
theorem dropToDown_drops (cause : Cause) (s : State) : Drops cause s (dropToDown cause s) :=
  ⟨dropToDown_dropped cause s, (dropToDown_agree cause (.refl s)).1⟩

/-- What a drop records is read from the class in force, the plan store and the relay-out queue. -/
theorem dropEvents_congr (cause : Cause) (hc : v.link.classInForce = s.link.classInForce) (hp : v.plan = s.plan)
    (hr : v.control.relayOut = s.control.relayOut) : dropEvents cause v = dropEvents cause s := by
  have bank : pendingBank v = pendingBank s := by rw [pendingBank, pendingBank, hp]
  have plan : planLossEvents v = planLossEvents s := by simp only [planLossEvents, bank, hp]
  have relay : relayEvents v = relayEvents s := by simp only [relayEvents, hr]
  simp only [dropEvents, lossEvents, hc, plan, relay]

/-- The records of a drop from a state that differs only in what a drop does not read. -/
theorem dropToDown_agree_of (cause : Cause) (hc : v.link.classInForce = s.link.classInForce) (hp : v.plan = s.plan)
    (hr : v.control.relayOut = s.control.relayOut) (h : Agree s v) :
    Agree (raiseAll (dropEvents cause s) s) (dropToDown cause v) := by
  rw [← dropEvents_congr cause hc hp hr]
  exact dropToDown_agree cause h

/-- A drop from such a state. -/
theorem dropToDown_dropped_of (cause : Cause)
    (hl : resting .down (.running 1000) v.link = resting .down (.running 1000) s.link) (hp : v.plan = s.plan) :
    Dropped cause s (dropToDown cause v) := by
  have count : v.link.dropCount = s.link.dropCount := (congrArg LinkCtl.dropCount hl :)
  obtain ⟨link, announce, relayOut, plan⟩ := dropToDown_dropped cause v
  exact ⟨by rw [link, hl, count], announce, relayOut, plan.trans (lostPlan_congr hp)⟩

end Sys2Proof.Proofs

/-! # Proofs: what the laws of the plan store, the shares and the credits read

The laws of O7 read the banks, the hold, the countdown and the due flag, the runtimes, and the descriptors of the lanes. So a
step that leaves these alone keeps them; a step of the edit hold replaces the bank that is not active, the hold, the countdown and
the due flag; and the other few are taken one by one. -/

namespace Sys2Proof.Proofs

open Sys2Proof.Machine Sys2Proof.Claims

variable {s t u : State} {p : PlanStore} {ps : List Part} {b : Bank} {h : Hold} {c : Nat} {d : Option Due}

/-! ### The parts that the laws read -/

/-- The plan store without the echo watch, the standing of the base and the note of a loss, which no law reads. -/
def planCore (p : PlanStore) : PlanStore := { p with echo := .idle, baseStanding := .inStep, lossTaken := false }

/-- The entries that bind the lanes (R59). -/
def boundEntries (p : PlanStore) : List Entry :=
  (bankGet p (activeId p)).entries ++
    match p.hold with
    | .counting _ => (bankGet p (otherId p)).entries
    | _ => []

theorem bindingEntries_eq (s : State) : bindingEntries s = boundEntries s.plan := rfl

/-- An entry has a configured lane and a share no smaller than its demand (R59). -/
def Fits (s : State) (e : Entry) : Prop :=
  (s.lane e.lane).desc.configured = true ∧ demand (s.lane e.lane).desc ≤ e.share

theorem shareLaw_iff (s : State) : ShareLaw s ↔ ∀ e ∈ boundEntries s.plan, Fits s e := Iff.rfl

/-- Every lane has the descriptor that it had. -/
def SameDescs (s t : State) : Prop := ∀ l, (t.lane l).desc = (s.lane l).desc

theorem SameDescs.trans (h : SameDescs s t) (k : SameDescs t u) : SameDescs s u := fun l => (k l).trans (h l)

theorem sameDescs_of_only (h : OnlyChanges ps s t) (hp : Part.lanes ∉ ps) : SameDescs s t :=
  fun l => congrArg Lane.desc (lane_congr (h .lanes hp) l)

theorem sameDescs_modLane (l : LaneId) {f : Lane → Lane} (hf : ∀ x, (f x).desc = x.desc) (s : State) :
    SameDescs s (s.modLane l f) := by
  intro k
  by_cases hk : k = l
  · subst hk
    rw [lane_modLane_same, hf]
  · rw [lane_modLane_other l k f s hk]

theorem Fits.of_sameDescs (h : SameDescs s t) {e : Entry} (fits : Fits s e) : Fits t e := by
  rw [Fits, h e.lane]
  exact fits

/-! ### What a step keeps -/

/-- A step from s to t keeps the laws of O7. -/
structure KeepsLaws (s t : State) : Prop where
  plan : PlanLaw s.plan → PlanLaw t.plan
  share : PlanLaw s.plan → ShareLaw s → ShareLaw t
  builder : BuilderLaw s → BuilderLaw t

theorem KeepsLaws.refl (s : State) : KeepsLaws s s := ⟨id, fun _ => id, id⟩

theorem KeepsLaws.trans (h : KeepsLaws s t) (k : KeepsLaws t u) : KeepsLaws s u where
  plan := k.plan ∘ h.plan
  share law fits := k.share (h.plan law) (h.share law fits)
  builder := k.builder ∘ h.builder

theorem KeepsLaws.ite {q : Prop} [Decidable q] (h : q → KeepsLaws s t) (k : ¬ q → KeepsLaws s u) :
    KeepsLaws s (if q then t else u) := by
  split
  · exact h ‹_›
  · exact k ‹_›

/-- The laws read nothing else. -/
theorem KeepsLaws.same (plan : planCore t.plan = planCore s.plan) (runtimes : t.builder.runtimes = s.builder.runtimes)
    (descs : SameDescs s t) : KeepsLaws s t where
  plan law := by
    change PlanLaw (planCore t.plan)
    rw [plan]
    exact law
  share _ fits e bound := by
    have same : boundEntries (planCore t.plan) = boundEntries (planCore s.plan) := congrArg boundEntries plan
    change e ∈ boundEntries (planCore t.plan) at bound
    rw [same] at bound
    exact Fits.of_sameDescs descs (fits e bound)
  builder law := by
    have same : activeBank t = activeBank s :=
      activeBank_congr (congrArg PlanStore.bank0 plan :) (congrArg PlanStore.bank1 plan :)
    rw [BuilderLaw, same, runtimes]
    exact law

/-- A step of another block. -/
theorem KeepsLaws.only (only : OnlyChanges ps s t)
    (hp : ∀ p ∈ [Part.plan, .builder, .lanes], p ∉ ps) : KeepsLaws s t :=
  .same (congrArg planCore (only .plan (hp _ (by decide)))) (congrArg Builder.runtimes (only .builder (hp _ (by decide))))
    (sameDescs_of_only only (hp _ (by decide)))

/-- A step of the lanes that leaves their descriptors alone. -/
theorem KeepsLaws.lanes (only : OnlyChanges ps s t) (descs : SameDescs s t)
    (hp : ∀ p ∈ [Part.plan, .builder], p ∉ ps) : KeepsLaws s t :=
  .same (congrArg planCore (only .plan (hp _ (by decide)))) (congrArg Builder.runtimes (only .builder (hp _ (by decide)))) descs

/-- A step of the echo watch, the standing of the base or the note of a loss. -/
theorem KeepsLaws.core (only : OnlyChanges ps s t) (plan : planCore t.plan = planCore s.plan)
    (hp : ∀ p ∈ [Part.builder, .lanes], p ∉ ps) : KeepsLaws s t :=
  .same plan (congrArg Builder.runtimes (only .builder (hp _ (by decide)))) (sameDescs_of_only only (hp _ (by decide)))

theorem KeepsLaws.modPlan {f : PlanStore → PlanStore} (hf : ∀ p, planCore (f p) = planCore p) (s : State) :
    KeepsLaws s (s.modPlan f) := .core (modPlan_only f s) (hf s.plan) (by decide)

theorem KeepsLaws.modBuilder {f : Builder → Builder} (hf : ∀ b, (f b).runtimes = b.runtimes) (s : State) :
    KeepsLaws s (s.modBuilder f) := .same rfl (hf s.builder) fun _ => rfl

/-- The store at reset keeps every law. -/
theorem KeepsLaws.reset (plan : t.plan = PlanStore.reset) (builder : t.builder = Builder.reset) : KeepsLaws s t where
  plan _ := plan ▸ planLaw_reset
  share _ _ e bound := by
    rw [bindingEntries_eq, plan] at bound
    exact nomatch bound
  builder _ := by
    rw [BuilderLaw, activeBank, plan, builder]
    exact .nil

theorem KeepsLaws.each {α : Type} {f : α → State → State} (hf : ∀ a s, KeepsLaws s (f a s)) (xs : List α) (s : State) :
    KeepsLaws s (State.each f xs s) := by
  induction xs generalizing s with
  | nil => exact .refl s
  | cons a rest ih => exact (hf a s).trans (ih _)

/-! ### The law of the plan store by the bank that is active -/

/-- What the hold says of the other bank, the countdown and the due flag (R61, R66, R116). -/
def HoldLaw (h : Hold) (active other : Bank) (c : Nat) (d : Option Due) : Prop :=
  match h with
  | .free => other = .emptied ∧ c = 0 ∧ d = none
  | .held _ _ => other.role = .pending ∧ other.epoch = active.epoch + 1 ∧ c = 0 ∧ d = none
  | .counting _ => other.role = .pending ∧ other.epoch = active.epoch + 1 ∧ (0 < c ∨ d.isSome = true)

theorem planLaw_iff (p : PlanStore) : PlanLaw p ↔
    BankLaw (bankGet p (activeId p)) ∧ BankLaw (bankGet p (otherId p)) ∧ (bankGet p (activeId p)).role = .active ∧
      p.countdown ≤ 16 ∧ (p.due.isSome = true → p.countdown = 0) ∧
      HoldLaw p.hold (bankGet p (activeId p)) (bankGet p (otherId p)) p.countdown p.due := by
  have banks : BankLaw p.bank0 ∧ BankLaw p.bank1 ↔
      BankLaw (bankGet p (activeId p)) ∧ BankLaw (bankGet p (otherId p)) := by
    unfold otherId
    cases activeId p
    · exact Iff.rfl
    · exact and_comm
  have law : PlanLaw p ↔ BankLaw p.bank0 ∧ BankLaw p.bank1 ∧ (bankGet p (activeId p)).role = .active ∧
      p.countdown ≤ 16 ∧ (p.due.isSome = true → p.countdown = 0) ∧
      HoldLaw p.hold (bankGet p (activeId p)) (bankGet p (otherId p)) p.countdown p.due := Iff.rfl
  rw [law, ← and_assoc, banks, and_assoc]

/-- The store with another value of the bank that is not active, and of the hold, the countdown and the due flag. -/
def withOther (p : PlanStore) (b : Bank) (h : Hold) (c : Nat) (d : Option Due) : PlanStore :=
  { bankSet p (otherId p) b with hold := h, countdown := c, due := d }

/-- The other bank as it is: only the hold, the countdown and the due flag change. -/
theorem withOther_self (p : PlanStore) (h : Hold) (c : Nat) (d : Option Due) :
    withOther p (bankGet p (otherId p)) h c d = { p with hold := h, countdown := c, due := d } := by
  unfold withOther
  cases otherId p <;> rfl

/-- The countdown and the due flag as they are: only the bank and the hold change. -/
theorem withOther_bankSet (p : PlanStore) (b : Bank) (h : Hold) :
    withOther p b h p.countdown p.due = { bankSet p (otherId p) b with hold := h } := by
  unfold withOther
  cases otherId p <;> rfl

section
variable (role : b.role = .active → (bankGet p (otherId p)).role = .active)
include role

theorem activeId_withOther : activeId (withOther p b h c d) = activeId p := by
  by_cases first : p.bank0.role = .active
  · simp [withOther, otherId, activeId, otherBank, bankSet, first]
  · have not_active : b.role ≠ .active := fun active => first (by
      have other := role active
      rwa [otherId, activeId, if_neg first] at other)
    simp [withOther, otherId, activeId, otherBank, bankSet, first, not_active]

theorem otherId_withOther : otherId (withOther p b h c d) = otherId p := by rw [otherId, activeId_withOther role, otherId]

theorem bankGet_withOther_active :
    bankGet (withOther p b h c d) (activeId (withOther p b h c d)) = bankGet p (activeId p) := by
  rw [activeId_withOther role, withOther, otherId]
  cases activeId p <;> rfl

theorem bankGet_withOther_other : bankGet (withOther p b h c d) (otherId (withOther p b h c d)) = b := by
  rw [otherId_withOther role, withOther]
  cases otherId p <;> rfl

end

/-- What a change of the other bank and of the hold must say for itself. -/
structure OtherLaw (s : State) (b : Bank) (h : Hold) (c : Nat) (d : Option Due) : Prop where
  role : b.role = .active → (pendingBank s).role = .active
  law : PlanLaw s.plan → BankLaw b ∧ c ≤ 16 ∧ (d.isSome = true → c = 0) ∧ HoldLaw h (activeBank s) b c d
  binding : PlanLaw s.plan → ShareLaw s → ∀ o, h = .counting o → ∀ e ∈ b.entries, Fits s e

/-- The other bank and the hold change; the runtimes and the descriptors stand. -/
theorem KeepsLaws.replaced (plan : planCore t.plan = planCore (withOther s.plan b h c d))
    (runtimes : t.builder.runtimes = s.builder.runtimes) (descs : SameDescs s t) (other : OtherLaw s b h c d) :
    KeepsLaws s t := by
  have active := bankGet_withOther_active (h := h) (c := c) (d := d) other.role
  have pending := bankGet_withOther_other (h := h) (c := c) (d := d) other.role
  have moved : KeepsLaws s { s with plan := withOther s.plan b h c d } := by
    refine ⟨fun law => ?_, fun law fits => ?_, fun law => ?_⟩
    · obtain ⟨bank, -, role, -⟩ := (planLaw_iff s.plan).mp law
      rw [planLaw_iff, active, pending]
      obtain ⟨hb, hc, hd, hh⟩ := other.law law
      exact ⟨bank, hb, role, hc, hd, hh⟩
    · rw [shareLaw_iff] at fits ⊢
      intro e bound
      rw [boundEntries, active, pending] at bound
      obtain in_active | in_other := List.mem_append.mp bound
      · exact fits e (List.mem_append_left _ in_active)
      · cases h with
        | free | held => exact nomatch in_other
        | counting o => exact other.binding law fits o rfl e in_other
    · rw [BuilderLaw, activeBank, active]
      exact law
  exact moved.trans (.same plan runtimes descs)

/-- A step of the edit hold. -/
theorem KeepsLaws.other (only : OnlyChanges ps s t) (plan : planCore t.plan = planCore (withOther s.plan b h c d))
    (other : OtherLaw s b h c d) (hp : ∀ p ∈ [Part.builder, .lanes], p ∉ ps) : KeepsLaws s t :=
  .replaced plan (congrArg Builder.runtimes (only .builder (hp _ (by decide))))
    (sameDescs_of_only only (hp _ (by decide))) other

end Sys2Proof.Proofs

/-! # Proofs: the edit hold and the laws of O7

Each operation of the plan store replaces the bank that is not active, the hold, the countdown and the due flag; what the laws
ask of the new values is stated for each. -/

namespace Sys2Proof.Proofs

open Sys2Proof.Machine Sys2Proof.Claims

variable {s t u : State} {ps : List Part} {o : Origin} {ms n : Nat} {es : List Entry}

/-! ### The hold checks -/

/-- An edit passes the hold checks for the holder alone (R65). -/
theorem holdRefusal_edit_none : holdRefusal s o false = none ↔ ∃ ms, s.plan.hold = .held o ms := by
  unfold holdRefusal
  cases s.plan.hold with
  | free | counting => simp
  | held h ms => simp [eq_comm]

/-- PLAN_OPEN passes them in FREE as well (R65). -/
theorem holdRefusal_open_none :
    holdRefusal s o true = none ↔ s.plan.hold = .free ∨ ∃ ms, s.plan.hold = .held o ms := by
  unfold holdRefusal
  cases s.plan.hold with
  | free | counting => simp
  | held h ms => simp [eq_comm]

theorem restartHoldTimer_held (hold : s.plan.hold = .held o ms) : restartHoldTimer s = restarted o s := by
  rw [restartHoldTimer, hold]
  rfl

theorem restartHoldTimer_eq_self (h : ∀ o ms, s.plan.hold ≠ .held o ms) : restartHoldTimer s = s := by
  unfold restartHoldTimer
  split
  · exact absurd ‹_› (h _ _)
  · rfl

/-! ### The checks of a commit -/

theorem firstUnknown_eq_none {i : Nat} :
    firstUnknown s i es = none ↔ ∀ e ∈ es, (s.lane e.lane).desc.configured = true := by
  induction es generalizing i with
  | nil => simp [firstUnknown]
  | cons e es ih =>
    by_cases known : (s.lane e.lane).desc.configured = true
    · simp [firstUnknown, known, ih]
    · simp [firstUnknown, known]

theorem firstShort_eq_none {i : Nat} :
    firstShort s i es = none ↔ ∀ e ∈ es, demand (s.lane e.lane).desc ≤ e.share := by
  induction es generalizing i with
  | nil => simp [firstShort]
  | cons e es ih =>
    by_cases short : e.share < demand (s.lane e.lane).desc
    · simp [firstShort, short]
    · simp [firstShort, short, ih, Nat.le_of_not_lt short]

/-- Every entry of a bank whose commit passes fits its lane (R59, R74, R75). -/
theorem fits_of_commitCheck (passes : commitCheck s = .passes) {e : Entry} (he : e ∈ (pendingBank s).entries) :
    Fits s e := by
  unfold commitCheck at passes
  dsimp only at passes
  split at passes
  · cases passes
  · split at passes
    · cases passes
    · rename_i known
      split at passes
      · cases passes
      · rename_i long
        exact ⟨firstUnknown_eq_none.mp known e he, firstShort_eq_none.mp long e he⟩

/-! ### What the law says in each state of the hold -/

theorem bankLaw_pending (law : PlanLaw s.plan) : BankLaw (pendingBank s) := ((planLaw_iff s.plan).mp law).2.1

theorem bankLaw_active (law : PlanLaw s.plan) : BankLaw (activeBank s) := ((planLaw_iff s.plan).mp law).1

theorem holdLaw_of_planLaw (law : PlanLaw s.plan) :
    HoldLaw s.plan.hold (activeBank s) (pendingBank s) s.plan.countdown s.plan.due :=
  ((planLaw_iff s.plan).mp law).2.2.2.2.2

theorem countdown_of_planLaw (law : PlanLaw s.plan) :
    s.plan.countdown ≤ 16 ∧ (s.plan.due.isSome = true → s.plan.countdown = 0) :=
  have ⟨_, _, _, bound, ended, _⟩ := (planLaw_iff s.plan).mp law
  ⟨bound, ended⟩

theorem holdLaw_held (law : PlanLaw s.plan) (hold : s.plan.hold = .held o ms) :
    (pendingBank s).role = .pending ∧ (pendingBank s).epoch = (activeBank s).epoch + 1 ∧ s.plan.countdown = 0 ∧
      s.plan.due = none := by
  have hold_law := holdLaw_of_planLaw law
  rwa [hold] at hold_law

theorem holdLaw_counting (law : PlanLaw s.plan) (hold : s.plan.hold = .counting o) :
    (pendingBank s).role = .pending ∧ (pendingBank s).epoch = (activeBank s).epoch + 1 ∧
      (0 < s.plan.countdown ∨ s.plan.due.isSome = true) := by
  have hold_law := holdLaw_of_planLaw law
  rwa [hold] at hold_law

theorem holdLaw_free (law : PlanLaw s.plan) (hold : s.plan.hold = .free) :
    pendingBank s = .emptied ∧ s.plan.countdown = 0 ∧ s.plan.due = none := by
  have hold_law := holdLaw_of_planLaw law
  rwa [hold] at hold_law

theorem bankLaw_emptied : BankLaw .emptied := ⟨Nat.zero_le _, List.nodup_nil⟩

/-! ### The new values of the other bank and of the hold -/

/-- The pending bank of a holder gets other entries, and its timer another value (R62, R68, R69, R70). -/
theorem otherLaw_edited (hold : s.plan.hold = .held o ms)
    (bank : BankLaw (pendingBank s) → BankLaw { pendingBank s with entries := es }) :
    OtherLaw s { pendingBank s with entries := es } (.held o n) s.plan.countdown s.plan.due where
  role := id
  law law := by
    obtain ⟨bound, ended⟩ := countdown_of_planLaw law
    exact ⟨bank (bankLaw_pending law), bound, ended, holdLaw_held law hold⟩
  binding _ _ _ counting := nomatch counting

/-- The timer alone gets another value. -/
theorem otherLaw_timed (hold : s.plan.hold = .held o ms) :
    OtherLaw s (pendingBank s) (.held o n) s.plan.countdown s.plan.due := otherLaw_edited hold id

/-- A holder's hold is freed and its bank discarded (R61). -/
theorem otherLaw_freed (hold : s.plan.hold = .held o ms) : OtherLaw s .emptied .free s.plan.countdown s.plan.due where
  role active := nomatch active
  law law := by
    obtain ⟨bound, ended⟩ := countdown_of_planLaw law
    obtain ⟨-, -, still, not_due⟩ := holdLaw_held law hold
    exact ⟨bankLaw_emptied, bound, ended, rfl, still, not_due⟩
  binding _ _ _ counting := nomatch counting

/-- Any hold is freed, with its bank discarded and its switch cancelled (R64, R127). -/
theorem otherLaw_dropped (s : State) : OtherLaw s .emptied .free 0 none where
  role active := nomatch active
  law _ := ⟨bankLaw_emptied, Nat.zero_le _, fun _ => rfl, rfl, rfl, rfl⟩
  binding _ _ _ counting := nomatch counting

/-- A hold that is FREE stays so, with no switch on its way. -/
theorem otherLaw_still_free (hold : s.plan.hold = .free) : OtherLaw s (pendingBank s) .free 0 none where
  role := id
  law law := ⟨bankLaw_pending law, Nat.zero_le _, fun _ => rfl, (holdLaw_free law hold).1, rfl, rfl⟩
  binding _ _ _ counting := nomatch counting

/-- A switch of the head port is cancelled, back to HELD (R126). -/
theorem otherLaw_cancelled (hold : s.plan.hold = .counting o) : OtherLaw s (pendingBank s) (.held o n) 0 none where
  role := id
  law law := by
    obtain ⟨role, epoch, -⟩ := holdLaw_counting law hold
    exact ⟨bankLaw_pending law, Nat.zero_le _, fun _ => rfl, role, epoch, rfl, rfl⟩
  binding _ _ _ counting := nomatch counting

/-- The other bank takes the active entries at the next epoch (R66). -/
theorem otherLaw_opened (hold : s.plan.hold = .free) :
    OtherLaw s { role := .pending, epoch := (activeBank s).epoch + 1, entries := (activeBank s).entries } (.held o n)
      s.plan.countdown s.plan.due where
  role active := nomatch active
  law law := by
    obtain ⟨bound, ended⟩ := countdown_of_planLaw law
    obtain ⟨-, still, not_due⟩ := holdLaw_free law hold
    exact ⟨bankLaw_active law, bound, ended, rfl, rfl, still, not_due⟩
  binding _ _ _ counting := nomatch counting

/-- The countdown of a switch begins in UP, at a bank that fits its lanes (R59, R78). -/
theorem otherLaw_announced (hold : s.plan.hold = .held o ms) (passes : commitCheck s = .passes) :
    OtherLaw s (pendingBank s) (.counting o) 16 s.plan.due where
  role := id
  law law := by
    obtain ⟨role, epoch, -, not_due⟩ := holdLaw_held law hold
    exact ⟨bankLaw_pending law, Nat.le_refl _, by simp [not_due], role, epoch, .inl (by decide)⟩
  binding _ _ _ _ _ he := fits_of_commitCheck passes he

/-- The switch is due at once outside UP (R116). -/
theorem otherLaw_due (hold : s.plan.hold = .held o ms) (passes : commitCheck s = .passes) :
    OtherLaw s (pendingBank s) (.counting o) s.plan.countdown (some .uncounted) where
  role := id
  law law := by
    obtain ⟨role, epoch, still, -⟩ := holdLaw_held law hold
    exact ⟨bankLaw_pending law, by simp [still], fun _ => still, role, epoch, .inr rfl⟩
  binding _ _ _ _ _ he := fits_of_commitCheck passes he

/-- A countdown above 0 is a COUNTING hold's (R116). -/
theorem counting_of_countdown (law : PlanLaw s.plan) (h : s.plan.countdown ≠ 0) : ∃ o, s.plan.hold = .counting o := by
  cases hold : s.plan.hold with
  | free => exact absurd (holdLaw_free law hold).2.1 h
  | held o ms => exact absurd (holdLaw_held law hold).2.2.1 h
  | counting o => exact ⟨o, rfl⟩

/-- The countdown of a switch falls, and the switch is due where it ends (R116). -/
theorem otherLaw_counted {c : Nat} {d : Option Due} (running : s.plan.countdown ≠ 0) (less : c ≤ s.plan.countdown)
    (ends : c = 0 ∧ d.isSome = true ∨ 0 < c ∧ d = s.plan.due) : OtherLaw s (pendingBank s) s.plan.hold c d where
  role := id
  law law := by
    obtain ⟨bound, ended⟩ := countdown_of_planLaw law
    obtain ⟨o, hold⟩ := counting_of_countdown law running
    obtain ⟨role, epoch, -⟩ := holdLaw_counting law hold
    have not_due : s.plan.due.isSome = false := by
      by_contra due
      exact running (ended (Bool.eq_true_of_not_eq_false due))
    rw [hold]
    refine ⟨bankLaw_pending law, by omega, ?_, role, epoch, ?_⟩
    · obtain ⟨rfl, -⟩ | ⟨-, rfl⟩ := ends
      · exact fun _ => rfl
      · simp [not_due]
    · obtain ⟨-, due⟩ | ⟨positive, -⟩ := ends
      · exact .inr due
      · exact .inl positive
  binding _ fits o hold e he := fits e (by
    rw [bindingEntries, hold]
    exact List.mem_append_right _ he)

/-! ### The operations -/

theorem KeepsLaws.hold {h : Hold} {c : Nat} {d : Option Due} (only : OnlyChanges ps s t)
    (plan : planCore t.plan = planCore { s.plan with hold := h, countdown := c, due := d })
    (other : OtherLaw s (pendingBank s) h c d) (hp : ∀ p ∈ [Part.builder, .lanes], p ∉ ps) : KeepsLaws s t :=
  .other only (by rw [plan, pendingBank, withOther_self]) other hp

theorem restartHoldTimer_keeps (s : State) : KeepsLaws s (restartHoldTimer s) := by
  cases hold : s.plan.hold with
  | free | counting =>
    have same : restartHoldTimer s = s := restartHoldTimer_eq_self (by simp [hold])
    rw [same]
    exact .refl s
  | held o ms =>
    rw [restartHoldTimer_held hold]
    exact .hold (modPlan_only (fun p => { p with hold := .held o 2000 }) s) rfl (otherLaw_timed hold) (by decide)

/-- A holder's timer loses a millisecond (R62). -/
theorem countTimers_keeps (s : State) : KeepsLaws s (countTimers s) := by
  have counted : KeepsLaws s (s.modPlan fun p => { p with hold := countHold p.hold }) := by
    cases hold : s.plan.hold with
    | free | counting =>
      have same : countHold s.plan.hold = s.plan.hold := by rw [hold]; rfl
      exact .same (by rw [modPlan_plan, same]) rfl fun _ => rfl
    | held o ms =>
      have less : countHold s.plan.hold = .held o (ms - 1) := by rw [hold]; rfl
      exact .hold (modPlan_only _ s) (by rw [modPlan_plan, less]) (otherLaw_timed hold) (by decide)
  exact counted.trans (.only (modTimers_only _ _) (by decide))

theorem openHold_keeps (hold : s.plan.hold = .free) : KeepsLaws s (openHold o s) :=
  .other (modPlan_only _ s) (by rw [withOther_bankSet]; rfl) (otherLaw_opened (n := 2000) hold) (by decide)

/-- The entries of a holder's bank are replaced by others that keep R57. -/
theorem setPendingEntries_keeps (hold : s.plan.hold = .held o ms)
    (bank : BankLaw (pendingBank s) → BankLaw { pendingBank s with entries := es }) :
    KeepsLaws s (setPendingEntries es s) := by
  refine .other (modPlan_only _ s) ?_ (otherLaw_edited (n := ms) hold bank) (by decide)
  rw [← hold, withOther_bankSet, setPendingEntries, modPlan_plan, pendingBank]
  cases otherId s.plan <;> rfl

theorem freeHold_keeps (hold : s.plan.hold = .held o ms) : KeepsLaws s (freeHold s) :=
  .other (freeHold_only s) (by rw [withOther_bankSet]; rfl) (otherLaw_freed hold) (by decide)

theorem holdExpiry_keeps (s : State) : KeepsLaws s (holdExpiry s) := by
  unfold holdExpiry
  split
  · exact (freeHold_keeps ‹_›).trans (.only (raise_only _ _ _ _) (by decide))
  · exact .refl s

theorem acceptCommit_keeps (hold : s.plan.hold = .held o ms) (passes : commitCheck s = .passes) :
    KeepsLaws s (acceptCommit o s) := by
  unfold acceptCommit
  split
  · exact .hold ((queueAnnouncement_only _ _ s).andThen (rs := [.announce, .plan]) (modPlan_only _ _)) rfl
      (otherLaw_announced hold passes) (by decide)
  · exact .hold (modPlan_only _ s) rfl (otherLaw_due hold passes) (by decide)

theorem countdownTick_keeps (s : State) : KeepsLaws s (countdownTick s) := by
  unfold countdownTick
  split
  · exact .refl s
  · rename_i running
    split
    · exact .hold (modPlan_only _ s) rfl (otherLaw_counted running (Nat.zero_le _) (.inl ⟨rfl, rfl⟩)) (by decide)
    · exact .hold (modPlan_only _ s) rfl
        (otherLaw_counted running (Nat.sub_le _ _) (.inr ⟨by omega, rfl⟩)) (by decide)

/-- What a loss of the link leaves of the plan store keeps the laws (R63, R126, R127). -/
theorem lossOfLink_keeps (s : State) : KeepsLaws s (lossOfLink s) := by
  have only := lossOfLink_only s
  have lost := congrArg planCore (lossOfLink_plan s)
  have stands : planCore (lostPlan s) = planCore s.plan → KeepsLaws s (lossOfLink s) :=
    fun same => .core only (lost.trans same) (by decide)
  cases hold : s.plan.hold with
  | free => exact stands (by rw [lostPlan, hold]; rfl)
  | held o ms =>
    cases o with
    | head => exact stands (by rw [lostPlan, hold]; rfl)
    | base =>
      refine .other only (lost.trans ?_) (otherLaw_freed hold) (by decide)
      rw [lostPlan, hold, withOther]
      cases otherId s.plan <;> rfl
  | counting o =>
    by_cases announced : Announced s
    · cases o with
      | head =>
        refine .hold only (lost.trans ?_) (otherLaw_cancelled (n := 2000) hold) (by decide)
        rw [lostPlan, hold]
        simp only [if_pos announced]
        rfl
      | base =>
        refine .other only (lost.trans ?_) (otherLaw_dropped s) (by decide)
        rw [lostPlan, hold]
        simp only [if_pos announced]
        unfold withOther
        cases otherId s.plan <;> rfl
    · refine stands ?_
      rw [lostPlan, hold]
      simp only [if_neg announced]
      cases o <;> rfl

theorem dropToDown_keeps (cause : Cause) (s : State) : KeepsLaws s (dropToDown cause s) :=
  (KeepsLaws.only (recordDrop_enterDown_only cause s) (by decide)).trans (lossOfLink_keeps _)

end Sys2Proof.Proofs

/-! # Proofs: the laws of O7 at a frame event

The assessment and the fill bound the credits (R84, R85, R106), the ladder sheds no entry of priority 0 (R104), and the switch
brings in a bank that fits its lanes (R59, R118). Within a frame event in UP the switch leaves the credits unbounded until the
assessment that goes with it (R102), so the two are taken as one step. -/

namespace Sys2Proof.Proofs

open Sys2Proof.Machine Sys2Proof.Claims

variable {s t u : State} {es : List Entry} {rs : List Runtime}

/-! ### The ladder sheds no entry of priority 0 -/

/-- No entry of priority 0 is SHED. -/
def KeepsTop (e : Entry) (c : CarryState) : Prop := e.priority = 0 → c ≠ .shed

theorem thinLevel_keepsTop {p : Fin 4} {c16 t : Nat} {xs : List (Entry × CarryState)} (h : ∀ x ∈ xs, KeepsTop x.1 x.2) :
    ∀ x ∈ (thinLevel p c16 xs t).1, KeepsTop x.1 x.2 := by
  induction xs generalizing t with
  | nil => exact h
  | cons x xs ih =>
    obtain ⟨head, tail⟩ := List.forall_mem_cons.mp h
    unfold thinLevel
    split
    · exact List.forall_mem_cons.mpr ⟨fun _ => by simp, ih tail⟩
    · exact List.forall_mem_cons.mpr ⟨head, ih tail⟩

theorem shedLevel_keepsTop {p : Fin 4} (hp : p ≠ 0) {c16 t : Nat} {xs : List (Entry × CarryState)}
    (h : ∀ x ∈ xs, KeepsTop x.1 x.2) : ∀ x ∈ (shedLevel p c16 xs t).1, KeepsTop x.1 x.2 := by
  induction xs generalizing t with
  | nil => exact h
  | cons x xs ih =>
    obtain ⟨head, tail⟩ := List.forall_mem_cons.mp h
    unfold shedLevel
    split
    · rename_i sheds
      exact List.forall_mem_cons.mpr ⟨fun top => absurd (sheds.2.symm.trans top) hp, ih tail⟩
    · exact List.forall_mem_cons.mpr ⟨head, ih tail⟩

theorem ladderLevel_keepsTop {p : Fin 4} {c16 : Nat} {x : List (Entry × CarryState) × Nat}
    (h : ∀ y ∈ x.1, KeepsTop y.1 y.2) : ∀ y ∈ (ladderLevel c16 x p).1, KeepsTop y.1 y.2 := by
  unfold ladderLevel
  dsimp only
  split
  · exact thinLevel_keepsTop h
  · exact shedLevel_keepsTop ‹_› (thinLevel_keepsTop h)

theorem thinLevel_entries (p : Fin 4) (c16 : Nat) (xs : List (Entry × CarryState)) (t : Nat) :
    (thinLevel p c16 xs t).1.map Prod.fst = xs.map Prod.fst := by
  induction xs generalizing t with
  | nil => rfl
  | cons x xs ih => unfold thinLevel; split <;> simp [ih]

theorem shedLevel_entries (p : Fin 4) (c16 : Nat) (xs : List (Entry × CarryState)) (t : Nat) :
    (shedLevel p c16 xs t).1.map Prod.fst = xs.map Prod.fst := by
  induction xs generalizing t with
  | nil => rfl
  | cons x xs ih => unfold shedLevel; split <;> simp [ih]

theorem ladderLevel_entries (c16 : Nat) (x : List (Entry × CarryState) × Nat) (p : Fin 4) :
    (ladderLevel c16 x p).1.map Prod.fst = x.1.map Prod.fst := by
  unfold ladderLevel
  dsimp only
  split
  · exact thinLevel_entries ..
  · rw [shedLevel_entries, thinLevel_entries]

/-- The ladder gives each entry its state, and sheds none of priority 0 (R104). -/
theorem ladder_keepsTop (es : List Entry) (c16 : Nat) : List.Forall₂ KeepsTop es (ladder es c16).1 := by
  have start : ∀ x ∈ es.reverse.map fun e => (e, CarryState.carried), KeepsTop x.1 x.2 := by
    intro x hx top
    obtain ⟨e, -, rfl⟩ := List.mem_map.mp hx
    exact nofun
  have levels (ps : List (Fin 4)) (x : List (Entry × CarryState) × Nat) (h : ∀ y ∈ x.1, KeepsTop y.1 y.2) :
      (∀ y ∈ (ps.foldl (ladderLevel c16) x).1, KeepsTop y.1 y.2) ∧
        (ps.foldl (ladderLevel c16) x).1.map Prod.fst = x.1.map Prod.fst := by
    induction ps generalizing x with
    | nil => exact ⟨h, rfl⟩
    | cons p ps ih =>
      obtain ⟨kept, entries⟩ := ih _ (ladderLevel_keepsTop (p := p) h)
      exact ⟨kept, entries.trans (ladderLevel_entries c16 x p)⟩
  obtain ⟨kept, entries⟩ := levels [3, 2, 1, 0] (_, shareTotal es) start
  have sides : List.Forall₂ KeepsTop (([3, 2, 1, 0].foldl (ladderLevel c16)
      (es.reverse.map fun e => (e, CarryState.carried), shareTotal es)).1.map Prod.fst).reverse (ladder es c16).1 := by
    rw [ladder, List.forall₂_reverse_iff, List.forall₂_map_left_iff, List.forall₂_map_right_iff, List.forall₂_same]
    exact kept
  rwa [entries, List.map_map, Function.comp_def, List.map_id', List.reverse_reverse] at sides

/-! ### The runtimes -/

/-- A bounded credit keeps the law of its entry (R84, R85). -/
theorem runtimeLaw_boundCredit {e : Entry} {c : CarryState} (top : KeepsTop e c) (credit : Nat) :
    RuntimeLaw e { credit := boundCredit e.share c credit, carry := c } := by
  refine ⟨?_, top⟩
  dsimp only
  rw [boundCredit_eq]
  split
  · rfl
  · exact min_le_right _ _

theorem runtimeLaw_carryOver (e : Entry) (r : Runtime) : RuntimeLaw e (carryOver e r) := by
  refine runtimeLaw_boundCredit (fun top => ?_) _
  by_cases shed : r.carry = .shed <;> simp [top, shed]

theorem runtimeLaw_zero {e : Entry} {r : Runtime} (h : RuntimeLaw e r) : RuntimeLaw e { r with credit := 0 } := by
  refine ⟨?_, h.2⟩
  dsimp only
  split
  · rfl
  · exact Nat.zero_le _

theorem settleRuntimes_law {cs : List CarryState} (top : List.Forall₂ KeepsTop es cs) (aligned : es.length = rs.length) :
    List.Forall₂ RuntimeLaw es (settleRuntimes es cs rs) := by
  induction top generalizing rs with
  | nil => exact .nil
  | cons head _ ih =>
    cases rs with
    | nil => cases aligned
    | cons r rs => exact .cons (runtimeLaw_boundCredit head _) (ih (Nat.succ.inj aligned))

theorem zipWith_carryOver_law (aligned : es.length = rs.length) :
    List.Forall₂ RuntimeLaw es (List.zipWith carryOver es rs) := by
  induction es generalizing rs with
  | nil => exact .nil
  | cons e es ih =>
    cases rs with
    | nil => cases aligned
    | cons r rs => exact .cons (runtimeLaw_carryOver e r) (ih (Nat.succ.inj aligned))

/-- The credit pass adds to each credit under the cap, and takes away what it grants (R88). -/
theorem creditPass_law (law : List.Forall₂ RuntimeLaw es rs) (i free : Nat) (s : State) :
    List.Forall₂ RuntimeLaw es (creditPass i es rs free s).runtimes := by
  induction law generalizing i free s with
  | nil => exact .nil
  | cons head tail ih =>
    unfold creditPass
    split
    · exact .cons head (ih ..)
    · rename_i not_shed
      refine .cons ⟨?_, head.2⟩ (ih ..)
      rw [if_neg not_shed]
      exact (Nat.sub_le _ _).trans (min_le_right _ _)

/-! ### The assessment and the fill -/

/-- The active plan has a runtime for every entry. -/
def Aligned (s : State) : Prop := (activeBank s).entries.length = s.builder.runtimes.length

theorem aligned_of_builderLaw (law : BuilderLaw s) : Aligned s := law.length_eq

theorem builderLaw_congr (plan : t.plan = s.plan) (runtimes : t.builder.runtimes = s.builder.runtimes) (law : BuilderLaw s) :
    BuilderLaw t := by
  have same : activeBank t = activeBank s := activeBank_congr (by rw [plan]) (by rw [plan])
  rw [BuilderLaw, same, runtimes]
  exact law

/-- An assessment bounds every credit, whatever the runtimes were (R106). -/
theorem assess_builderLaw (aligned : Aligned s) : BuilderLaw (assess s) := by
  have bank : activeBank (assess s) = activeBank s :=
    have plan : (assess s).plan = s.plan := assess_only s .plan (by decide)
    activeBank_congr (by rw [plan]) (by rw [plan])
  rw [BuilderLaw, bank, assess_builder]
  exact settleRuntimes_law (ladder_keepsTop _ _) aligned

/-- A frame event that took a switch assesses; one that did not may. -/
theorem prepareUp_builderLaw {switched : Bool} (aligned : Aligned s) (law : switched = false → BuilderLaw s) :
    BuilderLaw (prepareUp switched s) := by
  have applied := applyDueClass_only s
  let v := (applyDueClass s).modBuilder fun b => { b with classApplied := (applyDueClass s).link.classInForce }
  have plan : v.plan = s.plan := applied .plan (by decide)
  have builder : (applyDueClass s).builder = s.builder := applied .builder (by decide)
  have runtimes : v.builder.runtimes = s.builder.runtimes := (congrArg Builder.runtimes builder :)
  have bank : activeBank v = activeBank s := activeBank_congr (by rw [plan]) (by rw [plan])
  have aligned_v : Aligned v := by
    rw [Aligned, bank, runtimes]
    exact aligned
  have settled (c : Prop) [Decidable c] (h : ¬ c → switched = false) : BuilderLaw (if c then assess v else v) := by
    split
    · exact assess_builderLaw aligned_v
    · exact builderLaw_congr plan runtimes (law (h ‹_›))
  refine builderLaw_congr (s := if switched = true ∨ v.builder.classApplied ≠ s.builder.classApplied ∨
    v.builder.firstInUp = true then assess v else v) rfl rfl (settled _ fun h => ?_)
  exact Bool.eq_false_of_not_eq_true fun on => h (.inl on)

theorem fill_builderLaw (law : BuilderLaw s) : BuilderLaw (fill s).2 := by
  have plan : (fill s).2.plan = s.plan := fill_only s .plan (by decide)
  have bank : activeBank (fill s).2 = activeBank s := activeBank_congr (by rw [plan]) (by rw [plan])
  rw [BuilderLaw, bank]
  exact creditPass_law law _ _ _

/-! ### The echo watch and the hand-over -/

theorem echoExpire_keeps (repeats : Nat) (last : Option Byte) (s : State) : KeepsLaws s (echoExpire repeats last s) := by
  have announced : KeepsLaws s (announceInForce s) := .only (announceInForce_only s) (by decide)
  have lagging (v : State) (k : EventKind) (a b : Nat) :
      KeepsLaws v ((v.modPlan fun p => { p with baseStanding := .lagging }).raise k a b) :=
    (KeepsLaws.modPlan (fun _ => by rfl) v).trans (.only (raise_only _ _ _ _) (by decide))
  unfold echoExpire
  exact (announced.trans (.ite (fun _ => lagging _ _ _ _) fun _ => .refl _)).trans (.modPlan (fun _ => by rfl) _)

theorem echoTick_keeps (s : State) : KeepsLaws s (echoTick s) := by
  unfold echoTick
  split
  · exact .refl s
  · exact .ite (fun _ => echoExpire_keeps _ _ s) fun _ => .modPlan (fun _ => by rfl) s

theorem echoExpiry_keeps (s : State) : KeepsLaws s (echoExpiry s) := by
  unfold echoExpiry
  split
  · exact .refl s
  · exact .ite (fun _ => echoExpire_keeps _ _ s) fun _ => .refl s

theorem echoCompare_keeps (echo : Byte) (s : State) : KeepsLaws s (echoCompare echo s) := by
  have stopped : KeepsLaws s (stopEcho s) := .modPlan (fun _ => by rfl) s
  have inStep (v : State) (k : EventKind) (a b : Nat) :
      KeepsLaws v ((v.modPlan fun p => { p with baseStanding := .inStep }).raise k a b) :=
    (KeepsLaws.modPlan (fun _ => by rfl) v).trans (.only (raise_only _ _ _ _) (by decide))
  unfold echoCompare
  split
  · exact .refl s
  · exact .ite (fun _ => stopped.trans (.ite (fun _ => inStep _ _ _ _) fun _ => .refl _)) fun _ =>
      .modPlan (fun _ => by rfl) s

theorem handOverUp_keeps (switched : Bool) (s : State) : KeepsLaws s (handOverUp switched s) := by
  have counted : KeepsLaws s (classCountTick (countdownTick s)) :=
    (countdownTick_keeps s).trans (.only (classCountTick_only _) (by decide))
  have left : KeepsLaws s (auxLeave ((classCountTick (countdownTick s)).modLink fun c => { c with pendingRefusal := false })) :=
    (counted.trans (.only (modLink_only _ _) (by decide))).trans (.only (auxLeave_only _) (by decide))
  unfold handOverUp
  exact left.trans (.ite (fun _ => .refl _) fun _ => echoTick_keeps _)

/-- A frame in UP once its slots have been filled. -/
theorem carriageFilled_keeps (switched : Bool) (s : State) :
    KeepsLaws (carriageFilled switched s) (carriageFrame switched s) := by
  rw [carriageFrame_eq]
  exact ((KeepsLaws.only (chooseCell_only _) (by decide)).trans (.only (handToLine_only _ _) (by decide))).trans
    (handOverUp_keeps _ _)

/-! ### The switch -/

theorem otherId_banksSwitched (p : PlanStore) : otherId (banksSwitched p) = activeId p := by
  rw [otherId, activeId_banksSwitched, otherId]
  cases activeId p <;> rfl

theorem takeSwitch_none (due : s.plan.due = none) : takeSwitch s = s := by rw [takeSwitch, due]

/-- The plan store after a switch: the pending bank ACTIVE, the old bank emptied, the hold FREE (R118). -/
theorem takeSwitch_planLaw (law : PlanLaw s.plan) : PlanLaw (takeSwitch s).plan := by
  cases due : s.plan.due with
  | none => rw [takeSwitch_none due]; exact law
  | some d =>
    have still : (banksSwitched s.plan).countdown = 0 := (banksSwitched_countdown _).trans (counting_of_due law due).2
    have switched : PlanLaw (banksSwitched s.plan) := by
      rw [planLaw_iff, otherId_banksSwitched, activeId_banksSwitched, bankGet_banksSwitched_other,
        bankGet_banksSwitched_active, still]
      exact ⟨bankLaw_pending law, bankLaw_emptied, rfl, Nat.zero_le _, fun _ => rfl, rfl, rfl, rfl⟩
    rw [takeSwitch_plan due]
    exact switched

/-- The entries that a switch brings in have bound their lanes since the commit (R59). -/
theorem takeSwitch_shareLaw (law : PlanLaw s.plan) (fits : ShareLaw s) : ShareLaw (takeSwitch s) := by
  cases due : s.plan.due with
  | none => rw [takeSwitch_none due]; exact fits
  | some d =>
    obtain ⟨⟨o, hold⟩, -⟩ := counting_of_due law due
    have bound : boundEntries (takeSwitch s).plan = (pendingBank s).entries := by
      rw [takeSwitch_plan due]
      change boundEntries (banksSwitched s.plan) = _
      rw [boundEntries, activeId_banksSwitched, bankGet_banksSwitched_other]
      exact List.append_nil _
    rw [shareLaw_iff, bound]
    refine fun e he => Fits.of_sameDescs (takeSwitch_thins s).desc (fits e ?_)
    rw [bindingEntries, hold]
    exact List.mem_append_right _ he

theorem takeSwitch_aligned (law : BuilderLaw s) : Aligned (takeSwitch s) := by
  cases due : s.plan.due with
  | none => rw [takeSwitch_none due]; exact aligned_of_builderLaw law
  | some d =>
    rw [Aligned, activeBank_planSwitched (takeSwitch_plan due), takeSwitch_builder due]
    exact (length_switchSettled_runtimes s).symm

/-- Outside UP the credits are bounded at the switch (R111). -/
theorem takeSwitch_keeps (down : s.link.state ≠ .up) : KeepsLaws s (takeSwitch s) where
  plan := takeSwitch_planLaw
  share := takeSwitch_shareLaw
  builder law := by
    cases due : s.plan.due with
    | none => rw [takeSwitch_none due]; exact law
    | some d =>
      rw [BuilderLaw, activeBank_planSwitched (takeSwitch_plan due), takeSwitch_builder due, switchSettled_runtimes,
        if_neg down]
      exact zipWith_carryOver_law (by simp [switchRuntimes])

/-- In UP the assessment that goes with the switch bounds them (R102). -/
theorem carriageFrame_keeps (s : State) : KeepsLaws s (carriageFrame s.plan.due.isSome (takeSwitch s)) := by
  have sent := carriageFilled_keeps s.plan.due.isSome (takeSwitch s)
  have plan := carriageFilled_plan s.plan.due.isSome (takeSwitch s)
  have descs : SameDescs (takeSwitch s) (carriageFilled s.plan.due.isSome (takeSwitch s)) :=
    ((prepareUp_thins _ _).trans (fill_thins _)).desc
  refine ⟨fun law => sent.plan ?_, fun law fits => sent.share ?_ fun e bound => ?_, fun law => sent.builder ?_⟩
  · rw [plan]; exact takeSwitch_planLaw law
  · rw [plan]; exact takeSwitch_planLaw law
  · rw [bindingEntries_eq, plan] at bound
    exact Fits.of_sameDescs descs (takeSwitch_shareLaw law fits e bound)
  · refine fill_builderLaw (prepareUp_builderLaw (takeSwitch_aligned law) fun unswitched => ?_)
    rw [takeSwitch_none (by simpa using unswitched)]
    exact law

/-! ### The frame events of the other states -/

theorem enterUp_keeps (s : State) : KeepsLaws s (enterUp s) := by
  have linked (f : LinkCtl → LinkCtl) : KeepsLaws s ((s.modLink f).modBuilder fun b => { b with firstInUp := true }) :=
    (KeepsLaws.only (modLink_only _ s) (by decide)).trans (.modBuilder (fun _ => by rfl) _)
  unfold enterUp
  exact (((linked _).trans (.only (raise_only _ _ _ _) (by decide))).trans (.only (announceInForce_only _) (by decide))).trans
    (.modPlan (fun _ => by rfl) _)

theorem trainTick_keeps (s : State) : KeepsLaws s (trainTick s) :=
  .ite (fun _ => enterUp_keeps s) fun _ => .only (modLink_only _ s) (by decide)

theorem trainEnd_keeps (s : State) : KeepsLaws s (trainEnd s) := .ite (fun _ => enterUp_keeps s) fun _ => .refl s

theorem trainingFrame_keeps (s : State) : KeepsLaws s (trainingFrame s) := by
  have sent (f : Frame) : KeepsLaws s (countdownTick (handToLine f (chooseCell s).2)) :=
    ((KeepsLaws.only (chooseCell_only s) (by decide)).trans (.only (handToLine_only _ _) (by decide))).trans
      (countdownTick_keeps _)
  unfold trainingFrame
  exact (sent _).trans (.ite (fun _ => trainTick_keeps _) fun _ => .refl _)

theorem testFrame_keeps (s : State) : KeepsLaws s (testFrame s) := by
  have shown (f : TestUnit → TestUnit) : KeepsLaws s ((chooseCell s).2.modTest f) :=
    (KeepsLaws.only (chooseCell_only s) (by decide)).trans (.only (modTest_only _ _) (by decide))
  have checked (v : State) (slots : List DataSlot) : KeepsLaws v (State.each checkSlot slots v) :=
    .only (each_only checkSlot_only _ _) (by decide)
  have handed (v : State) (f : Frame) : KeepsLaws v (handToLine f v) := .only (handToLine_only _ _) (by decide)
  unfold testFrame
  exact ((shown _).trans (.ite (fun _ => checked _ _) fun _ => handed _ _)).trans (countdownTick_keeps _)

theorem countFrame_keeps (s : State) : KeepsLaws s (countFrame s) :=
  .ite (fun _ => .modBuilder (fun _ => by rfl) s) fun _ => .refl s

/-- A frame event, by the state of the link. -/
theorem frameEvent_keeps (s : State) : KeepsLaws s (frameEvent s) := by
  have counted := countFrame_keeps s
  have link : (countFrame s).link = s.link := countFrame_only s .link (by decide)
  have plan : (countFrame s).plan = s.plan := countFrame_only s .plan (by decide)
  have switched (h : s.link.state ≠ .up) : KeepsLaws s (takeSwitch (countFrame s)) :=
    counted.trans (takeSwitch_keeps (by rwa [link]))
  cases state : s.link.state with
  | up =>
    rw [frameEvent_up state, ← plan]
    exact counted.trans (carriageFrame_keeps _)
  | measure | offer | trainSwitch =>
    simp only [frameEvent, takeSwitch_countFrame_link, state]
    exact (switched (by simp [state])).trans (trainingFrame_keeps _)
  | test =>
    simp only [frameEvent, takeSwitch_countFrame_link, state]
    exact (switched (by simp [state])).trans (testFrame_keeps _)
  | down | disabled =>
    simp only [frameEvent, takeSwitch_countFrame_link, state]
    exact switched (by simp [state])

end Sys2Proof.Proofs

/-! # Proofs: every step keeps the laws of O7 (O7)

Each operation of the part in turn; those that change neither the plan store nor the runtimes nor a descriptor by their frames. -/

namespace Sys2Proof.Proofs

open Sys2Proof.Machine Sys2Proof.Claims

variable {s t u : State} {l k : LaneId} {o : Origin}

/-! ### Intake -/

theorem sameDescs_evaluateLane (l : LaneId) (s : State) : SameDescs s (evaluateLane l s) :=
  (evaluateLane_evaluates l s).thins.desc

theorem sameDescs_faultLane (d : Nat) (l : LaneId) (s : State) : SameDescs s (faultLane d l s) := by
  intro k
  by_cases hk : k = l
  · subst hk
    obtain ⟨q, lane⟩ := faultLane_lane d k s
    rw [lane]
  · obtain ⟨q, lane⟩ := faultLane_other hk d s
    rw [lane]

theorem sameDescs_emptyLane (l : LaneId) (s : State) : SameDescs s (emptyLane l s) := by
  intro k
  by_cases hk : k = l
  · subst hk
    rw [emptyLane_lane]
  · rw [emptyLane_lane_other hk]

theorem sameDescs_armedArrival (l : LaneId) (b : Burst) (s : State) : SameDescs s (armedArrival l b s) := by
  have assembled (v : State) : SameDescs v (assemble l b (evaluateLane l v)) :=
    (sameDescs_evaluateLane l v).trans (assemble_feeds l b _).desc
  unfold armedArrival
  split
  · have running := (sameDescs_modLane l (f := fun x => { x with state := .running, silence := 0, recovery := false })
      (fun _ => rfl) s).trans (assembled _)
    dsimp only
    split
    · exact running.trans (sameDescs_of_only (raise_only _ _ _ _) (by decide))
    · exact running
  · exact sameDescs_of_only (bump_only _ s) (by decide)

theorem sameDescs_takeBurst (l : LaneId) (b : Burst) (s : State) : SameDescs s (takeBurst l b s) := by
  unfold takeBurst
  split
  · exact fun _ => rfl
  · exact sameDescs_armedArrival l b s
  · exact (sameDescs_modLane l (f := fun x => { x with silence := 0 }) (fun _ => rfl) s).trans (assemble_feeds l b _).desc
  · split
    · have armed := sameDescs_modLane l (f := fun x => { x with state := .armed, lastLine := none, dropMark := none })
        (fun _ => rfl) s
      exact (armed.trans (sameDescs_evaluateLane l _)).trans (sameDescs_armedArrival l b _)
    · exact sameDescs_of_only (bump_only _ s) (by decide)

theorem takeBurst_keeps (l : LaneId) (b : Burst) (s : State) : KeepsLaws s (takeBurst l b s) :=
  .lanes (takeBurst_only l b s) (sameDescs_takeBurst l b s) (by decide)

theorem faultLane_keeps (d : Nat) (l : LaneId) (s : State) : KeepsLaws s (faultLane d l s) :=
  .lanes (faultLane_only d l s) (sameDescs_faultLane d l s) (by decide)

theorem modLane_keeps (l : LaneId) {f : Lane → Lane} (hf : ∀ x, (f x).desc = x.desc) (s : State) :
    KeepsLaws s (s.modLane l f) := .lanes (modLane_only l f s) (sameDescs_modLane l hf s) (by decide)

theorem silenceExpiry_keeps (l : LaneId) (s : State) : KeepsLaws s (silenceExpiry l s) :=
  .ite (fun _ => (modLane_keeps l (fun _ => by rfl) s).trans (faultLane_keeps 2 l _)) fun _ => .refl s

theorem silenceTick_keeps (l : LaneId) (s : State) : KeepsLaws s (silenceTick l s) :=
  .ite (fun _ => .ite (fun _ => silenceExpiry_keeps l s) fun _ => modLane_keeps l (fun _ => by rfl) s) fun _ => .refl s

/-! ### LANE_SET -/

/-- A descriptor that LANE_SET accepts fits every entry that binds its lane (R4, R59). -/
theorem fits_of_laneSetRefusal {d : Descriptor} (accepted : laneSetRefusal s l d = none) {e : Entry}
    (bound : e ∈ bindingEntries s) (lane : e.lane = l) : d.configured = true ∧ demand d ≤ e.share := by
  classical
  have stopped : (s.lane l).state = .stopped := by
    by_contra running
    rw [laneSetRefusal_running running] at accepted
    cases accepted
  have binds := (mem_bindingEntries s e).mp bound
  cases configured : d.configured with
  | false =>
    rw [laneSetRefusal_unconfigured stopped configured] at accepted
    have named : names (bindingEntries s) l = true := (names_bindingEntries_iff s l).mpr ⟨e, binds, lane⟩
    rw [if_pos named] at accepted
    cases accepted
  | true =>
    rw [laneSetRefusal_configured stopped configured] at accepted
    have shares : SharesFit s l d := by
      by_contra short
      simp only [short, if_false] at accepted
      split_ifs at accepted
    exact ⟨rfl, shares e binds lane⟩

/-- The descriptor of one lane is replaced by one that LANE_SET accepts. -/
theorem describe_keeps {d : Descriptor} (accepted : laneSetRefusal s l d = none) :
    KeepsLaws s (s.modLane l fun x => { x with desc := d }) where
  plan := id
  share _ fits e bound := by
    by_cases lane : e.lane = l
    · rw [lane, lane_modLane_same]
      exact fits_of_laneSetRefusal accepted bound lane
    · rw [lane_modLane_other _ _ _ _ lane]
      exact fits e bound
  builder := id

theorem installDescriptor_keeps {d : Descriptor} (accepted : laneSetRefusal s l d = none) :
    KeepsLaws s (installDescriptor l d s) := by
  have placed (v : Option Standing) : KeepsLaws s ((s.setStanding l v).modLane l fun x => { x with desc := d }) :=
    (describe_keeps accepted).trans (.only (setStanding_only l v _) (by decide))
  have evaluated (g : Option GroupId) (v : State) : KeepsLaws v (evaluateOption g v) :=
    .lanes (evaluateOption_only g v) (evaluateOption_evaluates g v).thins.desc (by decide)
  unfold installDescriptor
  exact .ite (fun _ => placed _) fun _ => ((placed _).trans (evaluated _ _)).trans (evaluated _ _)

/-! ### Reset and LINK_RESTART -/

theorem startFromReset_keeps (k : Byte) (s : State) : KeepsLaws s (startFromReset k s) :=
  .reset (settleDown_only _ .plan (by decide)) (settleDown_only _ .builder (by decide))

theorem sameDescs_restartLink (s : State) : SameDescs s (restartLink s) := by
  intro l
  have groups := (restartGroups_evaluates (lanesRestarted s)).thins.desc l
  rw [restartLink_lane, groups, releaseRestarted_lane, lanesRestarted_lane, laneRestarted]
  split <;> rfl

/-- LINK_RESTART drops any hold and sets every credit to 0 (R64, R127, R145). -/
theorem restartLink_keeps (s : State) : KeepsLaws s (restartLink s) := by
  have plan : planCore (restartLink s).plan = planCore (planRestarted s.plan) := by rw [restartLink_plan]; rfl
  let v := s.modBuilder fun b => { b with runtimes := b.runtimes.map fun r => { r with credit := 0 } }
  have zeroed : KeepsLaws s v := by
    refine ⟨id, fun _ => id, fun law => ?_⟩
    change List.Forall₂ RuntimeLaw (activeBank s).entries (s.builder.runtimes.map fun r => { r with credit := 0 })
    rw [List.forall₂_map_right_iff]
    exact law.imp fun _ _ => runtimeLaw_zero
  have descs : SameDescs v (restartLink s) := sameDescs_restartLink s
  have runtimes : (restartLink s).builder.runtimes = v.builder.runtimes := by rw [restartLink_builder]; rfl
  by_cases hold : s.plan.hold = .free
  · refine zeroed.trans (.replaced ?_ runtimes descs (otherLaw_still_free hold))
    rw [plan, planRestarted, if_pos hold, pendingBank, withOther_self]
    rfl
  · refine zeroed.trans (.replaced ?_ runtimes descs (otherLaw_dropped v))
    rw [plan, planRestarted, if_neg hold]
    rfl

/-! ### The plan commands -/

/-- An edit runs on the state with the timer restarted. -/
theorem editing_keeps {edit : State → State × Reply}
    (h : ∀ ms, (restartHoldTimer s).plan.hold = .held o ms → KeepsLaws (restartHoldTimer s) (edit (restartHoldTimer s)).1) :
    KeepsLaws s (editing o s edit).1 := by
  unfold editing
  split
  · exact .refl s
  · obtain ⟨ms, hold⟩ := holdRefusal_edit_none.mp ‹_›
    exact (restartHoldTimer_keeps s).trans (h 2000 (by rw [restartHoldTimer_held hold]; rfl))

theorem names_eq_false {es : List Entry} {l : LaneId} : names es l = false ↔ l ∉ es.map (·.lane) := by
  simp [names]

/-- An entry that no other entry shares its lane with replaces one of them (R68). -/
theorem bankLaw_set {b : Bank} {i : Nat} {e : Entry} (hi : i < b.entries.length)
    (others : names (b.entries.eraseIdx i) e.lane = false) (law : BankLaw b) :
    BankLaw { b with entries := b.entries.set i e } := by
  have lanes := (List.set_perm_cons_eraseIdx hi e).map (·.lane)
  refine ⟨by simpa using law.1, lanes.nodup_iff.mpr (List.nodup_cons.mpr ⟨names_eq_false.mp others, ?_⟩)⟩
  exact law.2.sublist ((List.eraseIdx_sublist _ _).map _)

/-- Such an entry joins the others where there is room (R69). -/
theorem bankLaw_insertIdx {b : Bank} {i : Nat} {e : Entry} (hi : i ≤ b.entries.length) (room : b.entries.length < 24)
    (others : names b.entries e.lane = false) (law : BankLaw b) :
    BankLaw { b with entries := b.entries.insertIdx i e } := by
  have lanes := (List.perm_insertIdx e b.entries hi).map (·.lane)
  refine ⟨?_, lanes.nodup_iff.mpr (List.nodup_cons.mpr ⟨names_eq_false.mp others, law.2⟩)⟩
  rw [List.length_insertIdx_of_le_length hi]
  exact room

/-- An entry is taken out (R70). -/
theorem bankLaw_eraseIdx {b : Bank} (i : Nat) (law : BankLaw b) : BankLaw { b with entries := b.entries.eraseIdx i } :=
  ⟨(List.eraseIdx_sublist _ _).length_le.trans law.1, law.2.sublist ((List.eraseIdx_sublist _ _).map _)⟩

/-- An entry that passes its checks shares its lane with none of the others (R57). -/
theorem names_of_entryRefusal {e : Entry} {others : List Entry} (passes : entryRefusal s (some e) others = none) :
    names others e.lane = false := by
  unfold entryRefusal at passes
  dsimp only at passes
  split_ifs at passes with unknown named
  exact Bool.eq_false_of_not_eq_true named

theorem edited_keeps {es : List Entry} {ms : Nat} (hold : s.plan.hold = .held o ms)
    (bank : BankLaw (pendingBank s) → BankLaw { pendingBank s with entries := es }) : KeepsLaws s (edited es s).1 :=
  setPendingEntries_keeps hold bank

theorem cmdPlanPut_keeps (o : Origin) (index : Byte) (e : Option Entry) (s : State) :
    KeepsLaws s (cmdPlanPut o index e s).1 := by
  refine editing_keeps fun ms hold => ?_
  dsimp only
  split
  · exact .refl _
  · rename_i within
    split
    · exact edited_keeps hold (bankLaw_set (Nat.lt_of_not_le within) (names_of_entryRefusal ‹_›))
    · exact .refl _
    · exact .refl _

theorem cmdPlanInsert_keeps (o : Origin) (index : Byte) (e : Option Entry) (s : State) :
    KeepsLaws s (cmdPlanInsert o index e s).1 := by
  refine editing_keeps fun ms hold => ?_
  dsimp only
  split
  · exact .refl _
  · rename_i within
    split
    · exact .refl _
    · rename_i room
      split
      · exact edited_keeps hold
          (bankLaw_insertIdx (Nat.le_of_not_lt within) (Nat.lt_of_not_le room) (names_of_entryRefusal ‹_›))
      · exact .refl _
      · exact .refl _

theorem cmdPlanRemove_keeps (o : Origin) (index : Byte) (s : State) : KeepsLaws s (cmdPlanRemove o index s).1 := by
  refine editing_keeps fun ms hold => ?_
  dsimp only
  split
  · exact .refl _
  · exact edited_keeps hold (bankLaw_eraseIdx _)

theorem cmdPlanCommit_keeps (o : Origin) (s : State) : KeepsLaws s (cmdPlanCommit o s).1 := by
  unfold cmdPlanCommit
  split
  · exact .refl s
  · obtain ⟨ms, hold⟩ := holdRefusal_edit_none.mp ‹_›
    cases passes : commitCheck s with
    | passes => exact acceptCommit_keeps hold passes
    | _ => exact restartHoldTimer_keeps s

theorem cmdPlanAbandon_keeps (o : Origin) (s : State) : KeepsLaws s (cmdPlanAbandon o s).1 := by
  unfold cmdPlanAbandon
  split
  · exact .refl s
  · obtain ⟨ms, hold⟩ := holdRefusal_edit_none.mp ‹_›
    exact freeHold_keeps hold

theorem cmdPlanOpen_keeps (o : Origin) (s : State) : KeepsLaws s (cmdPlanOpen o s).1 := by
  unfold cmdPlanOpen
  split
  · exact .refl s
  · exact .ite (fun free => openHold_keeps free) fun _ => restartHoldTimer_keeps s

/-! ### The commands of the lanes and of the link -/

theorem cmdLaneSet_keeps (l c : Byte) (w h : Word16) (m : Byte) (a : Word16) (g : Byte) (s : State) :
    KeepsLaws s (cmdLaneSet l c w h m a g s).1 := by
  unfold cmdLaneSet
  split
  · dsimp only
    split
    · exact .refl s
    · exact installDescriptor_keeps ‹_›
  · exact .refl s

theorem startLane_keeps (l : LaneId) (s : State) : KeepsLaws s (startLane l s) :=
  .lanes (startLane_only l s)
    ((sameDescs_modLane l (f := fun x => { freshAssembly x with state := .armed }) (fun _ => rfl) s).trans
      (sameDescs_evaluateLane l _)) (by decide)

theorem cmdLaneStart_keeps (l : Byte) (s : State) : KeepsLaws s (cmdLaneStart l s).1 := by
  unfold cmdLaneStart
  split
  · exact .refl s
  · split
    · exact startLane_keeps _ s
    · exact .refl s

theorem sameDescs_stopLane (l : LaneId) (s : State) : SameDescs s (stopLane l s) := by
  unfold stopLane
  split
  · exact fun _ => rfl
  · have stopped := (sameDescs_emptyLane l s).trans
      (sameDescs_modLane l (f := fun x => { freshAssembly x with state := .stopped }) (fun _ => rfl) _)
    exact (stopped.trans (sameDescs_of_only (lagQuietly_only l _) (by decide))).trans (sameDescs_evaluateLane l _)

theorem cmdLaneStop_keeps (l : Byte) (s : State) : KeepsLaws s (cmdLaneStop l s).1 := by
  unfold cmdLaneStop
  split
  · exact .refl s
  · exact .lanes (stopLane_only _ s) (sameDescs_stopLane _ s) (by decide)

theorem cmdGroupSet_keeps (g k : Byte) (s : State) : KeepsLaws s (cmdGroupSet g k s).1 := by
  have grouped (g : GroupId) (f : Group → Group) : KeepsLaws s (evaluate g (s.modGroup g f)) :=
    (KeepsLaws.only (modGroup_only g f s) (by decide)).trans
      (.lanes (evaluate_only g _) (evaluate_evaluates g _).thins.desc (by decide))
  unfold cmdGroupSet
  split
  · exact .refl s
  · exact grouped _ _

theorem enableLink_keeps (s : State) : KeepsLaws s (enableLink s) := .only (enableLink_only s) (by decide)

theorem disableLink_keeps (s : State) : KeepsLaws s (disableLink s) :=
  ((KeepsLaws.only (modLink_only _ s) (by decide)).trans (.only (modTest_only _ _) (by decide))).trans (lossOfLink_keeps _)

theorem enterTest_keeps (s : State) : KeepsLaws s (enterTest s) := by
  have recorded : KeepsLaws s (if carriesFrames s.link.state then recordDrop .test s else s) :=
    .ite (fun _ => .only (recordDrop_only _ s) (by decide)) fun _ => .refl s
  unfold enterTest
  exact (recorded.trans (.only (modLink_only _ _) (by decide))).trans (lossOfLink_keeps _)

theorem leaveTest_keeps (s : State) : KeepsLaws s (leaveTest s) :=
  ((KeepsLaws.only (modTest_only _ s) (by decide)).trans (.only (enterDown_only _) (by decide))).trans (lossOfLink_keeps _)

theorem cmdLinkEnable_keeps (on : Byte) (s : State) : KeepsLaws s (cmdLinkEnable on s).1 := by
  unfold cmdLinkEnable
  split
  · exact .refl s
  · exact .ite (fun _ => enableLink_keeps s) fun _ => .refl s
  · exact .ite (fun _ => .refl s) fun _ => disableLink_keeps s

theorem cmdTestStart_keeps (mode countMode cls : Byte) (s : State) : KeepsLaws s (cmdTestStart mode countMode cls s).1 := by
  have started (m : TestMode) (c : CountMode) (k : RateClass) : KeepsLaws s (startTest m c k s) :=
    .only (modTest_only _ s) (by decide)
  unfold cmdTestStart
  split
  · split
    · exact .refl s
    · exact (started _ _ _).trans (.ite (fun _ => .refl _) fun _ => enterTest_keeps _)
  · exact .refl s

theorem cmdTestStop_keeps (s : State) : KeepsLaws s (cmdTestStop s).1 := by
  unfold cmdTestStop
  split
  · exact leaveTest_keeps s
  · exact .refl s

/-! ### The command unit -/

theorem perform_keeps (o : Origin) (tag : Byte) (c : Cmd) (s : State) : KeepsLaws s (perform o tag c s).1 := by
  cases c with
  | partReset => exact startFromReset_keeps 2 s
  | laneSet l c w h m a g => exact cmdLaneSet_keeps l c w h m a g s
  | laneStart l => exact cmdLaneStart_keeps l s
  | laneStop l => exact cmdLaneStop_keeps l s
  | groupSet g k => exact cmdGroupSet_keeps g k s
  | planOpen => exact cmdPlanOpen_keeps o s
  | planPut i l q p t d => exact cmdPlanPut_keeps o i _ s
  | planInsert i l q p t d => exact cmdPlanInsert_keeps o i _ s
  | planRemove i => exact cmdPlanRemove_keeps o i s
  | planCommit => exact cmdPlanCommit_keeps o s
  | planAbandon => exact cmdPlanAbandon_keeps o s
  | linkEnable on => exact cmdLinkEnable_keeps on s
  | linkRestart => exact restartLink_keeps s
  | testStart m n k => exact cmdTestStart_keeps m n k s
  | testStop => exact cmdTestStop_keeps s
  | _ => exact .only (perform_only o tag _ s) (by simp [cmdParts])

theorem takeCommand_keeps (o : Origin) (op tag : Byte) (c : Option Cmd) (s : State) :
    KeepsLaws s (takeCommand o op tag c s).1 := by
  cases c with
  | none => exact .refl s
  | some c =>
    simp only [takeCommand]
    split
    · exact .refl s
    · split
      · exact .refl s
      · exact perform_keeps o tag c s

theorem takeHeadCommand_keeps (op tag : Byte) (c : Option Cmd) (s : State) :
    KeepsLaws s (takeHeadCommand op tag c s) := by
  unfold takeHeadCommand
  split
  · exact .only (modPort_only _ s) (by decide)
  · exact (takeCommand_keeps .head op tag c s).trans (.only (answerHead_only _) (by decide))

theorem takeBaseCommand_keeps (op tag : Byte) (c : Option Cmd) (s : State) :
    KeepsLaws s (takeBaseCommand op tag c s) := by
  unfold takeBaseCommand
  split
  · exact .only (bump_only _ s) (by decide)
  · exact (takeCommand_keeps .base op tag c s).trans (.only (answerBase_only _) (by decide))

theorem submit_keeps (o : Origin) (tag : Byte) (c : Cmd) (s : State) : KeepsLaws s (submit o tag c s) := by
  unfold submit
  split
  · exact .refl s
  · split
    · exact takeHeadCommand_keeps _ tag _ s
    · exact .ite (fun _ => takeBaseCommand_keeps _ tag _ s) fun _ => .refl s

/-! ### The head port and the receiver -/

theorem endTransaction_keeps {body : Byte → State → State} (hb : ∀ b s, KeepsLaws s (body b s)) (s : State) :
    KeepsLaws s (endTransaction body s) := by
  have fallen : KeepsLaws s (selectFalls s) := .only (selectFalls_only s) (by decide)
  unfold endTransaction
  dsimp only
  split
  · exact fallen.trans (.only (selectHigh_only _) (by decide))
  · split
    · exact fallen.trans (.only (selectHigh_only _) (by decide))
    · exact (fallen.trans (hb _ _)).trans (.only (selectHigh_only _) (by decide))

theorem commandTransaction_keeps (bytes : List Byte) (cut : Bool) (status : Byte) (s : State) :
    KeepsLaws s (commandTransaction bytes cut status s) := by
  have gathered : KeepsLaws s (gatherFrame bytes cut (shiftOut (zeroBytes bytes.length) (clearShown status s))) :=
    .only (ps := [.port]) (((modPort_only _ s).trans (modPort_only _ _)).trans (modPort_only _ _)) (by decide)
  unfold commandTransaction takeFrame
  split
  · exact gathered.trans (.only (modPort_only _ _) (by decide))
  · split
    · exact gathered.trans (.only (modPort_only _ _) (by decide))
    · exact gathered.trans (takeHeadCommand_keeps _ _ _ _)

theorem deliverCell_keeps (c : Option Cell) (s : State) : KeepsLaws s (deliverCell c s) := by
  have command (tag : Byte) (payload : List Byte) : KeepsLaws s (takeCommandCell tag payload s) := by
    unfold takeCommandCell
    split
    · exact takeBaseCommand_keeps _ _ none s
    · exact takeBaseCommand_keeps _ _ _ s
  unfold deliverCell
  split
  · exact .only (bump_only _ s) (by decide)
  · exact .ite (fun _ => command _ _) fun _ => .ite (fun _ => .only (relayArrives_only _ s) (by decide)) fun _ => .refl s

/-- The class field, SELECT, the class echo and the tally are the link's and the tally's; the echo is the plan store's. -/
theorem deliverHeader_keeps (u : UpFrame) (s : State) : KeepsLaws s (deliverHeader u s) := by
  have compared : KeepsLaws s (echoCompare u.echo (s.modRx fun r => { r with lastBaseFrameCount := u.count })) :=
    (KeepsLaws.only (modRx_only _ s) (by decide)).trans (echoCompare_keeps _ _)
  have selected (v : State) : KeepsLaws v (match u.select with
      | none => v
      | some k => takeSelect k v) := by
    split
    · exact .refl v
    · exact .only (takeSelect_only _ v) (by decide)
  have classed (v : State) : KeepsLaws v (if isUp v then takeClassField u.classField v else v) :=
    .ite (fun _ => .only (takeClassField_only _ _) (by decide)) fun _ => .refl _
  unfold deliverHeader
  exact (((compared.trans (classed _)).trans (selected _)).trans
    (.ite (fun _ => .only (modLink_only _ _) (by decide)) fun _ => .refl _)).trans
    (.ite (fun _ => .only (modTally_only _ _) (by decide)) fun _ => .refl _)

theorem deliverFrame_keeps (u : UpFrame) (s : State) : KeepsLaws s (deliverFrame u s) := by
  have delivered := (deliverHeader_keeps u s).trans (deliverCell_keeps u.cell _)
  unfold deliverFrame
  exact (delivered.trans (.ite (fun _ => .only (takeAux_only _ _) (by decide)) fun _ => .refl _)).trans
    (.only (deliverReturns_only _ _) (by decide))

theorem takeUpstream_keeps (bytes : List Byte) (s : State) : KeepsLaws s (takeUpstream bytes s) := by
  have marked (f : UpReceiver → UpReceiver) : KeepsLaws s (s.modRx f) := .only (modRx_only f s) (by decide)
  unfold takeUpstream
  exact .ite (fun _ => .refl s) fun _ => .ite (fun _ => .only (bump_only _ s) (by decide)) fun _ =>
    .ite (fun _ => (marked _).trans (deliverFrame_keeps _ _)) fun _ => (marked _).trans (.only (bump_only _ _) (by decide))

/-! ### Timers, verdicts and ticks -/

theorem trainingFailure_keeps (s : State) : KeepsLaws s (trainingFailure s) :=
  .ite (fun _ => .only (enterMeasure_only _ s) (by decide)) fun _ =>
    (KeepsLaws.only (modLink_only _ s) (by decide)).trans (dropToDown_keeps _ _)

theorem measureExpiry_keeps (s : State) : KeepsLaws s (measureExpiry s) :=
  .ite (fun _ => trainingFailure_keeps s) fun _ => .refl s

theorem offerExpiry_keeps (s : State) : KeepsLaws s (offerExpiry s) :=
  .ite (fun _ => trainingFailure_keeps s) fun _ => .refl s

theorem answerExpiry_keeps (s : State) : KeepsLaws s (answerExpiry s) := by
  have abandoned (b : Bool) : KeepsLaws s (proposalToNone b s) := .only (proposalToNone_only b s) (by decide)
  unfold answerExpiry
  split
  · exact .ite (fun _ => .refl s) fun _ => .ite (fun _ => abandoned true) fun _ =>
      .ite (fun _ => dropToDown_keeps _ s) fun _ => abandoned false
  · exact .refl s

theorem carrierLost_keeps (s : State) : KeepsLaws s (carrierLost s) :=
  .ite (fun _ => dropToDown_keeps _ s) fun _ => .refl s

theorem takeVerdict_keeps (p : Period) (s : State) : KeepsLaws s (takeVerdict p s) := by
  have kept : KeepsLaws s (s.modLink fun c => { c with supervision := superviseWith p c.supervision }) :=
    .only (modLink_only _ s) (by decide)
  unfold takeVerdict
  dsimp only
  split
  · exact kept
  · exact kept.trans (dropToDown_keeps _ _)

theorem superviseTick_keeps (s : State) : KeepsLaws s (superviseTick s) :=
  .ite (fun _ => (takeVerdict_keeps _ s).trans (.only (bump_only _ _) (by decide))) fun _ => takeVerdict_keeps _ s

theorem lossCriterion_keeps (s : State) : KeepsLaws s (lossCriterion s) :=
  .ite (fun _ => superviseTick_keeps s) fun _ => .refl s

theorem countdownEnd_keeps (s : State) : KeepsLaws s (countdownEnd s) :=
  .ite (fun _ => countdownTick_keeps s) fun _ => .refl s

theorem referenceTick_keeps (s : State) : KeepsLaws s (referenceTick s) := by
  have framed : KeepsLaws s (frameEvent (s.modPlan fun p => { p with lossTaken := false })) :=
    (KeepsLaws.modPlan (fun _ => by rfl) s).trans (frameEvent_keeps _)
  have judged : KeepsLaws s (tickJudged s) :=
    framed.trans (.ite (fun _ => superviseTick_keeps _) fun _ => .refl _)
  have silenced : KeepsLaws s (tickSilenced s) := judged.trans (.each silenceTick_keeps _ _)
  rw [referenceTick_eq]
  exact (silenced.trans (.only (tallyTick_only _) (by decide))).trans (.only (tickEnded_only _) (by decide))

theorem whenOut_keeps {timer : Timers → Option Nat} {f : State → State} (hf : ∀ s, KeepsLaws s (f s)) (s : State) :
    KeepsLaws s (whenOut timer f s) := .ite (fun _ => hf s) fun _ => .refl s

theorem millisecond_keeps (s : State) : KeepsLaws s (millisecond s) := by
  have held : KeepsLaws s (if holdIsOut (countTimers s).plan.hold then holdExpiry (countTimers s) else countTimers s) :=
    (countTimers_keeps s).trans (.ite (fun _ => holdExpiry_keeps _) fun _ => .refl _)
  have retried (v : State) : KeepsLaws v (if v.link.timers.retry = .running 0 then retryExpiry v else v) :=
    .ite (fun _ => .only (retryExpiry_only v) (by decide)) fun _ => .refl v
  unfold millisecond
  exact ((((((held.trans (retried _)).trans (whenOut_keeps measureExpiry_keeps _)).trans
    (whenOut_keeps offerExpiry_keeps _)).trans (whenOut_keeps answerExpiry_keeps _)).trans
    (whenOut_keeps (fun s => .only (marginExpiry_only s) (by decide)) _)).trans
    (whenOut_keeps (fun s => .only (stepUpExpiry_only s) (by decide)) _)).trans (.only (referenceMs_only _) (by decide))

/-! ### The rows -/

theorem whenLive_keeps {f : State → State} (hf : ∀ s, KeepsLaws s (f s)) (s : State) : KeepsLaws s (whenLive f s) :=
  .ite (fun _ => .refl s) fun _ => hf s

/-- A row that first records the level of a pin. -/
theorem pinned_keeps {f : State → State} (hf : ∀ s, KeepsLaws s (f s)) (g : Pins → Pins) (s : State) :
    KeepsLaws s (whenLive f (s.modPins g)) := (KeepsLaws.only (modPins_only g s) (by decide)).trans (whenLive_keeps hf _)

/-- A row of another block. -/
theorem live_keeps {ps : List Part} {f : State → State} (hf : ∀ s, OnlyChanges ps s (f s)) (s : State)
    (hp : ∀ p ∈ [Part.plan, .builder, .lanes], p ∉ ps) : KeepsLaws s (whenLive f s) :=
  whenLive_keeps (fun s => .only (hf s) hp) s

theorem exec_keeps (i : Instr) (h : exec i s = .next t) : KeepsLaws s t := by
  induction i using instr_cases with
  | command o tag c => rw [exec_row] at h; cases h; exact submit_keeps o tag c s
  | pinReset => cases h; exact .reset rfl rfl
  | resetRelease =>
    cases h
    exact .ite (fun _ => (KeepsLaws.only (modPins_only _ s) (by decide)).trans (startFromReset_keeps 1 _)) fun _ => .refl s
  | referenceTick => cases h; exact whenLive_keeps referenceTick_keeps s
  | tileBurst l b bytes =>
    rw [exec, execTileBurst] at h
    split at h
    · cases h; exact pinned_keeps (takeBurst_keeps l _) _ s
    · cases h
  | boardReadyFall l =>
    cases h
    exact pinned_keeps (fun s => .ite (fun _ => faultLane_keeps 1 l s) fun _ => .refl s) _ s
  | laneSilenceExpiry l => cases h; exact whenLive_keeps (silenceExpiry_keeps l) s
  | switchCountdownEnd => cases h; exact whenLive_keeps countdownEnd_keeps s
  | classCountdownEnd => cases h; exact live_keeps classCountEnd_only s (by decide)
  | trainSwitchEnd => cases h; exact whenLive_keeps trainEnd_keeps s
  | echoWatchExpiry => cases h; exact whenLive_keeps echoExpiry_keeps s
  | lossCriterionMet => cases h; exact whenLive_keeps lossCriterion_keeps s
  | referenceLost => cases h; exact live_keeps referenceGone_only s (by decide)
  | holdTimerExpiry => cases h; exact whenLive_keeps holdExpiry_keeps s
  | retryTimerExpiry => cases h; exact live_keeps retryExpiry_only s (by decide)
  | measureTimerExpiry => cases h; exact whenLive_keeps measureExpiry_keeps s
  | offerTimerExpiry => cases h; exact whenLive_keeps offerExpiry_keeps s
  | answerTimerExpiry => cases h; exact whenLive_keeps answerExpiry_keeps s
  | marginTimerExpiry => cases h; exact live_keeps marginExpiry_only s (by decide)
  | stepUpTimerExpiry => cases h; exact live_keeps stepUpExpiry_only s (by decide)
  | tallyHoldExpiry => cases h; exact live_keeps tallyExpiry_only s (by decide)
  | carrierRise => cases h; exact pinned_keeps (fun s => .only (settleDown_only s) (by decide)) _ s
  | carrierFall => cases h; exact pinned_keeps carrierLost_keeps _ s
  | marginWarningRise =>
    rw [exec, execMarginWarningRise] at h
    split at h
    · cases h; exact .refl s
    · cases h; exact pinned_keeps (fun s => .only (warningRises_only s) (by decide)) _ s
  | marginWarningFall =>
    rw [exec, execMarginWarningFall] at h
    split at h
    · cases h; exact pinned_keeps (fun s => .only (warningFalls_only s) (by decide)) _ s
    · cases h; exact .refl s
  | measurementResult k => cases h; exact live_keeps (takeMeasurement_only k) s (by decide)
  | upstreamFrame bytes => cases h; exact whenLive_keeps (takeUpstream_keeps bytes) s
  | headCommandFrame bytes cut => cases h; exact endTransaction_keeps (commandTransaction_keeps bytes cut) s
  | fetch n => cases h; exact endTransaction_keeps (fun b s => .only (fetchTransaction_only n b s) (by decide)) s
  | invalidTransaction kind n =>
    rw [exec, execInvalidTransaction] at h
    split at h
    · cases h
    · cases h; exact endTransaction_keeps (fun b s => .only (invalidTransaction_only kind n b s) (by decide)) s
  | sidelineByteReceived i d p b => cases h; exact live_keeps (sideIn_only i d p b) s (by decide)
  | sidelineByteSent i => cases h; exact live_keeps (sideSent_only i) s (by decide)
  | returnTileTake => cases h; exact live_keeps viewfinderTakes_only s (by decide)
  | selectFall => cases h; exact .only (selectFalls_only s) (by decide)

theorem step_keeps (h : step s = .next t) : KeepsLaws s t := by
  unfold step at h
  split at h
  · cases h
    exact .ite (fun _ => .refl s) fun _ => millisecond_keeps s
  · rename_i c rest _
    have popped : KeepsLaws s { s with pending := rest } := .same rfl rfl fun _ => rfl
    exact popped.trans (exec_keeps c h)

/-- Settles O7, by the operations of the part: each keeps the three laws together. -/
theorem everyStepKeepsThePlanAndCreditLaws : Obligations.EveryStepKeepsThePlanAndCreditLaws :=
  ⟨fun _ _ law h => (step_keeps h).plan law, fun _ _ law fits h => (step_keeps h).share law fits,
    fun _ _ law h => (step_keeps h).builder law⟩

end Sys2Proof.Proofs

/-! # Proofs: the plan commands

What each plan command does when it is taken: refused by a hold check (O20), read (O15), edited (O22), opened and abandoned
(O21). -/

namespace Sys2Proof.Proofs

open Sys2Proof.Machine Sys2Proof.Claims

variable {o : Origin} {tag : Byte} {s t : State} {c : Cmd} {r : Reply} {ms : Nat} {es : List Entry} {b : Bank}

/-! ### A plan edit that is taken -/

theorem isBaseEdit_eq (c : Cmd) : isBaseEdit c = isEdit c := by cases c <;> rfl

theorem wellFormed_of_isEdit (h : isEdit c = true) : c.wellFormed = true := by cases c <;> first | rfl | cases h

theorem permitted_of_isEdit (h : isEdit c = true) (o : Origin) : permitted o c = true := by
  cases o with
  | head => rfl
  | base => cases c <;> first | rfl | cases h

theorem editReady_of_ready (h : Ready o s) : EditReady o s := by
  obtain ⟨live, ready⟩ := h
  cases o with
  | head => exact ⟨live, ready⟩
  | base => exact ⟨live, .inl ready.1, ready.2⟩

/-- A plan edit is taken where it is ready, in the frame period of a loss of the link as well (R63, R79; log 10). -/
theorem exec_edit (h : EditReady o s) (hc : isEdit c = true) (hp : perform o tag c s = (t, some r)) :
    exec (row o tag c) s = replies o c.opcode tag r.result r.data t := by
  obtain ⟨live, ready⟩ := h
  have formed := wellFormed_of_isEdit hc
  rw [exec_row]
  cases o with
  | head => rw [submit_head live ready formed, hp]; rfl
  | base =>
    obtain ⟨arrives, room⟩ := ready
    have arrived : baseArrives c s = true := by
      obtain receiving | lost := arrives
      · exact baseArrives_of_receives receiving
      · exact baseArrives_of_edit ((isBaseEdit_eq c).trans hc) lost
    rw [submit_base live arrived room formed (permitted_of_isEdit hc .base), hp]
    rfl

/-! ### The hold checks (Table 4-4) -/

theorem perform_edit_refused {x : ResultCode} (hc : isEdit c = true) (h : holdRefusal s o false = some x) :
    perform o tag c s = (s, some (refusal x)) := by
  cases c with
  | planPut | planInsert | planRemove => simp only [perform, cmdPlanPut, cmdPlanInsert, cmdPlanRemove, editing, h]; rfl
  | planCommit | planAbandon => simp only [perform, cmdPlanCommit, cmdPlanAbandon, h]; rfl
  | _ => cases hc

/-- An edit that a hold check refuses changes nothing else (R65). -/
theorem exec_edit_refused {x : ResultCode} (ready : EditReady o s) (hc : isEdit c = true)
    (h : holdRefusal s o false = some x) : exec (row o tag c) s = replies o c.opcode tag x [] s :=
  exec_edit ready hc (perform_edit_refused hc h)

theorem exec_planOpen_refused {x : ResultCode} (ready : Ready o s) (h : holdRefusal s o true = some x) :
    exec (.planOpen o tag) s = replies o 8 tag x [] s := by
  have performed : perform o tag .planOpen s = (s, some (refusal x)) := by simp only [perform, cmdPlanOpen, h]; rfl
  exact exec_taken (c := .planOpen) ready performed rfl fun _ => rfl

theorem holdRefusal_free (hold : s.plan.hold = .free) : holdRefusal s o false = some .noHold := by
  rw [holdRefusal, hold]; rfl

theorem holdRefusal_other {k : Origin} (hold : s.plan.hold = .held k ms) (other : k ≠ o) (opening : Bool) :
    holdRefusal s o opening = some (if opening then .held else .noHold) := by
  rw [holdRefusal, hold]
  cases opening <;> simp [other]

theorem holdRefusal_counting {k : Origin} (hold : s.plan.hold = .counting k) (opening : Bool) :
    holdRefusal s o opening = some .busy := by
  rw [holdRefusal, hold]

/-! ### PLAN_READ and CARRY_READ -/

theorem bankOf_bankNum (b : BankId) : bankOf (byteOf (bankNum b)).toNat = some b := by cases b <;> rfl

theorem bankOf_eq_none {n : Nat} (h : 1 < n) : bankOf n = none := by
  unfold bankOf
  split <;> simp at h ⊢

/-- The items of a list from an index on, each with its own index. -/
theorem mapIdx_drop_take {α β : Type} (f : Nat → α → β) (xs : List α) (a n : Nat) :
    (((xs.drop a).take n).mapIdx fun k x => f (a + k) x) = ((xs.mapIdx f).drop a).take n := by
  apply List.ext_getElem?
  intro i
  by_cases hi : i < n <;> simp [hi]

theorem entriesFrom_eq (es : List Entry) (start n : Nat) :
    entriesFrom es start n = (((es.mapIdx entryBytes).drop start).take n).flatten := by
  rw [entriesFrom, mapIdx_drop_take entryBytes]

/-- A FREE bank is the other one, and empty (R56, R72). -/
theorem bank_emptied_of_free (law : PlanLaw s.plan) {b : BankId} (free : (bankGet s.plan b).role = .free) :
    bankGet s.plan b = .emptied := by
  have active : b ≠ activeId s.plan := by
    rintro rfl
    obtain ⟨-, -, role, -⟩ := (planLaw_iff s.plan).mp law
    exact nomatch role.symm.trans free
  have other : b = otherId s.plan := by
    revert active
    unfold otherId
    cases activeId s.plan <;> cases b <;> simp [otherBank]
  rw [other] at free ⊢
  cases hold : s.plan.hold with
  | free => exact (holdLaw_free law hold).1
  | held k ms => exact nomatch (holdLaw_held law hold).1.symm.trans free
  | counting k => exact nomatch (holdLaw_counting law hold).1.symm.trans free

/-- The seven bytes of CARRY_READ for an entry beside its runtime (R113). -/
def carryBytes (s : State) (k : Nat) (x : Entry × Runtime) : List Byte :=
  [byteOf k, byteOf (laneNum x.1.lane), byteOf (carryNum x.2.carry)] ++ bytes2 x.2.credit
    ++ bytes2 (releasedTiles s x.1.lane)

theorem carryEntries_eq (s : State) (i : Nat) (es : List Entry) (rs : List Runtime) :
    carryEntries s i es rs = (es.zip rs).mapIdx fun k x => carryBytes s (i + k) x := by
  induction es generalizing i rs with
  | nil => rfl
  | cons e es ih =>
    cases rs with
    | nil => rfl
    | cons r rs =>
      rw [carryEntries, ih, List.zip_cons_cons, List.mapIdx_cons]
      simp only [Nat.add_assoc, Nat.add_comm 1]
      rfl

/-- Settles O15, by the reply of each command. -/
theorem planReadAndCarryReadAnswer : Obligations.PlanReadAndCarryReadAnswer := by
  refine ⟨fun o tag x start s ready => ⟨fun bad => ?_, fun beyond => ?_⟩, fun b s law free => ?_,
    fun o tag start b s ready => ?_, fun o tag start s ready within => ?_⟩
  · have performed : perform o tag (.planRead x start) s = (s, some (refusal .range)) := by
      simp only [perform, cmdPlanRead, bankOf_eq_none bad]; rfl
    exact exec_taken (c := .planRead x start) ready performed rfl fun _ => rfl
  · have performed : perform o tag (.carryRead start) s = (s, some (refusal .range)) := by
      simp only [perform, cmdCarryRead, if_pos beyond]; rfl
    exact exec_taken (c := .carryRead start) ready performed rfl fun _ => rfl
  · rw [bank_emptied_of_free law free]
    exact ⟨rfl, rfl⟩
  · intro bank n i
    have performed : perform o tag (.planRead (byteOf (bankNum b)) start) s =
        (s, some (cmdPlanRead (byteOf (bankNum b)) start s).2) := by
      simp only [perform, cmdPlanRead, bankOf_bankNum]
    refine (exec_taken (c := .planRead _ start) ready performed rfl fun _ => rfl).trans ?_
    simp only [cmdPlanRead, bankOf_bankNum, entriesFrom_eq]
    rfl
  · intro bank n i entry
    have performed : perform o tag (.carryRead start) s = (s, some (doneWith (carryData start.toNat s))) := by
      simp only [perform, cmdCarryRead, if_neg (Nat.not_lt.mpr within)]
    refine (exec_taken (c := .carryRead start) ready performed rfl fun _ => rfl).trans ?_
    simp only [carryData, carryEntries_eq, Nat.zero_add]
    rfl

/-! ### The hold checks after a loss of the link -/

/-- A loss of the link costs the base its hold, with its switch where that was announced (R63, R127). -/
theorem lostPlan_base (lost : (∃ ms, s.plan.hold = .held .base ms) ∨ (s.plan.hold = .counting .base ∧ Announced s)) :
    (lostPlan s).hold = .free ∧ (lostPlan s).lossTaken = true := by
  have rest (b : BankId) (p : PlanStore) : (bankSet p b .emptied).lossTaken = p.lossTaken := by cases b <;> rfl
  obtain ⟨ms, hold⟩ | ⟨hold, announced⟩ := lost
  · rw [lostPlan, hold]
    exact ⟨rfl, rest _ _⟩
  · rw [lostPlan, hold]
    simp only [if_pos announced, true_and]
    exact rest _ _

/-- A fall of the carrier in a state that carries frames drops the link (R137, R138). -/
theorem exec_carrierFall (live : s.pins.resetLow = false) (h : Carrying s.link.state) :
    exec .carrierFall s = .next (dropToDown .carrier (setCarrier false s)) := by
  have low : (setCarrier false s).pins.resetLow ≠ true := by simpa [setCarrier] using live
  have carries : carriesFrames (setCarrier false s).link.state = true := (carriesFrames_iff _).mpr h
  rw [exec, execCarrierFall, whenLive, if_neg low, carrierLost, if_pos carries]

/-- Settles O20, by the hold checks; after a loss by what it leaves of the hold. -/
theorem holdChecksComeFirst : Obligations.HoldChecksComeFirst := by
  refine ⟨fun o tag c s ready hc => ?_,
    fun o tag s ready => ⟨fun h ms hold other => ?_, fun h hold => ?_⟩, fun tag c s ready hc carrying lost => ?_⟩
  · exact ⟨fun hold => exec_edit_refused ready hc (holdRefusal_free hold),
      fun _ _ hold other => exec_edit_refused ready hc (holdRefusal_other hold other false),
      fun _ hold => exec_edit_refused ready hc (holdRefusal_counting hold false)⟩
  · exact exec_planOpen_refused ready (holdRefusal_other hold other true)
  · exact exec_planOpen_refused ready (holdRefusal_counting hold true)
  · obtain ⟨live, -, room⟩ := ready
    let u := setCarrier false s
    have only : OnlyChanges dropChanges u (dropToDown .carrier u) := dropToDown_only .carrier u
    obtain ⟨⟨link, -, -, plan⟩, -⟩ := dropToDown_drops .carrier u
    obtain ⟨free, taken⟩ := lostPlan_base (s := u) lost
    have responses : (dropToDown .carrier u).control.responses = s.control.responses := only .responses (by decide)
    have pins : (dropToDown .carrier u).pins = u.pins := only .pins (by decide)
    have ready' : EditReady .base (dropToDown .carrier u) :=
      ⟨by rw [pins]; exact live, .inr (by rw [plan]; exact taken), by rw [responses]; exact room⟩
    exact ⟨_, exec_carrierFall live carrying, by rw [link]; rfl,
      exec_edit_refused ready' hc (holdRefusal_free (by rw [plan]; exact free))⟩

end Sys2Proof.Proofs

/-! # Proofs: the edits of the holder

PLAN_OPEN and PLAN_ABANDON (O21), and the three edits with the checks of Table 4-5 (O22). -/

namespace Sys2Proof.Proofs

open Sys2Proof.Machine Sys2Proof.Claims

variable {o : Origin} {tag : Byte} {s t : State} {ms : Nat} {es : List Entry} {e : Entry} {x : ResultCode}

/-! ### PLAN_OPEN and PLAN_ABANDON -/

theorem holdRefusal_held (hold : s.plan.hold = .held o ms) (opening : Bool) : holdRefusal s o opening = none := by
  rw [holdRefusal, hold]
  simp

/-- The store with a pending bank of its own and another hold: the bank, its number and the active bank. -/
theorem openData_withOther {b : Bank} {h : Hold} (plan : t.plan = withOther s.plan b h s.plan.countdown s.plan.due)
    (role : b.role = .active → (pendingBank s).role = .active) :
    openData t = [byteOf (bankNum (otherId s.plan)), b.epoch, byteOf b.entries.length] := by
  rw [openData, pendingBank, plan, bankGet_withOther_other role, otherId_withOther role]

theorem exec_planOpen_free (ready : Ready o s) (free : s.plan.hold = .free) :
    exec (.planOpen o tag) s = replies o 8 tag .done
      [byteOf (bankNum (otherId s.plan)), (activeBank s).epoch + 1, byteOf (activeBank s).entries.length] (openHold o s) := by
  have passes : holdRefusal s o true = none := holdRefusal_open_none.mpr (.inl free)
  have performed : perform o tag .planOpen s = (openHold o s, some (doneWith (openData (openHold o s)))) := by
    simp only [perform, cmdPlanOpen, passes, if_pos free]
  refine (exec_taken (c := .planOpen) ready performed rfl fun _ => rfl).trans ?_
  have data := openData_withOther (s := s) (t := openHold o s) (h := .held o 2000)
    (b := { role := .pending, epoch := (activeBank s).epoch + 1, entries := (activeBank s).entries })
    (by rw [withOther_bankSet]; rfl) nofun
  rw [← data]
  rfl

theorem exec_planOpen_held (ready : Ready o s) (hold : s.plan.hold = .held o ms) :
    exec (.planOpen o tag) s = replies o 8 tag .done
      [byteOf (bankNum (otherId s.plan)), (pendingBank s).epoch, byteOf (pendingBank s).entries.length] (restarted o s) := by
  have passes : holdRefusal s o true = none := holdRefusal_held hold true
  have performed : perform o tag .planOpen s = (restarted o s, some (doneWith (openData (restarted o s)))) := by
    simp only [perform, cmdPlanOpen, passes, if_neg (show s.plan.hold ≠ .free by simp [hold]), restartHoldTimer_held hold]
  exact exec_taken (c := .planOpen) ready performed rfl fun _ => rfl

theorem exec_planAbandon_held (ready : Ready o s) (hold : s.plan.hold = .held o ms) :
    exec (.planAbandon o tag) s = replies o 14 tag .done [] (freeHold s) := by
  have passes : holdRefusal s o false = none := holdRefusal_held hold false
  have performed : perform o tag .planAbandon s = (freeHold s, some (doneWith [])) := by
    simp only [perform, cmdPlanAbandon, passes]
  exact exec_taken (c := .planAbandon) ready performed rfl fun _ => rfl

/-- Settles O21, by the hold checks and by the two commands of a holder. -/
theorem planOpenAndPlanAbandon : Obligations.PlanOpenAndPlanAbandon := by
  refine ⟨fun o tag s ready => ?_, fun o tag s ready => ⟨fun free => exec_planOpen_free ready free, fun ms hold =>
    exec_planOpen_held ready hold⟩, fun o tag ms s ready hold => exec_planAbandon_held ready hold⟩
  have abandons {x : ResultCode} (h : holdRefusal s o false = some x) :
      exec (.planAbandon o tag) s = replies o 14 tag x [] s :=
    exec_edit_refused (c := .planAbandon) (editReady_of_ready ready) rfl h
  exact ⟨fun hold => abandons (holdRefusal_free hold),
    fun _ _ hold other => ⟨exec_planOpen_refused ready (holdRefusal_other hold other true),
      abandons (holdRefusal_other hold other false)⟩,
    fun _ hold => ⟨exec_planOpen_refused ready (holdRefusal_counting hold true),
      abandons (holdRefusal_counting hold false)⟩⟩

/-! ### The argument fields (Table 4-5, check 2) -/

theorem yesNo_eq_none {n : Nat} (h : 1 < n) : yesNo n = none := by
  unfold yesNo
  split <;> simp at h ⊢

theorem yesNo_isSome {n : Nat} (h : n ≤ 1) : ∃ b, yesNo n = some b := by
  obtain rfl | rfl : n = 0 ∨ n = 1 := by omega
  · exact ⟨_, rfl⟩
  · exact ⟨_, rfl⟩

/-- An argument field of an entry is out of its range. -/
def FieldBad (lane : Byte) (q : Word16) (prio thin drain : Byte) : Prop :=
  3 < lane.toNat ∨ q.toNat < 16 ∨ 1920 < q.toNat ∨ 3 < prio.toNat ∨ 1 < thin.toNat ∨ 1 < drain.toNat

section
variable {lane prio thin drain : Byte} {q : Word16}

theorem entryOf_eq_none (bad : FieldBad lane q prio thin drain) : entryOf lane q prio thin drain = none := by
  unfold entryOf
  split
  · rename_i l t d isLane isThin isDrain
    have lane_ok : ¬ 3 < lane.toNat := fun h => nomatch (laneOf_eq_none h).symm.trans isLane
    have thin_ok : ¬ 1 < thin.toNat := fun h => nomatch (yesNo_eq_none h).symm.trans isThin
    have drain_ok : ¬ 1 < drain.toNat := fun h => nomatch (yesNo_eq_none h).symm.trans isDrain
    split
    · exact if_neg fun within => by unfold FieldBad at bad; omega
    · rfl
  · rfl

/-- Fields in their ranges make an entry of the lane that they name. -/
theorem entryOf_lane (good : ¬ FieldBad lane q prio thin drain) {l : LaneId} (hl : lane = byteOf (laneNum l)) :
    ∃ e, entryOf lane q prio thin drain = some e ∧ e.lane = l := by
  simp only [FieldBad, not_or, not_lt] at good
  obtain ⟨-, least, most, prio_ok, thin_ok, drain_ok⟩ := good
  obtain ⟨t, ht⟩ := yesNo_isSome thin_ok
  obtain ⟨d, hd⟩ := yesNo_isSome drain_ok
  have hp : prio.toNat < 4 := by omega
  refine ⟨{ lane := l, share := q.toNat, priority := ⟨prio.toNat, hp⟩, thinning := t, drain := d }, ?_, rfl⟩
  simp only [entryOf, hl, laneOf_laneNum, ht, hd, dif_pos hp, if_pos (And.intro least most)]

end

/-- The fields of an entry make it again. -/
theorem entryOf_fields (least : 16 ≤ e.share) (most : e.share ≤ 1920) :
    entryOf (byteOf (laneNum e.lane)) (wordOf e.share) (byteOf e.priority.val) (byteOf (boolNum e.thinning))
      (byteOf (boolNum e.drain)) = some e := by
  have share : (wordOf e.share).toNat = e.share := by rw [wordOf, BitVec.toNat_ofNat]; omega
  have priority : (byteOf e.priority.val).toNat = e.priority.val := by rw [byteOf, BitVec.toNat_ofNat]; omega
  have range : e.priority.val < 4 := e.priority.isLt
  simp only [entryOf, laneOf_laneNum, yesNo_boolNum, share, priority, dif_pos range, if_pos (And.intro least most)]

/-! ### The checks against the other entries (Table 4-5, checks 3 and 4) -/

theorem entryRefusal_unknown (unknown : (s.lane e.lane).desc.configured = false) (others : List Entry) :
    entryRefusal s (some e) others = some .unknownLane := by simp [entryRefusal, unknown]

theorem entryRefusal_duplicate (known : (s.lane e.lane).desc.configured = true) {others : List Entry}
    (named : names others e.lane = true) : entryRefusal s (some e) others = some .duplicate := by
  simp [entryRefusal, known, named]

theorem entryRefusal_none (known : (s.lane e.lane).desc.configured = true) {others : List Entry}
    (named : names others e.lane = false) : entryRefusal s (some e) others = none := by simp [entryRefusal, known, named]

theorem names_eq_true {l : LaneId} : names es l = true ↔ ∃ f ∈ es, f.lane = l := by simp [names]

/-- The entries other than the one at an index. -/
theorem names_eraseIdx {l : LaneId} {i : Nat} :
    names (es.eraseIdx i) l = true ↔ ∃ (j : Nat) (f : Entry), j ≠ i ∧ es[j]? = some f ∧ f.lane = l := by
  simp only [names_eq_true, List.mem_eraseIdx_iff_getElem?]
  constructor
  · rintro ⟨f, ⟨j, hj, hf⟩, lane⟩
    exact ⟨j, f, hj, hf, lane⟩
  · rintro ⟨j, f, hj, hf, lane⟩
    exact ⟨f, ⟨j, hj, hf⟩, lane⟩

/-! ### The edits of the holder -/

theorem editing_held {edit : State → State × Reply} (hold : s.plan.hold = .held o ms) :
    editing o s edit = edit (restarted o s) := by
  simp only [editing, holdRefusal_held hold, restartHoldTimer_held hold]

theorem setPendingEntries_restarted (o : Origin) (es : List Entry) (s : State) :
    setPendingEntries es (restarted o s) = { s with plan := editedPlan o es s } := by
  have id : otherId { s.plan with hold := .held o 2000 } = otherId s.plan := rfl
  simp only [setPendingEntries, restarted, State.modPlan, editedPlan, pendingBank, id]
  cases otherId s.plan <;> rfl

theorem pendingBank_editedPlan (o : Origin) (es : List Entry) (s : State) :
    pendingBank { s with plan := editedPlan o es s } = { pendingBank s with entries := es } := by
  have plan : editedPlan o es s = withOther s.plan { pendingBank s with entries := es } (.held o 2000) s.plan.countdown
      s.plan.due := (withOther_bankSet _ _ _).symm
  change bankGet (editedPlan o es s) (otherId (editedPlan o es s)) = _
  rw [plan]
  exact bankGet_withOther_other id

/-- The edited list becomes the pending bank's, with the timer restarted; the answer is the entry count. -/
theorem edited_restarted (o : Origin) (es : List Entry) (s : State) : edited es (restarted o s) =
    ({ s with plan := editedPlan o es s }, doneWith [byteOf es.length]) := by
  rw [edited, setPendingEntries_restarted, countData, pendingBank_editedPlan]

section
variable (hold : s.plan.hold = .held o ms) {index : Byte}
include hold

theorem cmdPlanRemove_held : cmdPlanRemove o index s =
    if (pendingBank s).entries.length ≤ index.toNat then (restarted o s, refusal .range)
    else ({ s with plan := editedPlan o ((pendingBank s).entries.eraseIdx index.toNat) s },
      doneWith [byteOf ((pendingBank s).entries.eraseIdx index.toNat).length]) := by
  rw [cmdPlanRemove, editing_held hold]
  exact congrArg (ite _ _) (edited_restarted o _ s)

theorem cmdPlanPut_range (beyond : (pendingBank s).entries.length ≤ index.toNat) (e : Option Entry) :
    cmdPlanPut o index e s = (restarted o s, refusal .range) := by
  rw [cmdPlanPut, editing_held hold]
  exact if_pos beyond

theorem cmdPlanPut_refused (within : index.toNat < (pendingBank s).entries.length) {e : Option Entry}
    (refuses : entryRefusal s e ((pendingBank s).entries.eraseIdx index.toNat) = some x) :
    cmdPlanPut o index e s = (restarted o s, refusal x) := by
  have here : entryRefusal (restarted o s) e ((pendingBank (restarted o s)).entries.eraseIdx index.toNat) = some x := refuses
  rw [cmdPlanPut, editing_held hold]
  simp only [here]
  exact if_neg (Nat.not_le.mpr within)

theorem cmdPlanPut_accepted (within : index.toNat < (pendingBank s).entries.length)
    (accepts : entryRefusal s (some e) ((pendingBank s).entries.eraseIdx index.toNat) = none) :
    cmdPlanPut o index (some e) s = ({ s with plan := editedPlan o ((pendingBank s).entries.set index.toNat e) s },
      doneWith [byteOf (pendingBank s).entries.length]) := by
  have here : entryRefusal (restarted o s) (some e) ((pendingBank (restarted o s)).entries.eraseIdx index.toNat) = none :=
    accepts
  rw [cmdPlanPut, editing_held hold]
  simp only [here]
  refine (if_neg (Nat.not_le.mpr within)).trans ((edited_restarted o _ s).trans ?_)
  rw [List.length_set]
  rfl

theorem cmdPlanInsert_range (beyond : (pendingBank s).entries.length < index.toNat) (e : Option Entry) :
    cmdPlanInsert o index e s = (restarted o s, refusal .range) := by
  rw [cmdPlanInsert, editing_held hold]
  exact if_pos beyond

theorem cmdPlanInsert_full (within : index.toNat ≤ (pendingBank s).entries.length)
    (full : 24 ≤ (pendingBank s).entries.length) (e : Option Entry) :
    cmdPlanInsert o index e s = (restarted o s, refusal .full) := by
  rw [cmdPlanInsert, editing_held hold]
  exact (if_neg (Nat.not_lt.mpr within)).trans (if_pos full)

theorem cmdPlanInsert_refused (within : index.toNat ≤ (pendingBank s).entries.length)
    (space : (pendingBank s).entries.length < 24) {e : Option Entry}
    (refuses : entryRefusal s e (pendingBank s).entries = some x) :
    cmdPlanInsert o index e s = (restarted o s, refusal x) := by
  have here : entryRefusal (restarted o s) e (pendingBank (restarted o s)).entries = some x := refuses
  rw [cmdPlanInsert, editing_held hold]
  simp only [here]
  exact (if_neg (Nat.not_lt.mpr within)).trans (if_neg (Nat.not_le.mpr space))

theorem cmdPlanInsert_accepted (within : index.toNat ≤ (pendingBank s).entries.length)
    (space : (pendingBank s).entries.length < 24) (accepts : entryRefusal s (some e) (pendingBank s).entries = none) :
    cmdPlanInsert o index (some e) s = ({ s with plan := editedPlan o ((pendingBank s).entries.insertIdx index.toNat e) s },
      doneWith [byteOf ((pendingBank s).entries.length + 1)]) := by
  have here : entryRefusal (restarted o s) (some e) (pendingBank (restarted o s)).entries = none := accepts
  rw [cmdPlanInsert, editing_held hold]
  simp only [here]
  refine ((if_neg (Nat.not_lt.mpr within)).trans (if_neg (Nat.not_le.mpr space))).trans ((edited_restarted o _ s).trans ?_)
  rw [show (pendingBank (restarted o s)).entries = (pendingBank s).entries from rfl,
    List.length_insertIdx_of_le_length within]

end

/-! ### Their rows -/

section
variable {index lane prio thin drain : Byte} {q : Word16} {r : Reply} (ready : Ready o s)
include ready

theorem exec_planRemove (h : cmdPlanRemove o index s = (t, r)) :
    exec (.planRemove o tag index) s = replies o 11 tag r.result r.data t :=
  exec_taken (c := .planRemove index) ready (by simp only [perform, h]) rfl fun _ => rfl

theorem exec_planPut (h : cmdPlanPut o index (entryOf lane q prio thin drain) s = (t, r)) :
    exec (.planPut o tag index lane q prio thin drain) s = replies o 9 tag r.result r.data t :=
  exec_taken (c := .planPut index lane q prio thin drain) ready (by simp only [perform, h]) rfl fun _ => rfl

theorem exec_planInsert (h : cmdPlanInsert o index (entryOf lane q prio thin drain) s = (t, r)) :
    exec (.planInsert o tag index lane q prio thin drain) s = replies o 10 tag r.result r.data t :=
  exec_taken (c := .planInsert index lane q prio thin drain) ready (by simp only [perform, h]) rfl fun _ => rfl

end

/-- Settles O22, by the outcome of each edit of a holder and the checks of an entry. -/
theorem planEditsCheckAndChangeThePendingBank : Obligations.PlanEditsCheckAndChangeThePendingBank := by
  refine ⟨fun o tag index lane prio thin drain q ms s e ready hold => ?_,
    fun o tag index lane prio thin drain q ms s ready hold => ?_⟩
  · intro es i
    refine ⟨fun within => ?_, ?_⟩
    · refine exec_planRemove (r := doneWith [byteOf (es.length - 1)]) ready
        ((cmdPlanRemove_held hold).trans ((if_neg (Nat.not_le.mpr within)).trans ?_))
      rw [List.length_eraseIdx_of_lt within]
    · rintro rfl rfl rfl rfl rfl least most known
      refine ⟨fun within apart => ?_, fun within space apart => ?_⟩
      · have unnamed : names (es.eraseIdx i) e.lane = false := Bool.eq_false_of_not_eq_true fun named => by
          obtain ⟨j, f, hj, hf, lane⟩ := names_eraseIdx.mp named
          exact apart j f hj hf lane
        refine exec_planPut (r := doneWith [byteOf es.length]) ready ?_
        rw [entryOf_fields least most]
        exact cmdPlanPut_accepted hold within (entryRefusal_none known unnamed)
      · have unnamed : names es e.lane = false := Bool.eq_false_of_not_eq_true fun named => by
          obtain ⟨f, hf, lane⟩ := names_eq_true.mp named
          exact apart f hf lane
        refine exec_planInsert (r := doneWith [byteOf (es.length + 1)]) ready ?_
        rw [entryOf_fields least most]
        exact cmdPlanInsert_accepted hold within space (entryRefusal_none known unnamed)
  · intro es i put insert bad
    have puts {x : ResultCode} (within : i < es.length)
        (refuses : entryRefusal s (entryOf lane q prio thin drain) (es.eraseIdx i) = some x) : put x :=
      exec_planPut (r := refusal x) ready (cmdPlanPut_refused hold within refuses)
    have inserts {x : ResultCode} (within : i ≤ es.length) (space : es.length < 24)
        (refuses : entryRefusal s (entryOf lane q prio thin drain) es = some x) : insert x :=
      exec_planInsert (r := refusal x) ready (cmdPlanInsert_refused hold within space refuses)
    refine ⟨fun beyond => ⟨?_, ?_⟩, fun beyond => ?_, fun within full => ?_, fun isBad => ?_, fun good l hl => ?_⟩
    · exact exec_planRemove (r := refusal .range) ready ((cmdPlanRemove_held hold).trans (if_pos beyond))
    · exact exec_planPut (r := refusal .range) ready (cmdPlanPut_range hold beyond _)
    · exact exec_planInsert (r := refusal .range) ready (cmdPlanInsert_range hold beyond _)
    · exact exec_planInsert (r := refusal .full) ready (cmdPlanInsert_full hold within full _)
    · have none := entryOf_eq_none isBad
      exact ⟨fun within => puts within (by rw [none]; rfl), fun within space => inserts within space (by rw [none]; rfl)⟩
    · obtain ⟨e, made, rfl⟩ := entryOf_lane good hl
      rw [made] at puts inserts
      exact ⟨fun unknown => ⟨fun within => puts within (entryRefusal_unknown unknown _),
          fun within space => inserts within space (entryRefusal_unknown unknown _)⟩,
        fun known => ⟨fun within named => puts within (entryRefusal_duplicate known (names_eraseIdx.mpr named)),
          fun within space named => inserts within space (entryRefusal_duplicate known (names_eq_true.mpr named))⟩⟩

end Sys2Proof.Proofs

/-! # Proofs: PLAN_COMMIT (O23)

The checks of a commit in their order, and the switch that a commit which passes them starts. -/

namespace Sys2Proof.Proofs

open Sys2Proof.Machine Sys2Proof.Claims

variable {o : Origin} {tag : Byte} {s t : State} {ms : Nat} {es : List Entry} {e : Entry}

/-! ### The first entry that a check fails on (R74, R75) -/

theorem firstUnknown_eq_some {k i : Nat} (he : es[i]? = some e) (unknown : ¬ (s.lane e.lane).desc.configured = true)
    (before : ∀ (j : Nat) (f : Entry), j < i → es[j]? = some f → (s.lane f.lane).desc.configured = true) :
    firstUnknown s k es = some (k + i) := by
  induction es generalizing k i with
  | nil => simp at he
  | cons x es ih =>
    cases i with
    | zero =>
      obtain rfl : x = e := by simpa using he
      simp [firstUnknown, unknown]
    | succ i =>
      have known := before 0 x (Nat.succ_pos i) rfl
      rw [firstUnknown, if_pos known, ih he fun j f hj hf => before (j + 1) f (Nat.succ_lt_succ hj) hf]
      exact congrArg some (by omega)

theorem firstShort_eq_some {k i : Nat} (he : es[i]? = some e) (short : e.share < demand (s.lane e.lane).desc)
    (before : ∀ (j : Nat) (f : Entry), j < i → es[j]? = some f → demand (s.lane f.lane).desc ≤ f.share) :
    firstShort s k es = some (k + i, e.share, demand (s.lane e.lane).desc) := by
  induction es generalizing k i with
  | nil => simp at he
  | cons x es ih =>
    cases i with
    | zero =>
      obtain rfl : x = e := by simpa using he
      simp [firstShort, short]
    | succ i =>
      have enough := before 0 x (Nat.succ_pos i) rfl
      rw [firstShort]
      simp only [if_neg (Nat.not_lt.mpr enough)]
      rw [ih he fun j f hj hf => before (j + 1) f (Nat.succ_lt_succ hj) hf]
      exact congrArg (fun n => some (n, e.share, demand (s.lane e.lane).desc)) (by omega)

/-! ### The checks in their order (R73) -/

theorem commitClass_eq (s : State) : commitClass s = checkClass s := by
  unfold commitClass checkClass
  simp only [isUp_iff]

theorem commitCheck_empty (h : (pendingBank s).entries = []) : commitCheck s = .empty := if_pos h

theorem commitCheck_unknown {i : Nat} (h : firstUnknown s 0 (pendingBank s).entries = some i) :
    commitCheck s = .unknownLane i := by
  have some_entry : (pendingBank s).entries ≠ [] := fun none => by rw [none] at h; exact nomatch h
  simp only [commitCheck, if_neg some_entry, h]

theorem commitCheck_short {i q d : Nat} (known : firstUnknown s 0 (pendingBank s).entries = none)
    (h : firstShort s 0 (pendingBank s).entries = some (i, q, d)) : commitCheck s = .shortShare i q d := by
  have some_entry : (pendingBank s).entries ≠ [] := fun none => by rw [none] at h; exact nomatch h
  simp only [commitCheck, if_neg some_entry, known, h]

/-- The last check: the shares of priority 0 against the capacity at the class of the check (R76). -/
theorem commitCheck_sum (some_entry : (pendingBank s).entries ≠ [])
    (known : firstUnknown s 0 (pendingBank s).entries = none) (long : firstShort s 0 (pendingBank s).entries = none) :
    commitCheck s = if capacity16 (checkClass s) < prioritySum (pendingBank s).entries then
      .over (prioritySum (pendingBank s).entries) (capacity16 (checkClass s)) else .passes := by
  simp only [commitCheck, if_neg some_entry, known, long, commitClass_eq]

theorem commitCheck_passes (commits : Commits s (checkClass s)) : commitCheck s = .passes := by
  obtain ⟨some_entry, known, long, fits⟩ := commits
  rw [commitCheck_sum some_entry (firstUnknown_eq_none.mpr known) (firstShort_eq_none.mpr long)]
  exact if_neg (Nat.not_lt.mpr fits)

/-! ### The outcomes of the command -/

/-- A commit that fails a check restarts the timer and gives the check's result and details (R77). -/
theorem exec_planCommit_fails (ready : Ready o s) (hold : s.plan.hold = .held o ms) {r : Reply}
    (h : cmdPlanCommit o s = (restartHoldTimer s, r)) :
    exec (.planCommit o tag) s = replies o 13 tag r.result r.data (restarted o s) := by
  rw [restartHoldTimer_held hold] at h
  exact exec_taken (c := .planCommit) ready (by simp only [perform, h]) rfl fun _ => rfl

theorem exec_planCommit_passes (ready : Ready o s) (hold : s.plan.hold = .held o ms) (passes : commitCheck s = .passes) :
    exec (.planCommit o tag) s = replies o 13 tag .accepted
      [(pendingBank (acceptCommit o s)).epoch, byteOf (acceptCommit o s).plan.countdown] (acceptCommit o s) := by
  have performed : perform o tag .planCommit s = (acceptCommit o s,
      some (acceptedWith [(pendingBank (acceptCommit o s)).epoch, byteOf (acceptCommit o s).plan.countdown])) := by
    simp only [perform, cmdPlanCommit, holdRefusal_held hold, passes]
  exact exec_taken (c := .planCommit) ready performed rfl fun _ => rfl

/-! ### The announcement (R119) -/

theorem length_announcement (kind : AnnounceKind) (n : Nat) : (announcement kind n).length = 2 + (n + 3) / 4 := by
  simp [announcement, entryCells]
  omega

/-- The cells of an announcement: the head, the entries, the lanes, each with its place as its tag. -/
theorem announcement_getElem? {kind : AnnounceKind} {n i : Nat} {c : AnnounceCell} (h : (announcement kind n)[i]? = some c) :
    c.kind = kind ∧ c.tag = i ∧
      c.part = if i = 0 then .head else if i ≤ (n + 3) / 4 then .entries (i - 1) else .lanes := by
  have cells : entryCells n = (n + 3) / 4 := rfl
  cases i with
  | zero =>
    obtain rfl := Option.some.inj h
    exact ⟨rfl, rfl, rfl⟩
  | succ i =>
    rw [announcement, List.cons_append, List.getElem?_cons_succ] at h
    by_cases within : i < entryCells n
    · rw [List.getElem?_append_left (by simpa using within), List.getElem?_map, List.getElem?_range within] at h
      obtain rfl := Option.some.inj h
      exact ⟨rfl, rfl, by rw [if_neg (Nat.succ_ne_zero i), if_pos (by omega)]; rfl⟩
    · rw [List.getElem?_append_right (by simpa using within)] at h
      obtain ⟨last, rfl⟩ : i = entryCells n ∧ c = { kind := kind, tag := entryCells n + 1, part := .lanes } := by
        simp only [List.length_map, List.length_range, List.getElem?_singleton] at h
        split at h
        · exact ⟨by omega, (Option.some.inj h).symm⟩
        · cases h
      exact ⟨rfl, by rw [last], by rw [if_neg (Nat.succ_ne_zero i), if_neg (by omega)]⟩

/-- Settles O23, by the check that a commit fails first, and by what an accepted one starts. -/
theorem planCommitChecksAndStartsTheSwitch : Obligations.PlanCommitChecksAndStartsTheSwitch := by
  refine ⟨fun o tag ms s ready law hold commits => ?_, fun o tag ms s ready hold => ?_⟩
  · intro n
    have passes := exec_planCommit_passes (tag := tag) ready hold (commitCheck_passes commits)
    refine ⟨fun up => ⟨announcement .switch n, ?_, length_announcement _ _, fun i c h => announcement_getElem? h⟩,
      fun not_up => ?_⟩
    · have accepted : acceptCommit o s = { s with
          plan := { s.plan with hold := .counting o, countdown := 16, echo := .idle },
          control := { s.control with announce := announcement .switch n } } := if_pos ((isUp_iff s).mpr up)
      rw [passes, accepted]
      rfl
    · have accepted : acceptCommit o s = { s with plan := { s.plan with hold := .counting o, due := some .uncounted } } :=
        if_neg (mt (isUp_iff s).mp not_up)
      obtain ⟨-, -, still, -⟩ := holdLaw_held law hold
      rw [passes, accepted]
      change replies o 13 tag .accepted [(pendingBank s).epoch, byteOf s.plan.countdown] _ = _
      rw [still]
      rfl
  · intro es demandOf refused known sum capacity
    have fails (r : Reply) (h : cmdPlanCommit o s = (restartHoldTimer s, r)) : refused r.result r.data :=
      exec_planCommit_fails ready hold h
    have holder : holdRefusal s o false = none := holdRefusal_held hold false
    refine ⟨fun none => ?_, fun i e he unknown before => ?_, fun i e he all_known short before => ?_,
      fun some_entry all_known all_long above => ?_⟩
    · have check := commitCheck_empty none
      exact fails (refusal .empty) (by simp only [cmdPlanCommit, holder, check]; rfl)
    · have first : firstUnknown s 0 es = some i := by simpa using firstUnknown_eq_some (k := 0) he unknown before
      have check := commitCheck_unknown first
      exact fails { result := .unknownLane, data := [byteOf i] } (by simp only [cmdPlanCommit, holder, check])
    · have first : firstShort s 0 es = some (i, e.share, demandOf e) :=
        (firstShort_eq_some (k := 0) he short before).trans
          (congrArg (fun n => some (n, e.share, demandOf e)) (Nat.zero_add i))
      have check := commitCheck_short (firstUnknown_eq_none.mpr all_known) first
      exact fails { result := .shortShare, data := [byteOf i] ++ bytes2 e.share ++ bytes2 (demandOf e) }
        (by simp only [cmdPlanCommit, holder, check])
    · have check := commitCheck_sum some_entry (firstUnknown_eq_none.mpr all_known) (firstShort_eq_none.mpr all_long)
      rw [if_pos (show capacity16 (checkClass s) < prioritySum (pendingBank s).entries from above)] at check
      exact fails { result := .over, data := bytes2 sum ++ bytes2 capacity }
        (by simp only [cmdPlanCommit, holder, check]; rfl)

end Sys2Proof.Proofs

/-! # Proofs: commands that are not taken (O12) -/

namespace Sys2Proof.Proofs

open Sys2Proof.Machine Sys2Proof.Claims

variable {o : Origin} {tag : Byte} {c : Cmd} {s : State}

theorem not_permitted_of_headOnly (h : headOnly c = true) : permitted .base c = false := by
  cases c <;> first | rfl | cases h

/-- While reset is low no command does anything (R182). -/
theorem submit_low (low : s.pins.resetLow = true) (o : Origin) (tag : Byte) (c : Cmd) : submit o tag c s = s := if_pos low

/-- A head command that finds an unread response is IGNORED (R164, step 1). -/
theorem submit_head_unread (live : s.pins.resetLow = false) (unread : s.port.holding ≠ none) :
    submit .head tag c s = { s with port := { s.port with ignored := true } } := by
  have waiting : s.port.holding.isSome = true := Option.isSome_iff_ne_none.mpr unread
  rw [submit, if_neg (by simp [live])]
  exact if_pos waiting

/-- A base command that finds 8 responses waiting is lost and counted (R152). -/
theorem submit_base_lost (live : s.pins.resetLow = false) (arrives : baseArrives c s = true)
    (full : 8 ≤ s.control.responses.length) : submit .base tag c s = s.bump (.link .baseCommandsLost) := by
  rw [submit, if_neg (by simp [live])]
  exact (if_pos arrives).trans (if_pos full)

theorem baseArrives_iff (c : Cmd) (s : State) :
    baseArrives c s = true ↔ receives s = true ∨ (isEdit c = true ∧ s.plan.lossTaken = true) := by
  simp [baseArrives, isBaseEdit_eq]

/-- Settles O12, by the gates of a command row in turn. -/
theorem refusedAndLostCommandsChangeNothing : Obligations.RefusedAndLostCommandsChangeNothing := by
  refine ⟨fun c tag s head_only formed ready => exec_refused_base ready (not_permitted_of_headOnly head_only) formed,
    fun c tag s => ⟨fun low o => ?_, fun live unread => ?_, fun live deaf missed => ?_, fun live arrives full => ?_⟩⟩
  · rw [exec_row, submit_low low]
  · rw [exec_row, submit_head_unread live unread]
  · have absent : baseArrives c s = false := by
      rw [← Bool.not_eq_true, baseArrives_iff, deaf]
      rintro (received | ⟨edit, lost⟩)
      · cases received
      · obtain no_edit | no_loss := missed
        · exact nomatch edit.symm.trans no_edit
        · exact nomatch lost.symm.trans no_loss
    rw [exec_row, submit_base_absent live absent]
  · refine ⟨s.bump (.link .baseCommandsLost), ?_, ⟨rfl, rfl, rfl⟩, bump_only _ s⟩
    rw [exec_row, submit_base_lost live ((baseArrives_iff c s).mpr arrives) full]

end Sys2Proof.Proofs

/-! # Proofs: timers, verdicts and the modem

What the rows of the timers and of the modem do to the link (O47 to O51), a drop by what it leaves and what it records. -/

namespace Sys2Proof.Proofs

open Sys2Proof.Machine Sys2Proof.Claims

variable {s t : State} {cause : Cause} {k : RateClass}

/-- A row that the part takes with reset high (R182). -/
theorem whenLive_eq (live : s.pins.resetLow = false) (f : State → State) : whenLive f s = f s := if_neg (by simp [live])

/-! ### The hold timer, the retry timer and the rise of the carrier -/

theorem settleDown_measures (down : s.link.state = .down) (expired : s.link.timers.retry = .expired)
    (carrier : s.pins.carrier = true) : settleDown s = { s with link := measuring 0 s.link } :=
  if_pos ⟨down, expired, carrier⟩

theorem settleDown_stands (h : s.link.state ≠ .down ∨ s.link.timers.retry ≠ .expired ∨ s.pins.carrier = false) :
    settleDown s = s := by
  refine if_neg fun ⟨down, expired, carrier⟩ => ?_
  obtain up | running | gone := h
  · exact up down
  · exact running expired
  · exact nomatch gone.symm.trans carrier

theorem holdExpiry_held {o : Origin} {ms : Nat} (hold : s.plan.hold = .held o ms) :
    holdExpiry s = (freeHold s).raise .holdExpired (originNum o) (pendingBank s).epoch.toNat := by
  rw [holdExpiry, hold]

/-- Settles O48, by the expiry of the hold timer, and by whether DOWN measures. -/
theorem holdAndRetryTimersRunOut : Obligations.HoldAndRetryTimersRunOut := by
  refine ⟨fun s live => ⟨fun o ms hold => ?_, fun not_held => ?_⟩, fun s live => ?_⟩
  · have expired : (freeHold s).raise .holdExpired (originNum o) (pendingBank s).epoch.toNat = holdExpiry s :=
      (holdExpiry_held hold).symm
    have freed : Agree s (freeHold s) := agree_of_only (freeHold_only s) (by decide)
    refine ⟨holdExpiry s, congrArg Host.Outcome.next (whenLive_eq live holdExpiry), ?_, ?_, holdExpiry_only s⟩
    · rw [← expired]
      exact raise_only _ _ _ _ .plan (by decide)
    · rw [← expired]
      cases o <;> exact ((raise_recording _ _ _).agree freed).1
  · have nothing : holdExpiry s = s := by
      unfold holdExpiry
      split
      · exact absurd ‹_› (not_held _ _)
      · rfl
    exact congrArg Host.Outcome.next ((whenLive_eq live holdExpiry).trans nothing)
  · intro risen
    have retry {u : State} (h : retryExpiry s = u) : exec .retryTimerExpiry s = .next u :=
      congrArg Host.Outcome.next ((whenLive_eq live retryExpiry).trans h)
    have rise {u : State} (h : settleDown risen = u) : exec .carrierRise s = .next u :=
      congrArg Host.Outcome.next ((whenLive_eq (s := risen) live settleDown).trans h)
    refine ⟨fun down carrier => retry ?_, fun down gone => retry ?_, fun not_down => retry (if_neg not_down),
      fun down expired => rise (settleDown_measures down expired rfl), fun h => rise (settleDown_stands ?_)⟩
    · exact (if_pos down).trans (settleDown_measures down rfl carrier)
    · exact (if_pos down).trans (settleDown_stands (.inr (.inr gone)))
    · exact h.imp id .inl

/-! ### A loss criterion -/

/-- The row is the verdict that drops the link. -/
theorem exec_lossCriterionMet_drops (live : s.pins.resetLow = false) (supervised : supervisedState s.link.state = true)
    (met : criterionMet s.link.criteria (judged s) = some cause) :
    exec .lossCriterionMet s = .next (superviseTick s) ∧
      takeVerdict s.rx.period s =
        dropToDown cause (s.modLink fun c => { c with supervision := superviseWith s.rx.period c.supervision }) := by
  have counts := superviseWith_eq_judged (s := s) (u := s) rfl rfl
  have drops : (criterionMet s.link.criteria (superviseWith s.rx.period s.link.supervision)).isSome = true := by
    rw [counts, met]; rfl
  exact ⟨congrArg Host.Outcome.next ((whenLive_eq live lossCriterion).trans (if_pos ⟨supervised, drops⟩)),
    takeVerdict_some (by rw [counts, met])⟩

theorem exec_lossCriterionMet_stands (live : s.pins.resetLow = false)
    (h : supervisedState s.link.state = false ∨ criterionMet s.link.criteria (judged s) = none) :
    exec .lossCriterionMet s = .next s := by
  have counts := superviseWith_eq_judged (s := s) (u := s) rfl rfl
  refine congrArg Host.Outcome.next ((whenLive_eq live lossCriterion).trans (if_neg fun ⟨supervised, met⟩ => ?_))
  obtain other | unmet := h
  · exact nomatch other.symm.trans supervised
  · rw [counts, unmet] at met
    cases met

/-- Settles O47, by the first criterion that the verdict meets. -/
theorem aLossCriterionDropsTheLink : Obligations.ALossCriterionDropsTheLink := by
  classical
  intro s live drops
  have first := criterionMet_judged (s := s)
  have dropped (supervised : supervisedState s.link.state = true) {cause : Cause}
      (met : criterionMet s.link.criteria (judged s) = some cause) : drops cause := by
    obtain ⟨row, verdict⟩ := exec_lossCriterionMet_drops live supervised met
    have met_link : OnlyChanges [.link] s (s.modLink fun c =>
        { c with supervision := superviseWith s.rx.period c.supervision }) := modLink_only _ s
    obtain ⟨link, announce, relayOut, plan⟩ : Dropped cause s (takeVerdict s.rx.period s) := by
      rw [verdict]
      exact dropToDown_dropped_of cause rfl rfl
    have records : Agree (raiseAll (dropEvents cause s) s) (takeVerdict s.rx.period s) := by
      rw [verdict]
      exact dropToDown_agree_of cause rfl rfl rfl (agree_of_only met_link (by decide))
    have count : OnlyChanges [.events, .notices, .counters] (takeVerdict s.rx.period s) (superviseTick s) := by
      rw [superviseTick_eq]
      exact ite_only (bump_only _ _) (.refl _ _)
    refine ⟨superviseTick s, row, ⟨Eq.trans (count .link (by decide)) link, Eq.trans (count .announce (by decide)) announce,
      Eq.trans (count .relayOut (by decide)) relayOut, Eq.trans (count .plan (by decide)) plan⟩, superviseTick_only s,
      fun received => ?_, fun missing => ?_⟩
    · rw [superviseTick_eq, if_neg received]
      exact records.1
    · rw [superviseTick_eq, if_pos missing]
      exact ((bump_recording _).agree records).1
  refine ⟨fun state => ?_, fun not_up not_switching => exec_lossCriterionMet_stands live (.inl ?_)⟩
  · have supervised : supervisedState s.link.state = true := (supervisedState_iff _).mpr state.symm
    refine ⟨fun sync => dropped supervised ?_, fun sync beacon => dropped supervised ?_,
      fun sync beacon burst => dropped supervised ?_, fun sync beacon burst => exec_lossCriterionMet_stands live (.inr ?_)⟩
    · rw [first, if_pos sync]
    · rw [first, if_neg sync, if_pos beacon]
    · rw [first, if_neg sync, if_neg beacon, if_pos burst]
    · rw [first, if_neg sync, if_neg beacon, if_neg burst]
  · rw [← Bool.not_eq_true, supervisedState_iff]
    exact fun h => h.elim not_switching not_up

/-! ### The measurement and the two training timers -/

/-- A training failure measures again up to the fourth, which drops the link (R134). -/
theorem trainingFailure_measures (h : s.link.attempts + 1 < 4) :
    trainingFailure s = { s with link := measuring (s.link.attempts + 1) s.link } := if_pos h

theorem trainingFailure_drops (h : 4 ≤ s.link.attempts + 1) :
    trainingFailure s = dropToDown .trainingFailed { s with link := { s.link with attempts := 4 } } :=
  if_neg (Nat.not_lt.mpr h)

/-- Settles O49, by the training failure of both timers. -/
theorem trainingEndsOrFails : Obligations.TrainingEndsOrFails := by
  intro s live fails
  have measure {u : State} (h : measureExpiry s = u) : exec .measureTimerExpiry s = .next u :=
    congrArg Host.Outcome.next ((whenLive_eq live measureExpiry).trans h)
  have offer {u : State} (h : offerExpiry s = u) : exec .offerTimerExpiry s = .next u :=
    congrArg Host.Outcome.next ((whenLive_eq live offerExpiry).trans h)
  have failed {i : Instr} (h : exec i s = .next (trainingFailure s)) : fails i := by
    refine ⟨fun again => ?_, fun fourth => ⟨trainingFailure s, h, ?_, trainingFailure_only s⟩⟩
    · rw [h, trainingFailure_measures again]
    · rw [trainingFailure_drops fourth]
      exact dropToDown_drops _ _
  refine ⟨fun state => failed (measure (if_pos state)), fun state => measure (if_neg state),
    fun state => failed (offer (if_pos state)), fun state => offer (if_neg state), fun k => ⟨fun state => ?_, fun state => ?_⟩⟩
  · exact congrArg Host.Outcome.next ((whenLive_eq live (takeMeasurement k)).trans (if_pos state))
  · exact congrArg Host.Outcome.next ((whenLive_eq live (takeMeasurement k)).trans (if_neg state))

/-! ### The timers of a proposal -/

theorem isStepUp_iff (s : State) (k : RateClass) : isStepUp s k = true ↔ classNum k < classNum s.link.classInForce := by
  simp [isStepUp, worse]

/-- A proposal at an end, its timers set by the margin warning (R140, R141, R142). -/
theorem proposalToNone_eq (setStepUp : Bool) (s : State) :
    proposalToNone setStepUp s = { s with link := withdrawn s.pins.marginWarning setStepUp s.link } := by
  cases warning : s.pins.marginWarning with
  | false => exact if_neg (by simp [warning])
  | true => exact if_pos warning

theorem answerExpiry_proposing (up : s.link.state = .up) (proposing : s.link.proposal = .proposing k) :
    answerExpiry s =
      if isStepUp s k then proposalToNone true s
      else if s.link.criteria.classTimeout then dropToDown .classTimeout s
      else proposalToNone false s := by
  have is_up : isUp s = true := (isUp_iff s).mpr up
  simp [answerExpiry, proposing, is_up]

theorem answerExpiry_stands (h : s.link.state ≠ .up ∨ ∀ k, s.link.proposal ≠ .proposing k) : answerExpiry s = s := by
  unfold answerExpiry
  split
  · obtain not_up | none := h
    · exact if_pos (by simp [isUp, not_up])
    · exact absurd ‹_› (none _)
  · rfl

/-- The next worse class. -/
theorem stepDown_eq {j : RateClass} (h : classNum k = classNum j + 1) : stepDown j = some k := by
  cases j <;> cases k <;> first | rfl | exact absurd h (by decide)

/-- The next better class. -/
theorem stepUp_eq {j : RateClass} (h : classNum k + 1 = classNum j) : stepUp j = some k := by
  cases j <;> cases k <;> first | rfl | exact absurd h (by decide)

/-- The margin timer has run out, and MARGIN_LOW is raised (R140). -/
def marginLow (s : State) : State :=
  (s.modTimers fun t => { t with margin := none }).raise .marginLow (classNum s.link.classInForce)
    (classOptNum s.link.ceiling)

theorem marginLow_link (s : State) :
    (marginLow s).link = { s.link with timers := { s.link.timers with margin := none } } := raise_only _ _ _ _ .link (by decide)

/-- A proposal of the part (R142). -/
theorem propose_link (k : RateClass) (s : State) : (propose k s).link =
    { s.link with proposal := .proposing k, pendingRefusal := false,
                  timers := { s.link.timers with answer := some 200, margin := none } } := rfl

theorem marginExpiry_eq {ms : Nat} (up : s.link.state = .up) (running : s.link.timers.margin = some ms) :
    marginExpiry s = match stepDown s.link.classInForce with
      | none => marginLow s
      | some k => propose k (marginLow s) := by
  have due : isUp s = true ∧ s.link.timers.margin.isSome = true := ⟨(isUp_iff s).mpr up, by rw [running]; rfl⟩
  have cls : (marginLow s).link.classInForce = s.link.classInForce := by rw [marginLow_link]
  rw [marginExpiry, if_pos due, ← cls]
  rfl

theorem belowCeiling_iff (s : State) :
    belowCeiling s = true ↔ ∃ c, s.link.ceiling = some c ∧ classNum c < classNum s.link.classInForce := by
  unfold belowCeiling
  cases s.link.ceiling <;> simp [worse]

theorem stepUpExpiry_proposes {ms : Nat} (up : s.link.state = .up) (running : s.link.timers.stepUp = some ms)
    (below : belowCeiling s = true) (idle : s.link.proposal = .idle) (better : stepUp s.link.classInForce = some k) :
    stepUpExpiry s = propose k (s.modTimers fun t => { t with stepUp := none }) := by
  have due : isUp s = true ∧ s.link.timers.stepUp.isSome = true := ⟨(isUp_iff s).mpr up, by rw [running]; rfl⟩
  simp only [stepUpExpiry, if_pos due, better, if_pos (And.intro below idle)]

theorem stepUpExpiry_again {ms : Nat} (up : s.link.state = .up) (running : s.link.timers.stepUp = some ms)
    (h : ¬ (belowCeiling s = true ∧ s.link.proposal = .idle)) :
    stepUpExpiry s = s.modTimers fun t => { t with stepUp := some 30000 } := by
  have due : isUp s = true ∧ s.link.timers.stepUp.isSome = true := ⟨(isUp_iff s).mpr up, by rw [running]; rfl⟩
  rw [stepUpExpiry, if_pos due]
  split
  · exact if_neg h
  · rfl

/-- Settles O50, by the outcome of each expiry. -/
theorem answerMarginAndStepUpTimersRunOut : Obligations.AnswerMarginAndStepUpTimersRunOut := by
  refine ⟨fun s live => ⟨fun k up proposing => ?_, fun h => ?_⟩, fun s ms live up => ?_,
    fun s live => ⟨fun h => ?_, fun h => ?_⟩⟩
  · have answer {u : State} (h : answerExpiry s = u) : exec .answerTimerExpiry s = .next u :=
      congrArg Host.Outcome.next ((whenLive_eq live answerExpiry).trans h)
    have outcome := answerExpiry_proposing up proposing
    refine ⟨fun better => answer ?_, fun worse timeout => ⟨answerExpiry s, answer rfl, ?_, answerExpiry_only s⟩,
      fun worse no_timeout => answer ?_⟩
    · rw [outcome, if_pos ((isStepUp_iff s k).mpr better), proposalToNone_eq]
    · rw [outcome, if_neg (mt (isStepUp_iff s k).mp (Nat.not_lt.mpr worse)), if_pos timeout]
      exact dropToDown_drops _ _
    · rw [outcome, if_neg (mt (isStepUp_iff s k).mp (Nat.not_lt.mpr worse)), if_neg (by simp [no_timeout]),
        proposalToNone_eq]
  · exact congrArg Host.Outcome.next ((whenLive_eq live answerExpiry).trans (answerExpiry_stands h))
  · intro proposing
    refine ⟨fun running => ?_, fun running => ⟨fun k c ceiling below idle better => ?_, fun h => ?_⟩⟩
    · have outcome := marginExpiry_eq up running
      refine ⟨marginExpiry s, congrArg Host.Outcome.next (whenLive_eq live marginExpiry), marginExpiry_only s, ?_,
        fun lowest => ?_, fun k worse => ?_⟩
      · have raised : Raises .marginLow (classNum s.link.classInForce) (classOptNum s.link.ceiling) s (marginLow s) :=
          ((raise_recording _ _ _).agree (agree_of_only (modTimers_only _ s) (by decide))).1
        rw [outcome]
        cases stepDown s.link.classInForce <;> exact raised
      · rw [outcome, lowest]
        exact marginLow_link s
      · rw [outcome, stepDown_eq worse]
        exact (propose_link k (marginLow s)).trans (by rw [marginLow_link])
    · have is_below : belowCeiling s = true := (belowCeiling_iff s).mpr ⟨c, ceiling, below⟩
      exact congrArg Host.Outcome.next ((whenLive_eq live stepUpExpiry).trans
        (stepUpExpiry_proposes up running is_below idle (stepUp_eq better)))
    · refine congrArg Host.Outcome.next ((whenLive_eq live stepUpExpiry).trans (stepUpExpiry_again up running ?_))
      rintro ⟨below, idle⟩
      obtain ⟨c, ceiling, better⟩ := (belowCeiling_iff s).mp below
      obtain busy | none | ⟨d, known, worse⟩ := h
      · exact busy idle
      · exact nomatch none.symm.trans ceiling
      · obtain rfl := Option.some.inj (known.symm.trans ceiling)
        omega
  · refine congrArg Host.Outcome.next ((whenLive_eq live marginExpiry).trans (if_neg fun ⟨is_up, running⟩ => ?_))
    obtain not_up | stopped := h
    · exact not_up ((isUp_iff s).mp is_up)
    · rw [stopped] at running
      cases running
  · refine congrArg Host.Outcome.next ((whenLive_eq live stepUpExpiry).trans (if_neg fun ⟨is_up, running⟩ => ?_))
    obtain not_up | stopped := h
    · exact not_up ((isUp_iff s).mp is_up)
    · rw [stopped] at running
      cases running

/-! ### The carrier and the margin warning -/

/-- The rise of the margin warning in UP stops the step-up timer, and the proposal decides the rest (R140, R141). -/
theorem warningRises_up (up : s.link.state = .up) : warningRises s =
    match s.link.proposal with
    | .idle => { s with link := { s.link with timers := { s.link.timers with margin := some 100, stepUp := none } } }
    | .proposing k =>
      if isStepUp s k then proposalToNone false (s.modTimers fun t => { t with stepUp := none })
      else s.modTimers fun t => { t with stepUp := none }
    | .counting _ _ _ => s.modTimers fun t => { t with stepUp := none } :=
  if_pos ((isUp_iff s).mpr up)

theorem exec_marginWarningRise {u : State} (live : s.pins.resetLow = false) (low : s.pins.marginWarning = false)
    (h : warningRises (setWarning true s) = u) : exec .marginWarningRise s = .next u := by
  have row : exec .marginWarningRise s = .next (whenLive warningRises (setWarning true s)) := if_neg (by simp [low])
  rw [row, whenLive_eq (s := setWarning true s) live, h]

theorem exec_marginWarningFall {u : State} (live : s.pins.resetLow = false) (high : s.pins.marginWarning = true)
    (h : warningFalls (setWarning false s) = u) : exec .marginWarningFall s = .next u := by
  have row : exec .marginWarningFall s = .next (whenLive warningFalls (setWarning false s)) := if_pos high
  rw [row, whenLive_eq (s := setWarning false s) live, h]

/-- Settles O51, by the link state, and for the rise by the proposal. -/
theorem carrierAndMarginWarningMoveTheLink : Obligations.CarrierAndMarginWarningMoveTheLink := by
  refine ⟨fun s live => ?_, fun s live => ?_⟩
  · intro fallen
    have pins : OnlyChanges [.pins] s fallen := modPins_only (fun p => { p with carrier := false }) s
    have agrees : Agree s fallen := agree_of_only pins (by decide)
    have dropped : Dropped .carrier s (dropToDown .carrier fallen) := dropToDown_dropped_of .carrier rfl rfl
    have records := dropToDown_agree_of .carrier (s := s) (v := fallen) rfl rfl rfl agrees
    have only : OnlyChanges dropParts fallen (dropToDown .carrier fallen) := dropToDown_only .carrier fallen
    refine ⟨fun carrying => ⟨dropToDown .carrier fallen, exec_carrierFall live carrying, ⟨dropped, records.1⟩, only⟩,
      fun silent => ?_⟩
    exact congrArg Host.Outcome.next ((whenLive_eq (s := fallen) live carrierLost).trans
      (if_neg (mt (carriesFrames_iff _).mp silent)))
  · intro pins starts stops
    refine ⟨fun low => ⟨fun not_up => ?_, fun up => ?_, ?_⟩, fun high => ⟨if_pos high, fun not_up => ?_, fun up => ?_⟩⟩
    · exact exec_marginWarningRise live low (if_neg (mt (isUp_iff _).mp not_up))
    · have rise := warningRises_up (s := setWarning true s) up
      have proposal : (setWarning true s).link.proposal = s.link.proposal := rfl
      rw [proposal] at rise
      refine ⟨fun idle => ?_, fun k proposing better => ?_, fun k proposing worse => ?_, fun n k b counting => ?_⟩ <;>
        refine exec_marginWarningRise live low (rise.trans ?_)
      · rw [idle]
        rfl
      · have step_up : isStepUp (setWarning true s) k = true := (isStepUp_iff _ k).mpr better
        rw [proposing]
        exact (if_pos step_up).trans (proposalToNone_eq _ _)
      · have no_step_up : ¬ isStepUp (setWarning true s) k = true := mt (isStepUp_iff _ k).mp (Nat.not_lt.mpr worse)
        rw [proposing]
        exact if_neg no_step_up
      · rw [counting]
        rfl
    · exact if_neg (by simp [low])
    · exact exec_marginWarningFall live high (if_neg (mt (isUp_iff _).mp not_up))
    · exact exec_marginWarningFall live high (if_pos ((isUp_iff _).mpr up))

end Sys2Proof.Proofs

/-! # Proofs: enabling the link, and the link test (O24, O28) -/

namespace Sys2Proof.Proofs

open Sys2Proof.Machine Sys2Proof.Claims

variable {s t u : State} {tag : Byte} {m : TestMode} {n : CountMode} {k : RateClass}

/-! ### LINK_ENABLE -/

/-- The link controller and the test unit before the loss of the link that takes the link to DISABLED. -/
theorem leaveForDisabled_only (s : State) : OnlyChanges [.link, .test] s
    ((s.modLink fun c => { leaveFor .disabled c with enable := false }).modTest endTest) :=
  (modLink_only _ s).andThen (modTest_only endTest _)

theorem disableLink_lost (s : State) : LinkLost s (disableLink s) := lossOfLink_lost rfl

theorem disableLink_records (s : State) : SameRecords (raiseAll (lossEvents s) s) (disableLink s) :=
  (lossOfLink_agree rfl rfl (agree_of_only (leaveForDisabled_only s) (by decide))).1

theorem disableLink_link (s : State) :
    (disableLink s).link = { resting .disabled .stopped s.link with enable := false } := lossOfLink_only _ .link (by decide)

theorem disableLink_test (s : State) : (disableLink s).test = { s.test with mode := .off, idle := false } :=
  lossOfLink_only _ .test (by decide)

/-- LINK_ENABLE on in DISABLED (R146). -/
theorem enableLink_eq (s : State) : enableLink s =
    { s with link :=
      { (if s.pins.carrier then measuring 0 s.link else resting .down .expired s.link) with enable := true } } := by
  cases carrier : s.pins.carrier with
  | false => exact settleDown_stands (.inr (.inr carrier))
  | true => exact settleDown_measures rfl rfl carrier

/-- Settles O24, by whether the link is in DISABLED. -/
theorem linkEnableSwitchesTheLink : Obligations.LinkEnableSwitchesTheLink := by
  intro tag s ready
  have on {u : State} (h : (if s.link.state = .disabled then enableLink s else s) = u) :
      exec (.linkEnable .head tag 1) s = replies .head 17 tag .done [] u :=
    exec_taken (c := .linkEnable 1) ready (congrArg (·, some (doneWith [])) h) rfl nofun
  have off {u : State} (h : (if s.link.state = .disabled then s else disableLink s) = u) :
      exec (.linkEnable .head tag 0) s = replies .head 17 tag .done [] u :=
    exec_taken (c := .linkEnable 0) ready (congrArg (·, some (doneWith [])) h) rfl nofun
  refine ⟨fun enabled => ⟨on (if_neg enabled), _, off (if_neg enabled), ?_, disableLink_lost s, disableLink_records s,
    disableLink_link s, disableLink_test s, ?_⟩, fun disabled => ⟨off (if_pos disabled), on ?_⟩⟩
  · exact answers_answered .head 17 .done [] (disableLink_only s) (by decide)
  · exact (disableLink_only s).andThen (answered_only .head _ _)
  · rw [if_pos disabled, enableLink_eq]

/-! ### The test unit -/

/-- With reset high the idle hold is that of PATTERN_LOOP (R182). -/
theorem idleHold_of_mode (live : t.pins.resetLow = false) : idleHold t = (t.test.mode == .patternLoop) := by
  rw [idleHold, live, Bool.false_or]

theorem testModeOf_testModeNum (h : m ≠ .off) : testModeOf (byteOf (testModeNum m)).toNat = some m := by
  cases m <;> first | rfl | exact absurd rfl h

theorem countModeOf_countModeNum (n : CountMode) : countModeOf (byteOf (countModeNum n)).toNat = some n := by
  cases n <;> rfl

theorem classOf_byte (k : RateClass) : classOf (byteOf (classNum k)).toNat = some k := by cases k <;> rfl

/-- TEST_START with modes and a class that are defined. -/
theorem cmdTestStart_eq (h : m ≠ .off) (s : State) :
    cmdTestStart (byteOf (testModeNum m)) (byteOf (countModeNum n)) (byteOf (classNum k)) s =
      if s.link.state = .disabled then refused .state s
      else (if s.link.state = .test then startTest m n k s else enterTest (startTest m n k s), doneWith []) := by
  rw [cmdTestStart, testModeOf_testModeNum h, countModeOf_countModeNum, classOf_byte]
  rfl

/-! ### The entry into TEST -/

/-- LINK_DOWN, the cause and the drop count of an entry into TEST from a state that carries frames (R138, R175). -/
def testDrop (s : State) : State := if carriesFrames s.link.state then recordDrop .test s else s

theorem testDrop_only (s : State) : OnlyChanges [.link, .events, .notices, .counters] s (testDrop s) :=
  ite_only (recordDrop_only _ s) (.refl _ s)

/-- The link controller of an entry into TEST, but for the drop count. -/
theorem enterTest_link_leaves (s : State) :
    (enterTest s).link = { leaveFor .test (testDrop s).link with lastCause := .test } := lossOfLink_only _ .link (by decide)

theorem enterTest_dropCount (s : State) : (enterTest s).link.dropCount = (testDrop s).link.dropCount :=
  (congrArg LinkCtl.dropCount (enterTest_link_leaves s) :)

/-- The last cause is TEST in either case. -/
theorem enterTest_link (s : State) : (enterTest s).link =
    { resting .test .stopped s.link with lastCause := .test, dropCount := (enterTest s).link.dropCount } := by
  rw [enterTest_dropCount, enterTest_link_leaves, testDrop]
  split
  · rw [recordDrop_link]
    rfl
  · rfl

theorem enterTest_lost (h : v.plan = s.plan) : LinkLost s (enterTest v) :=
  lossOfLink_lost (Eq.trans (testDrop_only v .plan (by decide)) h)

/-- The records of an entry into TEST follow those of the drop, if there is one. -/
theorem enterTest_agree (hp : v.plan = s.plan) (hr : v.control.relayOut = s.control.relayOut) (h : Agree u (testDrop v)) :
    Agree (raiseAll (lossEvents s) u) (enterTest v) := by
  have only := testDrop_only v
  exact lossOfLink_agree (Eq.trans (only .plan (by decide)) hp) (Eq.trans (only .relayOut (by decide)) hr)
    (h.trans (agree_of_only (modLink_only _ _) (by decide)))

/-- An entry into TEST from a state that carries frames is a drop (R138). -/
theorem testDrop_carrying (h : Carrying s.link.state) : testDrop s = recordDrop .test s :=
  if_pos ((carriesFrames_iff _).mpr h)

theorem testDrop_silent (h : ¬ Carrying s.link.state) : testDrop s = s := if_neg (mt (carriesFrames_iff _).mp h)

/-! ### The statement -/

/-- A test command of the head port that is taken. -/
theorem exec_testStart (ready : Ready .head s) (h : m ≠ .off) (enabled : s.link.state ≠ .disabled)
    (hu : (if s.link.state = .test then startTest m n k s else enterTest (startTest m n k s)) = u) :
    exec (.testStart .head tag (byteOf (testModeNum m)) (byteOf (countModeNum n)) (byteOf (classNum k))) s =
      replies .head 32 tag .done [] u := by
  have effect := cmdTestStart_eq (n := n) (k := k) h s
  rw [if_neg enabled, hu] at effect
  exact exec_taken (c := .testStart _ _ _) ready (congrArg (fun x => (x.1, some x.2)) effect) rfl nofun

theorem exec_testStart_disabled (ready : Ready .head s) (h : m ≠ .off) (disabled : s.link.state = .disabled) :
    exec (.testStart .head tag (byteOf (testModeNum m)) (byteOf (countModeNum n)) (byteOf (classNum k))) s =
      replies .head 32 tag .state [] s := by
  have effect := cmdTestStart_eq (n := n) (k := k) h s
  rw [if_pos disabled] at effect
  exact exec_taken (c := .testStart _ _ _) ready (congrArg (fun x => (x.1, some x.2)) effect) rfl nofun

/-- TEST_STOP in TEST (R146, R179). -/
theorem exec_testStop (ready : Ready .head s) (h : s.link.state = .test) :
    exec (.testStop .head tag) s = replies .head 33 tag .done [] (leaveTest s) := by
  have effect : cmdTestStop s = (leaveTest s, doneWith []) := if_pos h
  exact exec_taken (c := .testStop) ready (congrArg (fun x => (x.1, some x.2)) effect) rfl nofun

theorem exec_testStop_refused (ready : Ready .head s) (h : s.link.state ≠ .test) :
    exec (.testStop .head tag) s = replies .head 33 tag .state [] s := by
  have effect : cmdTestStop s = refused .state s := if_neg h
  exact exec_taken (c := .testStop) ready (congrArg (fun x => (x.1, some x.2)) effect) rfl nofun

theorem cmdTestRead_eq (clear : Bool) (s : State) : cmdTestRead (byteOf (boolNum clear)) s =
    ({ s with test := if clear then { s.test with checked := 0, errored := 0 } else s.test }, doneWith (testData s.test)) := by
  cases clear <;> rfl

/-- The link controller and the test unit before the loss of the link that takes a test to DOWN. -/
theorem endTest_enterDown_only (s : State) : OnlyChanges [.link, .test] s (enterDown (s.modTest endTest)) :=
  (modTest_only endTest s).andThen (enterDown_only _)

theorem leaveTest_records (s : State) : SameRecords (raiseAll (lossEvents s) s) (leaveTest s) :=
  (lossOfLink_agree rfl rfl (agree_of_only (endTest_enterDown_only s) (by decide))).1

theorem leaveTest_link (s : State) : (leaveTest s).link = resting .down (.running 1000) s.link :=
  lossOfLink_only _ .link (by decide)

theorem leaveTest_test (s : State) : (leaveTest s).test = { s.test with mode := .off, idle := false } :=
  lossOfLink_only _ .test (by decide)

/-- Settles O28: TEST_START by the link state, an entry into TEST as a loss after its drop; TEST_STOP; TEST_READ. -/
theorem testCommands : Obligations.TestCommands := by
  refine ⟨fun tag m n k s ready hm => ?_, fun tag s ready => ⟨exec_testStop_refused ready, fun testing => ?_, fun clear => ?_⟩⟩
  · intro run idle loops test
    have live : s.pins.resetLow = false := ready.1
    have enters : OnlyChanges (.test :: dropParts) s (enterTest (startTest m n k s)) :=
      (modTest_only _ s).andThen (enterTest_only _) (rs := .test :: dropParts)
    have started : Agree s (startTest m n k s) := agree_of_only (modTest_only _ s) (by decide)
    have unit : (enterTest (startTest m n k s)).test = test := enterTest_only _ .test (by decide)
    have pins : (enterTest (startTest m n k s)).pins = s.pins := enters .pins (by decide)
    have link := enterTest_link (startTest m n k s)
    have count := enterTest_dropCount (startTest m n k s)
    have drop (h : Carrying s.link.state) : testDrop (startTest m n k s) = recordDrop .test (startTest m n k s) :=
      testDrop_carrying h
    have no_drop (h : ¬ Carrying s.link.state) : testDrop (startTest m n k s) = startTest m n k s := testDrop_silent h
    refine ⟨exec_testStart_disabled ready hm, fun testing => ⟨exec_testStart ready hm (by rw [testing]; decide)
      (if_pos testing), idleHold_of_mode live⟩, fun enabled not_testing => ?_⟩
    refine ⟨_, exec_testStart ready hm enabled (if_neg not_testing), ?_, unit, enterTest_lost rfl, ?_, link,
      fun carrying => ⟨count.trans ?_, ?_⟩, fun silent => ⟨count.trans ?_, ?_⟩, ?_⟩
    · exact answers_answered .head 32 .done [] enters (by decide)
    · refine (idleHold_of_mode ?_).trans (congrArg (·.mode == .patternLoop) unit)
      exact (congrArg Pins.resetLow pins).trans live
    · rw [drop carrying, recordDrop_link]
      rfl
    · refine (enterTest_agree rfl rfl ?_).1
      rw [drop carrying]
      exact recordDrop_agree .test started
    · rw [no_drop silent]
      rfl
    · refine (enterTest_agree rfl rfl ?_).1
      rw [no_drop silent]
      exact started
    · exact enters.andThen (answered_only .head _ _)
  · have pins : (leaveTest s).pins = s.pins := leaveTest_only s .pins (by decide)
    refine ⟨_, exec_testStop ready testing, ?_, lossOfLink_lost rfl, leaveTest_records s, ?_, leaveTest_test s,
      leaveTest_link s, (leaveTest_only s).andThen (answered_only .head _ _)⟩
    · exact answers_answered .head 33 .done [] (leaveTest_only s) (by decide)
    · refine (idleHold_of_mode ?_).trans (congrArg (·.mode == .patternLoop) (leaveTest_test s))
      exact (congrArg Pins.resetLow pins).trans ready.1
  · exact exec_taken (c := .testRead _) ready (congrArg (fun x => (x.1, some x.2)) (cmdTestRead_eq clear s)) rfl nofun

end Sys2Proof.Proofs

/-! # Proofs: a millisecond of the timebase (O2) -/

namespace Sys2Proof.Proofs

open Sys2Proof.Machine Sys2Proof.Claims

variable {s t u : State} {o : Origin} {ms : Nat}

/-! ### The timers that stand at 0 -/

theorem countTimers_eq_counted (s : State) : countTimers s = counted s := rfl

theorem referenceMs_eq_watched (s : State) : referenceMs s = watched s := by
  unfold referenceMs watched
  cases watch : s.refWatch with
  | armed => rfl
  | quiet => exact if_neg (by rw [watch]; decide)
  | fired => exact if_pos watch

/-- A timer: where it stands at 0, the row of its expiry, and its expiry. -/
structure TimerRow where
  out : State → Bool
  row : Instr
  expiry : State → State

/-- With reset high the row is the expiry, and the expiry changes what a drop can change. -/
structure TimerRow.Sound (r : TimerRow) : Prop where
  row_eq : ∀ v : State, v.pins.resetLow = false → after r.row v = r.expiry v
  only : ∀ v : State, OnlyChanges dropParts v (r.expiry v)

/-- The expiry of one timer where it stands at 0. -/
def TimerRow.run (r : TimerRow) (s : State) : State := if r.out s then r.expiry s else s

/-- The expiries of the timers that stand at 0, one after another. -/
def ranOut (rows : List TimerRow) (s : State) : State := rows.foldl (fun s r => r.run s) s

def holdRow : TimerRow where
  out s := s.plan.hold == .held .head 0 || s.plan.hold == .held .base 0
  row := .holdTimerExpiry
  expiry := holdExpiry

/-- The timers of the link in the model's order (log 3). -/
def linkRows : List TimerRow :=
  [{ out := fun s => s.link.timers.retry == .running 0, row := .retryTimerExpiry, expiry := retryExpiry },
   { out := fun s => s.link.timers.measure == some 0, row := .measureTimerExpiry, expiry := measureExpiry },
   { out := fun s => s.link.timers.offer == some 0, row := .offerTimerExpiry, expiry := offerExpiry },
   { out := fun s => s.link.timers.answer == some 0, row := .answerTimerExpiry, expiry := answerExpiry },
   { out := fun s => s.link.timers.margin == some 0, row := .marginTimerExpiry, expiry := marginExpiry },
   { out := fun s => s.link.timers.stepUp == some 0, row := .stepUpTimerExpiry, expiry := stepUpExpiry }]

theorem timerRows_eq : timerRows = (holdRow :: linkRows).map fun r => (r.out, r.row) := rfl

theorem holdRow_sound : holdRow.Sound where
  row_eq _ live := whenLive_eq live holdExpiry
  only v := (holdExpiry_only v).mono (by decide)

theorem linkRows_sound : ∀ r ∈ linkRows, r.Sound := by
  simp only [linkRows, List.forall_mem_cons]
  exact ⟨⟨fun _ live => whenLive_eq live retryExpiry, fun v => (retryExpiry_only v).mono (by decide)⟩,
    ⟨fun _ live => whenLive_eq live measureExpiry, measureExpiry_only⟩,
    ⟨fun _ live => whenLive_eq live offerExpiry, offerExpiry_only⟩,
    ⟨fun _ live => whenLive_eq live answerExpiry, answerExpiry_only⟩,
    ⟨fun _ live => whenLive_eq live marginExpiry, fun v => (marginExpiry_only v).mono (by decide)⟩,
    ⟨fun _ live => whenLive_eq live stepUpExpiry, fun v => (stepUpExpiry_only v).mono (by decide)⟩, nofun⟩

theorem run_only {r : TimerRow} (hr : r.Sound) (u : State) : OnlyChanges dropParts u (r.run u) :=
  ite_only (hr.only u) (.refl _ u)

theorem ranOut_only {rows : List TimerRow} (h : ∀ r ∈ rows, r.Sound) (u : State) : OnlyChanges dropParts u (ranOut rows u) := by
  induction rows generalizing u with
  | nil => exact .refl _ u
  | cons r rest ih =>
    obtain ⟨hr, hrest⟩ := List.forall_mem_cons.mp h
    exact (run_only hr u).trans (ih hrest _)

/-- Running the rows of timers at 0 is running their expiries, while reset stands high. -/
theorem expired_eq_ranOut {rows : List TimerRow} (h : ∀ r ∈ rows, r.Sound) (live : u.pins.resetLow = false) :
    expired (rows.map fun r => (r.out, r.row)) u = ranOut rows u := by
  induction rows generalizing u with
  | nil => rfl
  | cons r rest ih =>
    obtain ⟨hr, hrest⟩ := List.forall_mem_cons.mp h
    have next_live : (r.run u).pins.resetLow = false :=
      (congrArg Pins.resetLow (run_only hr u .pins (by decide))).trans live
    rw [List.map_cons, expired, hr.row_eq u live]
    exact ih hrest next_live

theorem holdIsOut_eq (h : Hold) : holdIsOut h = (h == .held .head 0 || h == .held .base 0) := by
  cases h with
  | free => rfl
  | held o ms => cases o <;> cases ms <;> rfl
  | counting o => rfl

theorem millisecond_eq (s : State) : millisecond s = watched (ranOut (holdRow :: linkRows) (counted s)) := by
  simp only [millisecond, countTimers_eq_counted, referenceMs_eq_watched, whenOut, ranOut, TimerRow.run, linkRows, holdRow,
    holdIsOut_eq, List.foldl_cons, List.foldl_nil, beq_iff_eq]

/-! ### The hold -/

/-- The plan store stands, or has met a loss of the link. -/
def LossAtMost (s t : State) : Prop := t.plan = s.plan ∨ t.plan = lostPlan s

theorem lossAtMost_of_only {ps : List Part} (h : OnlyChanges ps s t) (hp : Part.plan ∉ ps) : LossAtMost s t := .inl (h .plan hp)

theorem dropToDown_loss (cause : Cause) (h : t.plan = s.plan) : LossAtMost s (dropToDown cause t) := by
  obtain ⟨-, -, -, plan⟩ := dropToDown_dropped cause t
  exact .inr (plan.trans (lostPlan_congr h))

theorem trainingFailure_loss (s : State) : LossAtMost s (trainingFailure s) := by
  by_cases h : s.link.attempts + 1 < 4
  · rw [trainingFailure_measures h]
    exact .inl rfl
  · rw [trainingFailure_drops (Nat.not_lt.mp h)]
    exact dropToDown_loss _ rfl

theorem answerExpiry_loss (s : State) : LossAtMost s (answerExpiry s) := by
  unfold answerExpiry
  split
  · split
    · exact .inl rfl
    · split
      · exact lossAtMost_of_only (proposalToNone_only _ s) (by decide)
      · split
        · exact dropToDown_loss _ rfl
        · exact lossAtMost_of_only (proposalToNone_only _ s) (by decide)
  · exact .inl rfl

theorem linkRows_loss : ∀ r ∈ linkRows, ∀ s, LossAtMost s (r.expiry s) := by
  have training (c : Prop) [Decidable c] (s : State) : LossAtMost s (if c then trainingFailure s else s) := by
    split
    · exact trainingFailure_loss s
    · exact .inl rfl
  simp only [linkRows, List.forall_mem_cons]
  exact ⟨fun s => lossAtMost_of_only (retryExpiry_only s) (by decide), fun s => training _ s, fun s => training _ s,
    answerExpiry_loss, fun s => lossAtMost_of_only (marginExpiry_only s) (by decide),
    fun s => lossAtMost_of_only (stepUpExpiry_only s) (by decide), nofun⟩

/-- What a loss of the link keeps of the plan store, timers that lose the link at most keep. -/
theorem ranOut_plan {P : PlanStore → Prop} (hP : ∀ s, P s.plan → P (lostPlan s)) {rows : List TimerRow}
    (h : ∀ r ∈ rows, ∀ s, LossAtMost s (r.expiry s)) (hu : P u.plan) : P (ranOut rows u).plan := by
  induction rows generalizing u with
  | nil => exact hu
  | cons r rest ih =>
    obtain ⟨hr, hrest⟩ := List.forall_mem_cons.mp h
    refine ih hrest ?_
    change P (r.run u).plan
    unfold TimerRow.run
    split
    · obtain same | lost := hr u
      · rwa [same]
      · rw [lost]
        exact hP u hu
    · exact hu

/-- The hold stands with its timer, or is the base link's and has been lost with the link (R63). -/
def HeldOrLost (o : Origin) (ms : Nat) (p : PlanStore) : Prop := p.hold = .held o ms ∨ (o = .base ∧ p.hold = .free)

theorem lostPlan_free (h : s.plan.hold = .free) : (lostPlan s).hold = .free := by simp only [lostPlan, h]

theorem lostPlan_heldOrLost (h : HeldOrLost o ms s.plan) : HeldOrLost o ms (lostPlan s) := by
  obtain held | ⟨base, free⟩ := h
  · cases o with
    | head => exact .inl (by simp only [lostPlan, held])
    | base => exact .inr ⟨rfl, by simp only [lostPlan, held]⟩
  · exact .inr ⟨base, lostPlan_free free⟩

theorem watched_only (s : State) : OnlyChanges [.refWatch, .events, .notices, .counters] s (watched s) := by
  rw [← referenceMs_eq_watched]
  exact referenceMs_only s

theorem counted_hold (h : s.plan.hold = .held o ms) : (counted s).plan.hold = .held o (ms - 1) := by
  simp only [counted, h]

/-- The hold timer runs out at 0, before those of the link. -/
theorem ranOut_running (h : u.plan.hold = .held o (ms + 1)) : ranOut (holdRow :: linkRows) u = ranOut linkRows u := by
  have running : holdRow.out u = false := by simp [holdRow, h]
  rw [ranOut, List.foldl_cons, TimerRow.run, running]
  rfl

theorem ranOut_out (h : u.plan.hold = .held o 0) :
    ranOut (holdRow :: linkRows) u = ranOut linkRows (holdExpiry u) := by
  have out : holdRow.out u = true := by cases o <;> simp [holdRow, h]
  rw [ranOut, List.foldl_cons, TimerRow.run, out]
  rfl

theorem holdExpiry_free (h : u.plan.hold = .held o ms) : (holdExpiry u).plan.hold = .free := by
  have raised : (holdExpiry u).plan = (freeHold u).plan := by
    rw [holdExpiry_held h]
    exact raise_only _ _ _ _ .plan (by decide)
  rw [raised]
  rfl

theorem millisecond_plan (s : State) : (millisecond s).plan = (ranOut (holdRow :: linkRows) (counted s)).plan := by
  rw [millisecond_eq]
  exact watched_only _ .plan (by decide)

/-! ### The statement -/

theorem watched_armed (h : s.refWatch = .armed) : (watched s).refWatch = .quiet := by rw [watched, h]

theorem watched_not_armed (h : s.refWatch ≠ .armed) : (watched s).refWatch = .fired := by
  unfold watched
  split
  · exact absurd ‹_› h
  · rfl
  · assumption

/-- Settles O2, by the timers at 0 in their order, and by what a loss of the link leaves of the hold. -/
theorem idleIsAMillisecond : Obligations.IdleIsAMillisecond := by
  intro s queue_empty
  have idles : step s = .next (idle s) := by rw [step, queue_empty]
  refine ⟨fun low => idles.trans (congrArg Host.Outcome.next (if_pos low)), fun live => ?_⟩
  have passes : idle s = millisecond s := if_neg (by simp [live])
  have step_eq : step s = .next (millisecond s) := by rw [idles, passes]
  have sound : ∀ r ∈ holdRow :: linkRows, r.Sound := List.forall_mem_cons.mpr ⟨holdRow_sound, linkRows_sound⟩
  have watch : (ranOut (holdRow :: linkRows) (counted s)).refWatch = s.refWatch := ranOut_only sound _ .refWatch (by decide)
  refine ⟨?_, millisecond s, step_eq, millisecond_only s, fun o n held => ?_, fun o n last held => ?_, fun armed => ?_,
    fun not_armed => ?_⟩
  · have counted_live : (counted s).pins.resetLow = false := live
    rw [step_eq, millisecond_eq, timerRows_eq, expired_eq_ranOut sound counted_live]
  · have running : (counted s).plan.hold = .held o (n + 1) := counted_hold held
    rw [millisecond_plan, ranOut_running running]
    exact ranOut_plan (P := HeldOrLost o (n + 1)) (fun _ => lostPlan_heldOrLost) linkRows_loss (.inl running)
  · have out : (counted s).plan.hold = .held o 0 := by
      rw [counted_hold held, Nat.sub_eq_zero_of_le last]
    rw [millisecond_plan, ranOut_out out]
    exact ranOut_plan (P := fun p => p.hold = .free) (fun _ => lostPlan_free) linkRows_loss (holdExpiry_free out)
  · rw [millisecond_eq]
    exact watched_armed (watch.trans armed)
  · rw [millisecond_eq]
    exact watched_not_armed (by rwa [watch])

end Sys2Proof.Proofs

/-! # Proofs: notices join at the tail

What a reference tick records of its own joins the notice queue behind the notices that wait, and with an empty base mask no notice
joins at all (R170). So the head of the queue, which the control slot serves, is not touched. -/

namespace Sys2Proof.Proofs

open Sys2Proof.Machine Sys2Proof.Claims

variable {s t u : State} {ps : List Part} {l : LaneId} {g : GroupId}

/-- Notices have joined at the tail, and none where the base mask is empty. -/
structure NoticesJoin (s t : State) : Prop where
  mask : t.events.baseMask = s.events.baseMask
  tail : s.control.notices <+: t.control.notices
  quiet : s.events.baseMask = 0 → t.control.notices = s.control.notices

/-! ### Rules -/

theorem NoticesJoin.refl (s : State) : NoticesJoin s s := ⟨rfl, List.prefix_refl _, fun _ => rfl⟩

theorem NoticesJoin.trans (h : NoticesJoin s t) (k : NoticesJoin t u) : NoticesJoin s u where
  mask := k.mask.trans h.mask
  tail := h.tail.trans k.tail
  quiet none := (k.quiet (h.mask.trans none)).trans (h.quiet none)

theorem NoticesJoin.only (only : OnlyChanges ps s t) (hp : ∀ p ∈ [Part.events, .notices], p ∉ ps := by decide) :
    NoticesJoin s t := by
  have events : t.events = s.events := only .events (hp _ (by decide))
  have notices : t.control.notices = s.control.notices := only .notices (hp _ (by decide))
  exact ⟨by rw [events], notices ▸ List.prefix_refl _, fun _ => notices⟩

theorem NoticesJoin.ite {c : Prop} [Decidable c] {a b : State} (ha : NoticesJoin s a) (hb : NoticesJoin s b) :
    NoticesJoin s (if c then a else b) := by
  split
  · exact ha
  · exact hb

theorem NoticesJoin.each {α : Type} {f : α → State → State} (h : ∀ a s, NoticesJoin s (f a s)) (xs : List α) (s : State) :
    NoticesJoin s (State.each f xs s) := by
  induction xs generalizing s with
  | nil => exact .refl s
  | cons a rest ih => exact (h a s).trans (ih _)

/-! ### Recording -/

theorem joinHead_joins (e : EventRecord) (s : State) : NoticesJoin s (joinHead e s) := by
  have mod (f : EventUnit → EventUnit) (hf : (f s.events).baseMask = s.events.baseMask) : NoticesJoin s (s.modEvents f) :=
    ⟨hf, List.prefix_refl _, fun _ => rfl⟩
  unfold joinHead
  exact .ite (.ite (mod _ rfl) (mod _ rfl)) (.refl s)

/-- A record that is no forced notice is wanted through the base mask alone (R170). -/
theorem noticeWanted_of_quiet (e : EventRecord) (h : s.events.baseMask = 0) : noticeWanted false e s = false := by
  rw [noticeWanted, maskHolds, h]
  exact BitVec.getLsbD_zero

theorem recordWith_joins {lose : State → State} (h : ∀ s, NoticesJoin s (lose s)) (e : EventRecord) (s : State) :
    NoticesJoin s (recordWith lose false e s) := by
  have head := joinHead_joins e s
  cases wanted : noticeWanted false e (joinHead e s) with
  | false =>
    rw [recordWith, wanted]
    exact head
  | true =>
    have masked : (joinHead e s).events.baseMask ≠ 0 := fun none =>
      nomatch (noticeWanted_of_quiet e none).symm.trans wanted
    have joins : NoticesJoin (joinHead e s) (joinNotice e (joinHead e s)) :=
      ⟨rfl, List.prefix_append _ _, fun none => absurd none masked⟩
    rw [recordWith, wanted]
    exact head.trans (.ite (.ite joins (h _)) (.refl _))

theorem noticeLostPastHalf_joins (s : State) : NoticesJoin s (noticeLostPastHalf s) := .only (modCounters_only _ s)

theorem halfNoticeLost_joins (s : State) : NoticesJoin s (halfNoticeLost s) :=
  .ite ((noticeLostPastHalf_joins s).trans (recordWith_joins noticeLostPastHalf_joins _ _)) (noticeLostPastHalf_joins s)

theorem bump_joins (id : CounterId) (s : State) : NoticesJoin s (s.bump id) := by
  have counted (f : Counters → Counters) : NoticesJoin s (s.modCounters f) := .only (modCounters_only f s)
  exact .ite ((counted _).trans (recordWith_joins halfNoticeLost_joins _ _)) (counted _)

theorem raise_joins (k : EventKind) (a b : Nat) (s : State) : NoticesJoin s (s.raise k a b) :=
  recordWith_joins (bump_joins _) _ s

/-! ### Release and evaluation -/

theorem countCut_joins (l : LaneId) (q : List LineRecord) (s : State) : NoticesJoin s (countCut l q s) :=
  .ite (bump_joins _ s) (.refl s)

theorem discardReleased_joins (l : LaneId) (s : State) : NoticesJoin s (discardReleased l s) := by
  rw [discardReleased_eq]
  exact ((NoticesJoin.only (modLane_only l _ s)).trans (.only (addFree_only _ _))).trans (countCut_joins _ _ _)

theorem releaseOldest_joins (mark : Option GroupMark) (l : LaneId) (s : State) :
    NoticesJoin s (releaseOldest mark l s) := by
  obtain ⟨-, h⟩ | ⟨before, r, after, -, -, -, ⟨-, h⟩ | ⟨c, -, h⟩⟩ := releaseOldest_cases mark l s
  · rw [h]; exact .refl s
  · rw [h]; exact .only (modLane_only l _ s)
  · rw [h]
    exact ((NoticesJoin.only (modLane_only l _ s)).trans (.only (addFree_only _ _))).trans (bump_joins _ _)

theorem releaseMany_joins (mark : Option GroupMark) (l : LaneId) (n : Nat) (s : State) :
    NoticesJoin s (releaseMany mark l n s) := by
  induction n generalizing s with
  | zero => exact .refl s
  | succ n ih => exact (releaseOldest_joins mark l s).trans (ih _)

theorem setStanding_raise_joins (l : LaneId) (v : Option Standing) (k : EventKind) (a b : Nat) (s : State) :
    NoticesJoin s ((s.setStanding l v).raise k a b) :=
  (NoticesJoin.only (setStanding_only l v s)).trans (raise_joins k a b _)

theorem evaluatePass_joins {c : Position} (h : evaluatePass g c s = some t) : NoticesJoin s t := by
  have cursor (f : Group → Group) (u : State) : NoticesJoin u (u.modGroup g f) := .only (modGroup_only g f u)
  unfold evaluatePass at h
  dsimp only at h
  split at h
  · cases h; exact releaseOldest_joins _ _ s
  · split at h
    · split at h
      · split at h
        · cases h
        · cases h; exact cursor _ s
      · cases h
        exact ((NoticesJoin.each (releaseOldest_joins _) _ s).trans
          (.each (fun l => setStanding_raise_joins l _ _ _ _) _ _)).trans (cursor _ _)
    · split at h
      · cases h; exact .each (fun l => setStanding_raise_joins l _ _ _ _) _ s
      · cases h

theorem evaluateLoop_joins (g : GroupId) (n : Nat) (s : State) : NoticesJoin s (evaluateLoop g n s) := by
  induction n generalizing s with
  | zero => exact .refl s
  | succ n ih =>
    unfold evaluateLoop
    split
    · exact .refl s
    · split
      · exact .refl s
      · exact (evaluatePass_joins ‹_›).trans (ih _)

theorem evaluate_joins (g : GroupId) (s : State) : NoticesJoin s (evaluate g s) := by
  have cursor (f : Group → Group) : NoticesJoin s (s.modGroup g f) := .only (modGroup_only g f s)
  unfold evaluate
  dsimp only
  split
  · split
    · exact evaluateLoop_joins g _ s
    · split
      · exact .refl s
      · exact (cursor _).trans (evaluateLoop_joins g _ _)
  · exact (cursor _).trans (.each (fun l s => releaseMany_joins _ l _ s) _ _)

/-! ### A lane that falls silent -/

theorem noteTile_joins (l : LaneId) (x : Tile) (s : State) : NoticesJoin s (noteTile l x s) :=
  .ite (bump_joins _ s) (.ite (bump_joins _ s) (.refl s))

theorem appendTile_joins (l : LaneId) (x : Tile) (s : State) : NoticesJoin s (appendTile l x s) :=
  ((NoticesJoin.only (modLane_only l _ s)).trans (.only (takeFree_only 1 _))).trans (noteTile_joins l x _)

theorem dropLine_joins (l : LaneId) (s : State) : NoticesJoin s (dropLine l s) := by
  unfold dropLine
  split
  · exact .refl s
  · exact ((NoticesJoin.only (modLane_only l _ s)).trans (.only (addFree_only _ _))).trans (bump_joins _ _)

theorem placeTiles_joins (l : LaneId) (xs : List Tile) (s : State) : NoticesJoin s (placeTiles l xs s).1 := by
  induction xs generalizing s with
  | nil => exact .refl s
  | cons x xs ih =>
    unfold placeTiles
    split
    · exact (appendTile_joins l x s).trans (ih _)
    · exact dropLine_joins l s

theorem closeTruncated_joins (l : LaneId) (n : Nat) (s : State) : NoticesJoin s (closeTruncated l n s).1 := by
  have placed := placeTiles_joins l (Machine.fillTiles n (tilesPerLine (s.lane l).desc)) s
  unfold closeTruncated
  split
  · rename_i h; rw [h] at placed; exact placed.trans (.only (completeLine_only _ _ _))
  · rename_i h; rw [h] at placed; exact placed

theorem faultHandedOver_joins (kept : Bool) (l : LaneId) (s : State) : NoticesJoin s (faultHandedOver kept l s) := by
  unfold faultHandedOver
  split
  · exact evaluate_joins _ s
  · exact .ite (releaseOldest_joins none l s) (.refl s)

theorem faultLane_joins (d : Nat) (l : LaneId) (s : State) : NoticesJoin s (faultLane d l s) := by
  have down : NoticesJoin s (fallen l s) :=
    (NoticesJoin.only (modLane_only l (fun x => { x with state := .faulted }) s)).trans (.only (lagQuietly_only l _))
  have raised (v : State) : NoticesJoin v (faultRaised d l v) :=
    (NoticesJoin.only (modLane_only l
      (fun x => { x with assembly := .betweenLines, dropMark := none, recovery := true }) v)).trans (raise_joins _ _ _ _)
  cases opened : (s.lane l).assembly with
  | betweenLines =>
    rw [faultLane_between opened]
    exact (down.trans (raised _)).trans (faultHandedOver_joins _ _ _)
  | assembling p n =>
    rw [faultLane_closes opened]
    exact ((down.trans (closeTruncated_joins l n _)).trans (raised _)).trans (faultHandedOver_joins _ _ _)

theorem silenceTick_joins (l : LaneId) (s : State) : NoticesJoin s (silenceTick l s) := by
  have silent (f : Lane → Lane) : NoticesJoin s (s.modLane l f) := .only (modLane_only l f s)
  obtain ⟨-, h⟩ | ⟨-, -, h⟩ | ⟨-, -, h⟩ := silenceTick_cases l s
  · rw [h]; exact .refl s
  · rw [h]; exact silent _
  · rw [h]; exact (silent _).trans (faultLane_joins 2 l _)

/-! ### The assessment, the class change and the echo watch -/

theorem raiseAll_joins (es : List (EventKind × Nat × Nat)) (s : State) : NoticesJoin s (raiseAll es s) := by
  induction es generalizing s with
  | nil => exact .refl s
  | cons e es ih => exact (raise_joins _ _ _ s).trans (ih _)

theorem assess_joins (s : State) : NoticesJoin s (assess s) := by
  rw [assess_eq]
  exact ((NoticesJoin.only (modBuilder_only _ s)).trans (.each discardReleased_joins _ _)).trans (raiseAll_joins _ _)

theorem applyDueClass_joins (s : State) : NoticesJoin s (applyDueClass s) := by
  unfold applyDueClass
  split
  · exact ((NoticesJoin.only (modLink_only _ s)).trans (raise_joins _ _ _ _)).trans (.only (proposalToNone_only _ _))
  · exact .refl s

theorem prepareUp_joins (switched : Bool) (s : State) : NoticesJoin s (prepareUp switched s) := by
  have applied : NoticesJoin s ((applyDueClass s).modBuilder fun b =>
      { b with classApplied := (applyDueClass s).link.classInForce }) :=
    (applyDueClass_joins s).trans (.only (modBuilder_only _ _))
  unfold prepareUp
  exact (NoticesJoin.ite (applied.trans (assess_joins _)) applied).trans (.only (modBuilder_only _ _))

theorem echoExpire_joins (repeats : Nat) (last : Option Byte) (s : State) : NoticesJoin s (echoExpire repeats last s) := by
  have announced : NoticesJoin s (announceInForce s) := .only (announceInForce_only s)
  unfold echoExpire
  exact (NoticesJoin.ite ((announced.trans (.only (modPlan_only _ _))).trans (raise_joins _ _ _ _)) announced).trans
    (.only (modPlan_only _ _))

theorem echoTick_joins (s : State) : NoticesJoin s (echoTick s) := by
  unfold echoTick
  split
  · exact .refl s
  · exact .ite (echoExpire_joins _ _ s) (.only (modPlan_only _ s))

theorem enterUp_joins (s : State) : NoticesJoin s (enterUp s) := by
  unfold enterUp
  exact ((((NoticesJoin.only (modLink_only _ s)).trans (.only (modBuilder_only _ _))).trans (raise_joins _ _ _ _)).trans
    (.only (announceInForce_only _))).trans (.only (startEcho_only _))

theorem trainTick_joins (s : State) : NoticesJoin s (trainTick s) := .ite (enterUp_joins s) (.only (modLink_only _ s))

/-! ### The verdict and the tick -/

theorem planLoss_joins (s : State) : NoticesJoin s (planLoss s) := by
  have freed (v : State) : NoticesJoin v (freeHold v) := .only (freeHold_only v)
  have cleared : NoticesJoin s (clearCountdown s) := .only (clearCountdown_only s)
  unfold planLoss
  split
  · exact .refl s
  · exact .refl s
  · exact (freed s).trans (raise_joins _ _ _ _)
  · split
    · split
      · exact (cleared.trans (.only (modPlan_only _ _))).trans (raise_joins _ _ _ _)
      · exact ((cleared.trans (freed _)).trans (raise_joins _ _ _ _)).trans (raise_joins _ _ _ _)
    · exact .refl s

theorem discardRelayOut_joins (s : State) : NoticesJoin s (discardRelayOut s) :=
  .ite (.refl s) ((NoticesJoin.only (emptyRelayOut_only s)).trans (raise_joins _ _ _ _))

theorem lossOfLink_joins (s : State) : NoticesJoin s (lossOfLink s) := by
  unfold lossOfLink
  exact ((((planLoss_joins s).trans (.only (noteLoss_only _))).trans (.only (emptyAnnounce_only _))).trans
    (.only (stopEcho_only _))).trans (discardRelayOut_joins _)

theorem dropToDown_joins (cause : Cause) (s : State) : NoticesJoin s (dropToDown cause s) :=
  (((NoticesJoin.only (modLink_only _ s)).trans (raise_joins _ _ _ _)).trans (.only (enterDown_only _))).trans
    (lossOfLink_joins _)

theorem takeVerdict_joins (p : Period) (s : State) : NoticesJoin s (takeVerdict p s) := by
  have counted (f : LinkCtl → LinkCtl) : NoticesJoin s (s.modLink f) := .only (modLink_only f s)
  unfold takeVerdict
  dsimp only
  split
  · exact counted _
  · exact (counted _).trans (dropToDown_joins _ _)

theorem superviseTick_joins (s : State) : NoticesJoin s (superviseTick s) :=
  .ite ((takeVerdict_joins _ s).trans (bump_joins _ _)) (takeVerdict_joins _ s)

/-- After its frame event a tick adds notices at the tail alone. -/
theorem referenceTick_joins (s : State) : NoticesJoin (tickFramed s) (referenceTick s) := by
  have judged : NoticesJoin (tickFramed s) (tickJudged s) := .ite (superviseTick_joins _) (.refl _)
  rw [referenceTick_eq]
  exact ((judged.trans (.each silenceTick_joins _ _)).trans (.only (tallyTick_only _))).trans (.only (tickEnded_only _))

end Sys2Proof.Proofs

/-! # Proofs: the control cell of a frame

The control slot serves the heads of four queues (R122). A frame event can add notices at the tail before the cell is chosen, and
changes nothing else that a cell is built from; so the cell, and what leaves, are those of the queues as the event finds them. -/

namespace Sys2Proof.Proofs

open Sys2Proof.Machine Sys2Proof.Claims

variable {s t u v w : State} {f : Frame}

/-! ### What a cell is chosen and built from -/

/-- Two states have the same cells waiting, but for notices that have joined, and build them alike. -/
structure SameCells (s t : State) : Prop where
  announce : t.control.announce = s.control.announce
  responses : t.control.responses = s.control.responses
  relayOut : t.control.relayOut = s.control.relayOut
  notices : NoticesJoin s t
  plan : t.plan = s.plan
  frameCount : t.builder.frameCount = s.builder.frameCount
  descs : SameDescs s t

theorem SameCells.refl (s : State) : SameCells s s := ⟨rfl, rfl, rfl, .refl s, rfl, rfl, fun _ => rfl⟩

theorem SameCells.announceCellOf (h : SameCells s t) (c : AnnounceCell) : announceCellOf t c = announceCellOf s c := by
  have active : activeBank t = activeBank s := activeBank_congr (by rw [h.plan]) (by rw [h.plan])
  have pending : pendingBank t = pendingBank s := by rw [pendingBank, pendingBank, h.plan]
  have lanes : laneBytes t = laneBytes s := funext fun l => by rw [laneBytes, laneBytes, h.descs l]
  simp only [Machine.announceCellOf, active, pending, lanes, h.plan, h.frameCount]

/-! ### The choice by the first queue that is not empty -/

section
variable {c : AnnounceCell} {cs : List AnnounceCell} {r : Response} {rs : List Response} {m : RelayMessage}
  {ms : List RelayMessage} {e : EventRecord} {es : List EventRecord}

theorem chooseCell_announce (h : s.control.announce = c :: cs) :
    chooseCell s = (announceCellOf s c, s.modControl fun q => { q with announce := cs }) := by
  rw [chooseCell, h]

theorem chooseCell_response (ha : s.control.announce = []) (h : s.control.responses = r :: rs) :
    chooseCell s = (responseCellOf r, s.modControl fun q => { q with responses := rs }) := by
  rw [chooseCell, ha, h]

theorem chooseCell_relay (ha : s.control.announce = []) (hr : s.control.responses = [])
    (h : s.control.relayOut = m :: ms) :
    chooseCell s = (relayCellOf m, s.modControl fun q => { q with relayOut := ms }) := by
  rw [chooseCell, ha, hr, h]

theorem chooseCell_notice (ha : s.control.announce = []) (hr : s.control.responses = [])
    (hm : s.control.relayOut = []) (h : s.control.notices = e :: es) :
    chooseCell s = (noticeCellOf e, s.modControl fun q => { q with notices := es }) := by
  rw [chooseCell, ha, hr, hm, h]

theorem chooseCell_idle (ha : s.control.announce = []) (hr : s.control.responses = [])
    (hm : s.control.relayOut = []) (hn : s.control.notices = []) : chooseCell s = (idleCell, s) := by
  rw [chooseCell, ha, hr, hm, hn]

end

/-- The same cells wait in two control units, but for notices that have joined the second. -/
structure QueuesAlike (p q : ControlQueues) : Prop where
  announce : q.announce = p.announce
  responses : q.responses = p.responses
  relayOut : q.relayOut = p.relayOut
  notices : p.notices <+: q.notices

theorem SameCells.queues (h : SameCells s t) : QueuesAlike s.control t.control :=
  ⟨h.announce, h.responses, h.relayOut, h.notices.tail⟩

/-- The same cell is chosen where one waits, and the same cells are left (R122). -/
theorem SameCells.choice (h : SameCells s t) : (CellWaits s → (chooseCell t).1 = (chooseCell s).1) ∧
    QueuesAlike (chooseCell s).2.control (chooseCell t).2.control := by
  obtain ⟨announce, responses, relayOut, notices⟩ := h.queues
  cases ha : s.control.announce with
  | cons c cs =>
    rw [chooseCell_announce ha, chooseCell_announce (announce.trans ha)]
    exact ⟨fun _ => h.announceCellOf c, rfl, responses, relayOut, notices⟩
  | nil =>
    have ha' := announce.trans ha
    cases hr : s.control.responses with
    | cons r rs =>
      rw [chooseCell_response ha hr, chooseCell_response ha' (responses.trans hr)]
      exact ⟨fun _ => rfl, announce, rfl, relayOut, notices⟩
    | nil =>
      have hr' := responses.trans hr
      cases hm : s.control.relayOut with
      | cons m ms =>
        rw [chooseCell_relay ha hr hm, chooseCell_relay ha' hr' (relayOut.trans hm)]
        exact ⟨fun _ => rfl, announce, responses, rfl, notices⟩
      | nil =>
        have hm' := relayOut.trans hm
        cases hn : s.control.notices with
        | cons e es =>
          obtain ⟨new, hn'⟩ := notices
          rw [hn] at hn'
          rw [chooseCell_notice ha hr hm hn, chooseCell_notice ha' hr' hm' hn'.symm]
          exact ⟨fun _ => rfl, announce, responses, relayOut, List.prefix_append es new⟩
        | nil =>
          rw [chooseCell_idle ha hr hm hn]
          refine ⟨fun waits => absurd waits (by simp [CellWaits, ha, hr, hm, hn]), ?_⟩
          cases hn' : t.control.notices with
          | nil =>
            rw [chooseCell_idle ha' hr' hm' hn']
            exact ⟨announce, responses, relayOut, notices⟩
          | cons e es =>
            rw [chooseCell_notice ha' hr' hm' hn']
            exact ⟨announce, responses, relayOut, hn ▸ List.nil_prefix⟩

/-- With nothing waiting and no notice let through, the cell is IDLE. -/
theorem SameCells.idle (h : SameCells s t) (empty : ¬ CellWaits s) (quiet : s.events.baseMask = 0) :
    (chooseCell t).1 = idleCell := by
  obtain ⟨ha, hr, hm, hn⟩ : s.control.announce = [] ∧ s.control.responses = [] ∧ s.control.relayOut = [] ∧
      s.control.notices = [] := by simpa [CellWaits] using empty
  rw [chooseCell_idle (h.announce.trans ha) (h.responses.trans hr) (h.relayOut.trans hm)
    ((h.notices.quiet quiet).trans hn)]

/-! ### In the words of the statements -/

/-- The cell of a frame, chosen in a state with the same cells as the event found (R122). -/
theorem carriesCell_of (alike : s.plan.due = none → SameCells (atFrame s) w) (cell : f.control = (chooseCell w).1) :
    CarriesCell s f := fun due =>
  ⟨fun waits => cell.trans ((alike due).choice.1 waits), fun empty quiet => cell.trans ((alike due).idle empty quiet)⟩

end Sys2Proof.Proofs

/-! # Proofs: a frame within its tick

What the frames of every link state have in common (O41 to O43): the switch that is due is taken first, the header and the control
cell are read from the state that it leaves, and the plan countdown falls with the hand-over (R83, R98, R99, R116, R122). Then what
the rest of the tick leaves of it (R136, R138). -/

namespace Sys2Proof.Proofs

open Sys2Proof.Machine Sys2Proof.Claims

variable {s t u w : State} {f : Frame}

/-! ### The switch that is due -/

/-- The state in which a frame is built: the frame counted, the switch that is due taken (R81, R83). -/
def frameBegun (s : State) : State := takeSwitch (atFrame s)

theorem frameBegun_only (s : State) : OnlyChanges switchParts (atFrame s) (frameBegun s) := takeSwitch_only _

theorem frameBegun_link (s : State) : (frameBegun s).link = s.link := frameBegun_only s .link (by decide)

theorem frameBegun_of_not_due (h : s.plan.due = none) : frameBegun s = atFrame s := takeSwitch_none h

theorem frameBegun_sameCells (h : s.plan.due = none) : SameCells (atFrame s) (frameBegun s) := by
  rw [frameBegun_of_not_due h]
  exact .refl _

/-- The plan store after a switch. -/
theorem frameBegun_plan_due {d : Due} (due : s.plan.due = some d) :
    (frameBegun s).plan = planSwitched (isUp s) { s.plan with lossTaken := false } := takeSwitch_plan (s := atFrame s) due

theorem frameBegun_due (s : State) : (frameBegun s).plan.due = none := by
  cases due : s.plan.due with
  | none => rw [frameBegun_of_not_due due]; exact due
  | some d => rw [frameBegun_plan_due due]; rfl

theorem frameBegun_countdown (s : State) : (frameBegun s).plan.countdown = s.plan.countdown := by
  cases due : s.plan.due with
  | none => rw [frameBegun_of_not_due due]; rfl
  | some d => rw [frameBegun_plan_due due]; exact banksSwitched_countdown _

theorem frameBegun_activeBank_due {d : Due} (due : s.plan.due = some d) :
    activeBank (frameBegun s) = { pendingBank s with role := .active } :=
  activeBank_planSwitched (s := atFrame s) (frameBegun_plan_due due)

/-- A switch leaves the builder but for the runtimes. -/
theorem frameBegun_builder (s : State) : (frameBegun s).builder =
    { s.builder with frameCount := s.builder.frameCount + 1, runtimes := (frameBegun s).builder.runtimes } := by
  cases due : s.plan.due with
  | none => rw [frameBegun_of_not_due due]; rfl
  | some d =>
    have switched : (frameBegun s).builder = (switchSettled (atFrame s)).builder := takeSwitch_builder due
    rw [switched]
    rfl

theorem planLaw_atFrame (law : PlanLaw s.plan) : PlanLaw (atFrame s).plan := law

theorem frameBegun_planLaw (law : PlanLaw s.plan) : PlanLaw (frameBegun s).plan := takeSwitch_planLaw (planLaw_atFrame law)

theorem frameBegun_aligned (law : BuilderLaw s) : Aligned (frameBegun s) := takeSwitch_aligned (s := atFrame s) law

/-! ### The header -/

/-- The carry vector has 24 places: the states of the entries in plan order, then none (R99). -/
theorem carryVector_eq (aligned : Aligned s) (short : (activeBank s).entries.length ≤ 24) :
    carryVector s = (List.range 24).map fun i => (s.builder.runtimes[i]?).map fun r => r.carry := by
  have whole : s.builder.runtimes.take (activeBank s).entries.length = s.builder.runtimes :=
    List.take_of_length_le (Nat.le_of_eq aligned.symm)
  have within : s.builder.runtimes.length ≤ 24 := aligned ▸ short
  rw [carryVector, whole]
  refine List.ext_getElem? fun i => ?_
  by_cases named : i < s.builder.runtimes.length
  · have place : i < 24 := by omega
    simp [List.getElem?_append_left, named, place]
  · by_cases place : i < 24
    · have beyond : i - s.builder.runtimes.length < 24 - s.builder.runtimes.length := by omega
      rw [List.getElem?_append_right (by simpa using named)]
      simp [named, place, beyond]
    · simp [place]
      omega

/-- The header fields that every frame takes in the same way, read in a state with the plan store of the frame. -/
theorem commonHeader_of (plan : w.plan = (frameBegun s).plan) (overcommit : t.builder.overcommit = w.builder.overcommit)
    (runtimes : t.builder.runtimes = w.builder.runtimes) (aligned : BuilderLaw s → Aligned w)
    (header : f.header = { headerOf w f.header.cls with
      classCountdown := f.header.classCountdown, classField := f.header.classField, training := f.header.training,
      test := f.header.test }) : CommonHeader s t f := by
  have active : activeBank w = activeBank (frameBegun s) := activeBank_congr (by rw [plan]) (by rw [plan])
  have countdown : w.plan.countdown = s.plan.countdown := by rw [plan, frameBegun_countdown]
  rw [CommonHeader, header]
  refine ⟨countdown, fun h => ?_, ?_, overcommit.symm, fun planLaw builderLaw => ?_⟩
  · change (if w.plan.countdown = 0 then none else some (pendingBank w).epoch) = _
    rw [countdown]
    by_cases still : s.plan.countdown = 0
    · rw [if_pos still, if_pos still]
    · have due : s.plan.due = none := h.resolve_right still
      have pending : pendingBank w = pendingBank s := by
        rw [pendingBank, plan, frameBegun_of_not_due due]; rfl
      rw [pending]
  · change (activeBank w).epoch = _
    rw [active]
    cases due : s.plan.due with
    | none => rw [frameBegun_of_not_due due]; rfl
    | some d => rw [frameBegun_activeBank_due due]
  · change carryVector w = _
    rw [runtimes]
    refine carryVector_eq (aligned builderLaw) ?_
    rw [active]
    exact ((planLaw_iff _).mp (frameBegun_planLaw planLaw)).1.1

/-! ### The countdown -/

/-- The hand-over of a frame counts the plan countdown down, to the switch at its end (R116). -/
theorem countdownTick_plan (s : State) : (countdownTick s).plan = { s.plan with
    countdown := s.plan.countdown - 1, due := if s.plan.countdown = 1 then some .counted else s.plan.due } := by
  unfold countdownTick
  by_cases zero : s.plan.countdown = 0
  · have still : { s.plan with countdown := 0 } = s.plan := by rw [← zero]
    simp [zero, still]
  · by_cases one : s.plan.countdown = 1
    · simp [one]
    · simp [zero, one]

/-! ### The frame event by the state of the link -/

/-- The frame period that a tick begins, with no loss of the link noted yet (log 10). -/
def periodBegun (s : State) : State := s.modPlan fun p => { p with lossTaken := false }

theorem tickFramed_eq (s : State) : tickFramed s = frameEvent (periodBegun s) := rfl

/-- A frame event that builds a frame counts it first (R81). -/
theorem countFrame_builds (h : buildsFrame s.link.state = true) : countFrame (periodBegun s) = atFrame s := if_pos h

theorem switch_periodBegun_link (s : State) : (takeSwitch (countFrame (periodBegun s))).link = s.link :=
  takeSwitch_countFrame_link (periodBegun s)

theorem tickFramed_up (h : s.link.state = .up) :
    tickFramed s = carriageFrame s.plan.due.isSome (frameBegun s) := by
  rw [frameBegun, ← countFrame_builds (by rw [h]; rfl)]
  exact frameEvent_up (s := periodBegun s) h

theorem tickFramed_training (h : s.link.state = .measure ∨ s.link.state = .offer ∨ s.link.state = .trainSwitch) :
    tickFramed s = trainingFrame (frameBegun s) := by
  obtain h | h | h := h <;>
  · rw [frameBegun, ← countFrame_builds (by rw [h]; rfl)]
    simp only [tickFramed_eq, frameEvent, switch_periodBegun_link, h]

theorem tickFramed_test (h : s.link.state = .test) : tickFramed s = testFrame (frameBegun s) := by
  rw [frameBegun, ← countFrame_builds (by rw [h]; rfl)]
  simp only [tickFramed_eq, frameEvent, switch_periodBegun_link, h]

/-- In DOWN and DISABLED a frame event takes the switch that is due, and no more (R80, R118). -/
theorem tickFramed_idle (h : s.link.state = .down ∨ s.link.state = .disabled) :
    tickFramed s = takeSwitch (periodBegun s) := by
  have uncounted : countFrame (periodBegun s) = periodBegun s :=
    if_neg (by rw [periodBegun, modPlan_link]; obtain h | h := h <;> simp [h, buildsFrame])
  rw [← uncounted]
  obtain h | h := h <;> simp only [tickFramed_eq, frameEvent, switch_periodBegun_link, h]

/-! ### The rest of the tick -/

theorem exec_referenceTick (live : s.pins.resetLow = false) : exec .referenceTick s = .next (referenceTick s) :=
  congrArg Host.Outcome.next (whenLive_eq live referenceTick)

/-- What a tick can change after its frame event. -/
abbrev verdictParts : List Part :=
  [.rx, .refWatch, .tally, .link, .plan, .announce, .relayOut, .lanes, .poolFree, .release, .events, .notices, .counters]

theorem referenceTick_only_framed (s : State) : OnlyChanges verdictParts (tickFramed s) (referenceTick s) :=
  (tickJudged_only s).andThen (referenceTick_only_judged s)

/-- The period begins anew, and the class expected of the next frame stands (R149, R161). -/
theorem referenceTick_rx (s : State) : (referenceTick s).rx = { (tickFramed s).rx with period := .empty, upValid := false } := by
  have rx : (tallyTick (tickSilenced s)).rx = (tickFramed s).rx :=
    Eq.trans (tallyTick_only _ .rx (by decide))
      (Eq.trans (tickSilenced_only s .rx (by decide)) (tickJudged_only s .rx (by decide)))
  rw [← rx]
  rfl

theorem referenceTick_refWatch (s : State) : (referenceTick s).refWatch = .armed := rfl

/-- The rest of the tick leaves the link but for the supervision, the plan store and the queues as the frame event left them. -/
structure FrameStands (s t : State) : Prop where
  link : t.link = { s.link with supervision := t.link.supervision }
  plan : t.plan = s.plan
  announce : t.control.announce = s.control.announce
  relayOut : t.control.relayOut = s.control.relayOut

theorem FrameStands.state (h : FrameStands s t) : t.link.state = s.link.state := by rw [h.link]

/-- The verdict drops the link; the active plan stands (R126, R138). -/
structure FrameDrops (s t : State) : Prop where
  state : t.link.state = .down
  active : activeBank t = activeBank s

/-- A loss of the link leaves both banks, or empties the one that is not active (R63, R126). -/
theorem lostPlan_banks (s : State) :
    ((lostPlan s).bank0 = s.plan.bank0 ∧ (lostPlan s).bank1 = s.plan.bank1) ∨
    ((lostPlan s).bank0 = (bankSet s.plan (otherId s.plan) .emptied).bank0 ∧
      (lostPlan s).bank1 = (bankSet s.plan (otherId s.plan) .emptied).bank1) := by
  unfold lostPlan
  split
  · exact .inl ⟨rfl, rfl⟩
  · exact .inl ⟨rfl, rfl⟩
  · right; cases otherId s.plan <;> exact ⟨rfl, rfl⟩
  · split <;> exact .inl ⟨rfl, rfl⟩
  · split
    · right; cases otherId s.plan <;> exact ⟨rfl, rfl⟩
    · exact .inl ⟨rfl, rfl⟩

theorem activeBank_lostPlan (h : t.plan = lostPlan s) : activeBank t = activeBank s := by
  have emptied := bankGet_withOther_active (p := s.plan) (b := .emptied) (h := .free) (c := 0) (d := none) (nomatch ·)
  obtain ⟨bank0, bank1⟩ | ⟨bank0, bank1⟩ := lostPlan_banks s
  · exact activeBank_congr (by rw [h, bank0]) (by rw [h, bank1])
  · refine Eq.trans (activeBank_congr (s := { s with plan := withOther s.plan .emptied .free 0 none }) ?_ ?_) emptied
    · rw [h, bank0]; rfl
    · rw [h, bank1]; rfl

/-- The verdict drops the link or leaves it (R136). -/
theorem takeVerdict_stands_or_drops (u : State) :
    FrameStands u (takeVerdict u.rx.period u) ∨ FrameDrops u (takeVerdict u.rx.period u) := by
  cases met : criterionMet u.link.criteria (superviseWith u.rx.period u.link.supervision) with
  | none => rw [takeVerdict_none met]; exact .inl ⟨rfl, rfl, rfl, rfl⟩
  | some cause =>
    rw [takeVerdict_some met]
    obtain ⟨link, -, -, plan⟩ := dropToDown_dropped cause (u.modLink fun c =>
      { c with supervision := superviseWith u.rx.period c.supervision })
    exact .inr ⟨by rw [link]; rfl, activeBank_lostPlan plan⟩

/-- A step that leaves the link, the plan store and these two queues keeps what stands and what is dropped. -/
theorem FrameStands.only {ps : List Part} (h : FrameStands s t) (only : OnlyChanges ps t u)
    (hp : ∀ p ∈ [Part.link, .plan, .announce, .relayOut], p ∉ ps := by decide) : FrameStands s u := by
  have link : u.link = t.link := only .link (hp _ (by decide))
  exact ⟨by rw [link]; exact h.link, Eq.trans (only .plan (hp _ (by decide))) h.plan,
    Eq.trans (only .announce (hp _ (by decide))) h.announce, Eq.trans (only .relayOut (hp _ (by decide))) h.relayOut⟩

theorem FrameDrops.only {ps : List Part} (h : FrameDrops s t) (only : OnlyChanges ps t u)
    (hp : ∀ p ∈ [Part.link, .plan], p ∉ ps := by decide) : FrameDrops s u := by
  have link : u.link = t.link := only .link (hp _ (by decide))
  have plan : u.plan = t.plan := only .plan (hp _ (by decide))
  exact ⟨by rw [link, h.state], (activeBank_congr (by rw [plan]) (by rw [plan])).trans h.active⟩

theorem referenceTick_unsupervised (h : supervisedState s.link.state = false) :
    OnlyChanges (.rx :: .refWatch :: .tally :: evaluationParts) (tickFramed s) (referenceTick s) := by
  have judged : tickJudged s = tickFramed s := if_neg (by simp [h])
  rw [← judged]
  exact referenceTick_only_judged s

theorem referenceTick_stands (h : supervisedState s.link.state = false) : FrameStands (tickFramed s) (referenceTick s) :=
  FrameStands.only ⟨rfl, rfl, rfl, rfl⟩ (referenceTick_unsupervised h)

theorem referenceTick_stands_or_drops (h : supervisedState s.link.state = true) :
    FrameStands (tickFramed s) (referenceTick s) ∨ FrameDrops (tickFramed s) (referenceTick s) := by
  have judged : OnlyChanges [.events, .notices, .counters] (takeVerdict (tickFramed s).rx.period (tickFramed s))
      (tickJudged s) := by
    rw [tickJudged, if_pos h, superviseTick_eq]
    exact ite_only (bump_only _ _) (.refl _ _)
  have only : OnlyChanges (.rx :: .refWatch :: .tally :: evaluationParts)
      (takeVerdict (tickFramed s).rx.period (tickFramed s)) (referenceTick s) :=
    judged.andThen (referenceTick_only_judged s)
  exact (takeVerdict_stands_or_drops _).imp (·.only only) (·.only only)

/-- Where the link is in the state that it was in, no verdict has dropped it. -/
theorem referenceTick_stays (same : (referenceTick s).link.state = s.link.state) :
    FrameStands (tickFramed s) (referenceTick s) := by
  cases supervised : supervisedState s.link.state with
  | false => exact referenceTick_stands supervised
  | true =>
    refine (referenceTick_stands_or_drops supervised).resolve_right fun dropped => ?_
    rw [← same, dropped.state] at supervised
    cases supervised

/-- What leaves with the control cell, from what the frame event leaves of the queues. -/
theorem cellLeaves_of (alike : s.plan.due = none → SameCells (atFrame s) w)
    (responses : (tickFramed s).control.responses = (chooseCell w).2.control.responses)
    (notices : NoticesJoin (chooseCell w).2 (tickFramed s))
    (stands : (tickFramed s).link.state = s.link.state →
      (tickFramed s).control.relayOut = (chooseCell w).2.control.relayOut ∧
      ((∀ n r last, s.plan.echo = .running n r last → n < 63) →
        (tickFramed s).control.announce = (chooseCell w).2.control.announce)) : CellLeaves s (referenceTick s) := by
  intro due left
  obtain ⟨-, left_alike⟩ := (alike due).choice
  have kept : (referenceTick s).control.responses = (tickFramed s).control.responses :=
    referenceTick_only_framed s .responses (by decide)
  refine ⟨kept.trans (responses.trans left_alike.responses),
    (left_alike.notices.trans notices.tail).trans (referenceTick_joins s).tail, fun same => ?_⟩
  have frame := referenceTick_stays same
  obtain ⟨relayOut, announce⟩ := stands (frame.state.symm.trans same)
  exact ⟨frame.relayOut.trans (relayOut.trans left_alike.relayOut),
    fun early => frame.announce.trans ((announce early).trans left_alike.announce)⟩

end Sys2Proof.Proofs

/-! # Proofs: the frame of TEST (O43)

The generator bit by bit, the checker on the frame's own tiles, and the tick in TEST (R176, R177). -/

namespace Sys2Proof.Proofs

open Sys2Proof.Machine Sys2Proof.Claims

variable {s t u w : State} {seq : Word16}

/-! ### The generator (R176) -/

theorem patternSeed_toNat (seq : Word16) :
    (patternSeed seq).toNat = if seq.toNat % 32768 = 0 then 1 else seq.toNat % 32768 := by
  have low : (seq.extractLsb' 0 15).toNat = seq.toNat % 32768 := by simp [BitVec.extractLsb'_toNat]
  have zero : seq.extractLsb' 0 15 = 0 ↔ seq.toNat % 32768 = 0 := by
    rw [← low, ← BitVec.toNat_inj]
    rfl
  simp only [patternSeed, zero]
  split
  · rfl
  · exact low

/-- The feedback of stages 14 and 15 enters stage 1 (Table 11-2). -/
theorem patternStep_feedback (x : BitVec 15) : (patternStep x).getLsbD 0 = (x.getLsbD 13 ^^ x.getLsbD 14) := by
  rw [patternStep]
  cases x.getLsbD 13 <;> cases x.getLsbD 14 <;> simp

/-- Every other stage takes the bit of the one below it. -/
theorem patternStep_shift (x : BitVec 15) {k : Nat} (h : k < 14) :
    (patternStep x).getLsbD (k + 1) = x.getLsbD k := by
  have fed (b : Bool) : (if b then (1 : BitVec 15) else 0).getLsbD (k + 1) = false := by cases b <;> simp
  rw [patternStep, BitVec.getLsbD_or, fed, BitVec.getLsbD_shiftLeft]
  have within : k + 1 < 15 := by omega
  simp [within]

/-- The generator after n steps. -/
def patternState (seq : Word16) (n : Nat) : BitVec 15 := patternStep^[n] (patternSeed seq)

theorem patternState_steps (seq : Word16) : PatternSteps seq (patternState seq) := by
  refine ⟨patternSeed_toNat seq, fun t => ?_⟩
  rw [patternState, Function.iterate_succ_apply']
  exact ⟨patternStep_feedback _, fun _ => patternStep_shift _⟩

theorem patternBits_state (n : Nat) (x : BitVec 15) (acc : Sample) : (patternBits n x acc).2 = patternStep^[n] x := by
  induction n generalizing x acc with
  | zero => rfl
  | succ n ih => exact ih _ _

/-- A bit shifted into a sample is its lowest, and the others move one up. -/
theorem getLsbD_shiftIn (acc : Sample) (b : Bool) {k : Nat} (h : k < 12) :
    ((acc <<< 1) ||| (if b then 1 else 0)).getLsbD k = if k = 0 then b else acc.getLsbD (k - 1) := by
  have bit : (if b then (1 : Sample) else 0).getLsbD k = (decide (k = 0) && b) := by
    cases b <;> simp [BitVec.getLsbD_one]
  rw [BitVec.getLsbD_or, bit, BitVec.getLsbD_shiftLeft]
  cases k with
  | zero => simp
  | succ k => simp [h]

/-- The bits shifted in stand in their order, the last lowest, below what was there before. -/
theorem patternBits_getLsbD (n : Nat) (x : BitVec 15) (acc : Sample) {k : Nat} (h : k < 12) :
    (patternBits n x acc).1.getLsbD k =
      if k < n then (patternStep^[n - 1 - k] x).getLsbD 14 else acc.getLsbD (k - n) := by
  induction n generalizing x acc with
  | zero => rfl
  | succ n ih =>
    rw [patternBits, ih]
    by_cases below : k < n
    · have place : n + 1 - 1 - k = (n - 1 - k) + 1 := by omega
      rw [if_pos below, if_pos (by omega), place, Function.iterate_succ_apply]
    · rw [if_neg below, getLsbD_shiftIn acc _ (by omega)]
      by_cases first : k = n
      · rw [if_pos (by omega), if_pos (by omega), first, Nat.add_sub_cancel, Nat.sub_self]
        rfl
      · rw [if_neg (by omega), if_neg (by omega), Nat.sub_sub]

theorem length_patternRun (n : Nat) (x : BitVec 15) : (patternRun n x).length = n := by
  induction n generalizing x with
  | zero => rfl
  | succ n ih => rw [patternRun, List.length_cons, ih]

/-- Each sample takes the next 12 output bits. -/
theorem getElem?_patternRun {n i : Nat} {x : BitVec 15} {y : Sample} (h : (patternRun n x)[i]? = some y) :
    y = (patternBits 12 (patternStep^[12 * i] x) 0).1 := by
  induction n generalizing i x with
  | zero => cases h
  | succ n ih =>
    cases i with
    | zero => exact (Option.some.inj h).symm
    | succ i =>
      rw [patternRun, List.getElem?_cons_succ, patternBits_state] at h
      rw [ih h, ← Function.iterate_add_apply]
      rfl

/-- The samples of a pattern, bit by bit, the first bit the most significant (Table 11-2). -/
theorem patternSamples_bit {i j : Nat} {x : Sample} (h : (patternSamples seq)[i]? = some x) (hj : j < 12) :
    x.getLsbD (11 - j) = (patternState seq (12 * i + j)).getLsbD 14 := by
  have place : 12 - 1 - (11 - j) = j := by omega
  rw [getElem?_patternRun h, patternBits_getLsbD 12 _ _ (by omega), if_pos (by omega), place,
    ← Function.iterate_add_apply, Nat.add_comm]
  rfl

/-! ### The checker on the frame's own tiles (R177) -/

/-- A tile of the pattern that it is checked against is right, and is counted. -/
theorem checkSlot_own (seq : Word16) (s : State) : checkSlot (.pattern seq (patternSamples seq)) s =
    s.modTest fun x => { x with checked := min 65535 (s.test.checked + 1) } := by
  have right : decide (patternSamples seq ≠ patternSamples seq) = false := decide_eq_false (by simp)
  rw [checkSlot, checkTile, right]
  rfl

/-- A frame of such tiles is counted tile by tile, to 65535 at most (R178). -/
theorem each_checkSlot_own (seqs : List Word16) (s : State) :
    ∃ n, State.each checkSlot (seqs.map fun q => .pattern q (patternSamples q)) s =
        s.modTest (fun x => { x with checked := n }) ∧
      (s.test.checked ≤ 65535 → n = min 65535 (s.test.checked + seqs.length)) := by
  induction seqs generalizing s with
  | nil => exact ⟨s.test.checked, rfl, fun h => (Nat.min_eq_right h).symm⟩
  | cons q seqs ih =>
    obtain ⟨n, eq, count⟩ := ih (checkSlot (.pattern q (patternSamples q)) s)
    rw [checkSlot_own] at eq count
    refine ⟨n, ?_, fun _ => ?_⟩
    · rw [List.map_cons, State.each, checkSlot_own, eq]
      rfl
    · rw [count (Nat.min_le_left _ _), List.length_cons]
      change min 65535 (min 65535 (s.test.checked + 1) + seqs.length) = _
      omega

theorem patternSlots_eq (start : Word16) (count : Nat) : patternSlots start count =
    ((List.range count).map fun i => start + wordOf i).map fun q => .pattern q (patternSamples q) := by
  rw [patternSlots, List.map_map]
  rfl

theorem getElem?_patternSlots {start : Word16} {count i : Nat} {x : DataSlot} (h : (patternSlots start count)[i]? = some x) :
    x = .pattern (start + wordOf i) (patternSamples (start + wordOf i)) := by
  rw [patternSlots, List.getElem?_map, Option.map_eq_some_iff] at h
  obtain ⟨j, hj, rfl⟩ := h
  obtain ⟨-, rfl⟩ := List.getElem?_eq_some_iff.mp hj
  rw [List.getElem_range]

/-! ### The frame -/

/-- The frame that is built in TEST (R176). -/
def testBuilt (w : State) : Frame :=
  { header := { headerOf w w.test.cls with test := true }
    control := (chooseCell w).1
    aux := noAux
    slots := patternSlots w.test.nextSeq (dataSlots w.test.cls) }

/-- The cell has left, and the sequence numbers of the frame are taken. -/
def testNumbered (w : State) : State :=
  (chooseCell w).2.modTest fun x =>
    { x with idle := x.mode == .patternLoop, nextSeq := x.nextSeq + wordOf (dataSlots w.test.cls) }

/-- The frame goes to the checker or to the line (R177). -/
def testSent (w : State) : State :=
  if w.test.mode = .patternLoop then State.each checkSlot (testBuilt w).slots (testNumbered w)
  else handToLine (testBuilt w) (testNumbered w)

theorem chooseCell_test (w : State) : (chooseCell w).2.test = w.test := chooseCell_only w .test (by decide)

theorem testFrame_eq (w : State) : testFrame w = countdownTick (testSent w) := by
  have mode : (testNumbered w).test.mode = w.test.mode :=
    (congrArg TestUnit.mode (chooseCell_test w) :)
  rw [testSent, ← mode]
  rfl

theorem testNumbered_test (w : State) : (testNumbered w).test =
    { w.test with
      idle := w.test.mode == .patternLoop, nextSeq := w.test.nextSeq + wordOf (dataSlots w.test.cls) } := by
  rw [testNumbered, modTest_test, chooseCell_test]

theorem testFrame_only_sent (w : State) : OnlyChanges [.plan] (testSent w) (testFrame w) := by
  rw [testFrame_eq]
  exact countdownTick_only _

theorem testNumbered_only (w : State) : OnlyChanges [.test] (chooseCell w).2 (testNumbered w) := modTest_only _ _

/-- In PATTERN_LOOP the checker counts the tiles of the frame, all of them right, and the line gets none. -/
theorem testSent_loop (loop : w.test.mode = .patternLoop) :
    ∃ n, testSent w = (testNumbered w).modTest (fun x => { x with checked := n }) ∧
      (w.test.checked ≤ 65535 → n = min 65535 (w.test.checked + dataSlots w.test.cls)) := by
  obtain ⟨n, eq, count⟩ := each_checkSlot_own
    ((List.range (dataSlots w.test.cls)).map fun i => w.test.nextSeq + wordOf i) (testNumbered w)
  refine ⟨n, ?_, ?_⟩
  · rw [← eq, ← patternSlots_eq, testSent, if_pos loop]
    rfl
  · rw [testNumbered_test] at count
    simpa using count

theorem testSent_line (line : w.test.mode ≠ .patternLoop) : testSent w = handToLine (testBuilt w) (testNumbered w) :=
  if_neg line

theorem testSent_only (w : State) : OnlyChanges [.test, .lineOut, .rx] (chooseCell w).2 (testSent w) := by
  by_cases loop : w.test.mode = .patternLoop
  · obtain ⟨n, eq, -⟩ := testSent_loop loop
    rw [eq]
    exact ((testNumbered_only w).trans (modTest_only _ _)).wider
  · rw [testSent_line loop]
    exact (testNumbered_only w).andThen (handToLine_only _ _)

/-- The test unit once the frame is sent: only the count of checked tiles depends on where it went. -/
theorem testSent_test (w : State) : ∃ n, (testSent w).test = { (testNumbered w).test with checked := n } ∧
    (w.test.mode = .patternLoop → w.test.checked ≤ 65535 →
      n = min 65535 (w.test.checked + dataSlots w.test.cls)) ∧
    (w.test.mode ≠ .patternLoop → n = w.test.checked) := by
  by_cases loop : w.test.mode = .patternLoop
  · obtain ⟨n, eq, count⟩ := testSent_loop loop
    exact ⟨n, by rw [eq]; rfl, fun _ => count, fun line => absurd loop line⟩
  · refine ⟨w.test.checked, ?_, fun h => absurd h loop, fun _ => rfl⟩
    rw [testSent_line loop, testNumbered_test]
    exact testNumbered_test w

/-! ### The tick -/

/-- The frame event of a tick in TEST, after the switch that is due: the rest of the tick leaves the test unit, the line and the
side lines (R136). -/
theorem referenceTick_test (h : s.link.state = .test) :
    OnlyChanges [.plan] (testSent (frameBegun s)) (tickFramed s) ∧
    OnlyChanges (.rx :: .refWatch :: .tally :: evaluationParts) (tickFramed s) (referenceTick s) := by
  rw [tickFramed_test h]
  refine ⟨testFrame_only_sent _, ?_⟩
  rw [← tickFramed_test h]
  exact referenceTick_unsupervised (by rw [h]; rfl)

theorem testTick_cellLeaves (h : s.link.state = .test) : CellLeaves s (referenceTick s) := by
  have framed : OnlyChanges [.test, .lineOut, .rx, .plan] (chooseCell (frameBegun s)).2 (tickFramed s) :=
    (testSent_only _).andThen (referenceTick_test h).1
  have checked : NoticesJoin (chooseCell (frameBegun s)).2 (tickFramed s) := .only framed
  exact cellLeaves_of frameBegun_sameCells (framed .responses (by decide)) checked fun _ =>
    ⟨framed .relayOut (by decide), fun _ => framed .announce (by decide)⟩

/-- What a tick in TEST can change. -/
abbrev testTickParts : List Part :=
  [.plan, .builder, .lanes, .poolFree, .announce, .events, .notices, .counters, .responses, .relayOut, .test, .lineOut,
   .rx, .refWatch, .tally, .release]

/-- Settles O43: the header and the cell by what every frame has in common, the checker tile by tile, the generator bit by bit. -/
theorem aTickInTestBuildsAPatternFrame : Obligations.ATickInTestBuildsAPatternFrame := by
  refine And.intro ?_ fun seq => ⟨patternState seq, patternState_steps seq, length_patternRun 256 _,
    fun _ _ _ => patternSamples_bit⟩
  intro s live state c
  obtain ⟨handed, rest⟩ := referenceTick_test state
  have sent : OnlyChanges (.plan :: .rx :: .refWatch :: .tally :: evaluationParts) (testSent (frameBegun s))
      (referenceTick s) := handed.andThen rest
  have built : OnlyChanges [.announce, .responses, .relayOut, .notices, .test, .lineOut, .rx] (frameBegun s)
      (testSent (frameBegun s)) := (chooseCell_only _).andThen (testSent_only _)
  have whole : OnlyChanges testTickParts (atFrame s) (referenceTick s) :=
    ((frameBegun_only s).andThen built (rs := testTickParts)).andThen sent
  have begun : (frameBegun s).test = s.test := frameBegun_only s .test (by decide)
  have builder : (referenceTick s).builder = (frameBegun s).builder :=
    Eq.trans (sent .builder (by decide)) (built .builder (by decide))
  have frameCount : (frameBegun s).builder.frameCount = s.builder.frameCount + 1 := by rw [frameBegun_builder]
  have pins : (referenceTick s).pins = s.pins := whole .pins (by decide)
  have lineOut : (referenceTick s).lineOut = (testSent (frameBegun s)).lineOut := sent .lineOut (by decide)
  obtain ⟨n, unit, checked, unchecked⟩ := testSent_test (frameBegun s)
  rw [begun] at checked unchecked
  have test : (referenceTick s).test = { s.test with
      idle := s.test.mode == .patternLoop, nextSeq := s.test.nextSeq + wordOf c, checked := n } := by
    rw [Eq.trans (sent .test (by decide)) unit, testNumbered_test, begun]
  have hold : idleHold (referenceTick s) = decide (s.test.mode = .patternLoop) := by
    rw [idleHold_of_mode (by rw [pins, live]), test]
    rfl
  refine ⟨referenceTick s, exec_referenceTick live, by rw [builder, frameCount], by rw [test], by rw [test], by rw [test],
    whole .link (by decide), whole .sides (by decide), by rw [test]; rfl, hold, testTick_cellLeaves state,
    fun loop => ⟨?_, fun bounded => ?_⟩, fun line => ⟨?_, testBuilt (frameBegun s), ?_⟩⟩
  · obtain ⟨m, eq, -⟩ := testSent_loop (w := frameBegun s) (by rw [begun, loop])
    rw [lineOut, eq]
    exact Eq.trans (chooseCell_only _ .lineOut (by decide)) (frameBegun_only s .lineOut (by decide))
  · rw [test]; exact checked loop bounded
  · rw [test]; exact unchecked line
  · have handed_line := testSent_line (w := frameBegun s) (by rwa [begun])
    have rx : (tickFramed s).rx = (testSent (frameBegun s)).rx := handed .rx (by decide)
    refine ⟨by rw [lineOut, handed_line]; rfl, congrArg TestUnit.cls begun, rfl, ?_, frameCount, rfl, rfl, rfl, rfl,
      commonHeader_of (w := frameBegun s) rfl (by rw [builder]) (by rw [builder]) frameBegun_aligned rfl,
      carriesCell_of frameBegun_sameCells rfl, ?_, fun i x h => ?_⟩
    · simp [testBuilt, patternSlots, c, begun]
    · rw [referenceTick_rx, rx, handed_line]
      exact congrArg TestUnit.cls begun
    · rw [← begun]
      exact getElem?_patternSlots h

end Sys2Proof.Proofs

/-! # Proofs: the frame of a training state, and ticks without a frame (O42) -/

namespace Sys2Proof.Proofs

open Sys2Proof.Machine Sys2Proof.Claims

variable {s t u w : State}

/-! ### The end of the training switch (R133) -/

/-- Entering UP leaves the link to the records, the announcement and the echo watch. -/
theorem enterUp_state (s : State) : (enterUp s).link.state = .up := by
  have after (f : LinkCtl → LinkCtl) (g : Builder → Builder) (k : EventKind) (a b : Nat) :
      (startEcho (announceInForce (((s.modLink f).modBuilder g).raise k a b))).link = f s.link :=
    raise_only k a b _ .link (by decide)
  unfold enterUp
  rw [after]

theorem enterUp_builder (s : State) : (enterUp s).builder = { s.builder with firstInUp := true } :=
  raise_only _ _ _ _ .builder (by decide)

/-- A training switch frame is counted, and the sixteenth ends the training switch. -/
theorem trainTick_counts (h : s.link.trainFrames < 15) :
    trainTick s = s.modLink fun c => { c with trainFrames := c.trainFrames + 1 } := if_neg (Nat.not_le.mpr h)

theorem trainTick_ends (h : 15 ≤ s.link.trainFrames) : trainTick s = enterUp s := if_pos h

theorem trainTick_builder (s : State) :
    (trainTick s).builder = { s.builder with firstInUp := (trainTick s).builder.firstInUp } := by
  obtain counts | ends := Nat.lt_or_ge s.link.trainFrames 15
  · rw [trainTick_counts counts]; rfl
  · rw [trainTick_ends ends, enterUp_builder]

/-! ### The frame -/

/-- The frame that is built in a training state (R131 to R133). -/
def trainingBuilt (w : State) : Frame :=
  { header := { headerOf w .c5 with
      training := if w.link.state = .offer then w.link.ceiling else none
      classField := match w.link.state, w.link.selected with
        | .trainSwitch, some k => .agree k
        | _, _ => .none
      classCountdown := if w.link.state = .trainSwitch then trainCount w.link.trainFrames else 0 }
    control := (chooseCell w).1
    aux := noAux
    slots := List.replicate (dataSlots .c5) .pad }

/-- The frame handed over, and the plan countdown counted. -/
def trainingSent (w : State) : State := countdownTick (handToLine (trainingBuilt w) (chooseCell w).2)

theorem trainingFrame_eq (w : State) : trainingFrame w =
    if (trainingSent w).link.state = .trainSwitch then trainTick (trainingSent w) else trainingSent w := rfl

theorem trainingSent_only (w : State) : OnlyChanges [.lineOut, .rx, .plan] (chooseCell w).2 (trainingSent w) :=
  (handToLine_only _ _).andThen (countdownTick_only _)

/-- What the hand-over of a training frame can change. -/
abbrev trainingParts : List Part := [.announce, .responses, .relayOut, .notices, .lineOut, .rx, .plan]

theorem trainingSent_only_begun (w : State) : OnlyChanges trainingParts w (trainingSent w) :=
  (chooseCell_only w).andThen (trainingSent_only w)

theorem trainingSent_link (w : State) : (trainingSent w).link = w.link := trainingSent_only_begun w .link (by decide)

theorem trainingSent_builder (w : State) : (trainingSent w).builder = w.builder :=
  trainingSent_only_begun w .builder (by decide)

theorem trainingSent_handed (w : State) :
    (trainingSent w).lineOut = some (trainingBuilt w) ∧ (trainingSent w).rx.expected = .c5 := by
  have only := countdownTick_only (handToLine (trainingBuilt w) (chooseCell w).2)
  exact ⟨only .lineOut (by decide), congrArg UpReceiver.expected (only .rx (by decide))⟩

theorem trainingSent_plan (w : State) : (trainingSent w).plan = { w.plan with
    countdown := w.plan.countdown - 1, due := if w.plan.countdown = 1 then some .counted else w.plan.due } := by
  have chosen : (chooseCell w).2.plan = w.plan := chooseCell_only w .plan (by decide)
  rw [trainingSent, countdownTick_plan, handToLine_plan, chosen]

/-! ### The frame event -/

/-- In TRAIN_SWITCH the frame is counted after its hand-over. -/
theorem trainingFrame_switch (h : w.link.state = .trainSwitch) : trainingFrame w = trainTick (trainingSent w) := by
  rw [trainingFrame_eq, trainingSent_link, if_pos h]

theorem trainingFrame_no_switch (h : w.link.state ≠ .trainSwitch) : trainingFrame w = trainingSent w := by
  rw [trainingFrame_eq, trainingSent_link, if_neg h]

/-- After the hand-over the link, the builder, the plan store and the queue of the announcements are left to the training switch. -/
theorem trainingFrame_only_sent (w : State) : OnlyChanges upParts (trainingSent w) (trainingFrame w) := by
  rw [trainingFrame_eq]
  exact ite_only (trainTick_only _) (.refl _ _)

theorem trainingFrame_joins (w : State) : NoticesJoin (chooseCell w).2 (trainingFrame w) := by
  have sent : NoticesJoin (chooseCell w).2 (trainingSent w) := .only (trainingSent_only w)
  rw [trainingFrame_eq]
  exact .ite (sent.trans (trainTick_joins _)) sent

theorem trainingFrame_builder (w : State) :
    (trainingFrame w).builder = { w.builder with firstInUp := (trainingFrame w).builder.firstInUp } := by
  by_cases switching : w.link.state = .trainSwitch
  · rw [trainingFrame_switch switching, trainTick_builder, trainingSent_builder]
  · rw [trainingFrame_no_switch switching, trainingSent_builder]

/-- While the link stays in its state, only the count of the training frames changes after the hand-over. -/
theorem trainingFrame_stays (h : (trainingFrame w).link.state = w.link.state) :
    OnlyChanges [.link] (trainingSent w) (trainingFrame w) ∧
    (trainingFrame w).link.trainFrames =
      if w.link.state = .trainSwitch then w.link.trainFrames + 1 else w.link.trainFrames := by
  by_cases switching : w.link.state = .trainSwitch
  · have counts : (trainingSent w).link.trainFrames < 15 := by
      by_contra ends
      rw [trainingFrame_switch switching, trainTick_ends (Nat.not_lt.mp ends), enterUp_state, switching] at h
      cases h
    rw [trainingFrame_switch switching, trainTick_counts counts, if_pos switching, modLink_link, trainingSent_link]
    exact ⟨modLink_only _ _, rfl⟩
  · rw [trainingFrame_no_switch switching, if_neg switching, trainingSent_link]
    exact ⟨.refl _ _, rfl⟩

/-! ### The tick -/

section
variable (training : s.link.state = .measure ∨ s.link.state = .offer ∨ s.link.state = .trainSwitch)
include training

theorem trainingTick_cellLeaves : CellLeaves s (referenceTick s) := by
  have framed := tickFramed_training training
  have sent := trainingSent_only (frameBegun s)
  have only := trainingFrame_only_sent (frameBegun s)
  refine cellLeaves_of frameBegun_sameCells ?_ ?_ fun same => ⟨?_, fun _ => ?_⟩ <;> rw [framed]
  · exact Eq.trans (only .responses (by decide)) (sent .responses (by decide))
  · exact trainingFrame_joins _
  · exact Eq.trans (only .relayOut (by decide)) (sent .relayOut (by decide))
  · rw [framed, ← frameBegun_link s] at same
    exact Eq.trans ((trainingFrame_stays same).1 .announce (by decide)) (sent .announce (by decide))

/-- What the tick hands over, and what it leaves of the rest. -/
theorem trainingTick_handed : (referenceTick s).lineOut = some (trainingBuilt (frameBegun s)) ∧
    (referenceTick s).rx.expected = .c5 ∧ (referenceTick s).sides = s.sides ∧
    (referenceTick s).builder =
      { (frameBegun s).builder with firstInUp := (referenceTick s).builder.firstInUp } := by
  have framed := tickFramed_training training
  have rest := referenceTick_only_framed s
  have only := trainingFrame_only_sent (frameBegun s)
  have begun := trainingSent_only_begun (frameBegun s)
  rw [framed] at rest
  obtain ⟨line, expected⟩ := trainingSent_handed (frameBegun s)
  have rx : (trainingFrame (frameBegun s)).rx = (trainingSent (frameBegun s)).rx := only .rx (by decide)
  have builder : (referenceTick s).builder = (trainingFrame (frameBegun s)).builder := rest .builder (by decide)
  refine ⟨?_, ?_, ?_, ?_⟩
  · exact Eq.trans (rest .lineOut (by decide)) (Eq.trans (only .lineOut (by decide)) line)
  · rw [referenceTick_rx, framed, rx]
    exact expected
  · exact Eq.trans (rest .sides (by decide)) (Eq.trans (only .sides (by decide))
      (Eq.trans (begun .sides (by decide)) (frameBegun_only s .sides (by decide))))
  · rw [builder]
    exact trainingFrame_builder _

/-- While the link stays in its state, the countdowns of the hand-over stand at the end of the tick (R116, R133). -/
theorem trainingTick_stays (same : (referenceTick s).link.state = s.link.state) :
    (referenceTick s).plan.countdown = s.plan.countdown - 1 ∧
    (referenceTick s).plan.due = (if s.plan.countdown = 1 then some .counted else none) ∧
    (referenceTick s).link.trainFrames =
      if s.link.state = .trainSwitch then s.link.trainFrames + 1 else s.link.trainFrames := by
  have stands := referenceTick_stays same
  rw [tickFramed_training training] at stands
  obtain ⟨only, trainFrames⟩ := trainingFrame_stays (w := frameBegun s)
    (stands.state.symm.trans (same.trans (congrArg LinkCtl.state (frameBegun_link s)).symm))
  have plan : (referenceTick s).plan = _ :=
    stands.plan.trans (Eq.trans (only .plan (by decide)) (trainingSent_plan (frameBegun s)))
  rw [frameBegun_link] at trainFrames
  refine ⟨?_, ?_, ?_⟩
  · rw [plan, frameBegun_countdown]
  · rw [plan, frameBegun_countdown, frameBegun_due]
  · rw [stands.link]
    exact trainFrames

end

/-- Outside TRAIN_SWITCH a training frame leaves the link (R136). -/
theorem trainingTick_link (h : s.link.state = .measure ∨ s.link.state = .offer) : (referenceTick s).link = s.link := by
  have training : s.link.state = .measure ∨ s.link.state = .offer ∨ s.link.state = .trainSwitch := h.imp id .inl
  have unsupervised : supervisedState s.link.state = false := by obtain h | h := h <;> rw [h] <;> rfl
  have no_switch : (frameBegun s).link.state ≠ .trainSwitch := by
    rw [frameBegun_link]; obtain h | h := h <;> rw [h] <;> decide
  have framed : (tickFramed s).link = s.link := by
    rw [tickFramed_training training, trainingFrame_no_switch no_switch, trainingSent_link, frameBegun_link]
  exact Eq.trans (referenceTick_unsupervised unsupervised .link (by decide)) framed

/-- The sixteenth training switch frame ends the training switch, and the verdict of its tick may drop the link (R133, R136). -/
theorem trainingTick_ends (switching : s.link.state = .trainSwitch) (ends : 15 ≤ s.link.trainFrames) :
    (referenceTick s).link.state = .up ∨ (referenceTick s).link.state = .down := by
  have link : (trainingSent (frameBegun s)).link = s.link := (trainingSent_link _).trans (frameBegun_link s)
  have framed : (tickFramed s).link.state = .up := by
    rw [tickFramed_training (.inr (.inr switching)), trainingFrame_switch (by rw [frameBegun_link, switching]),
      trainTick_ends (by rw [link]; exact ends), enterUp_state]
  exact (referenceTick_stands_or_drops (by rw [switching]; rfl)).imp (·.state.trans framed) (·.state)

/-! ### A tick without a frame -/

section
variable (still : s.link.state = .down ∨ s.link.state = .disabled)
include still

theorem idleTick_only : OnlyChanges (.rx :: .refWatch :: .tally :: evaluationParts)
    (takeSwitch (periodBegun s)) (referenceTick s) := by
  rw [← tickFramed_idle still]
  exact referenceTick_unsupervised (by obtain h | h := still <;> rw [h] <;> rfl)

theorem idleTick_isUp : isUp s = false := by
  rw [← Bool.not_eq_true, isUp_iff]
  obtain h | h := still <;> rw [h] <;> decide

/-- Outside UP a switch announces nothing (R118). -/
theorem idleTick_announce : (referenceTick s).control.announce = s.control.announce := by
  refine Eq.trans (idleTick_only still .announce (by decide)) ?_
  cases due : s.plan.due with
  | none => rw [takeSwitch_none (s := periodBegun s) due]; rfl
  | some d =>
    have not_up : isUp (periodBegun s) = false := idleTick_isUp still
    rw [takeSwitch_announce (s := periodBegun s) due, not_up, if_neg (by simp)]
    rfl

theorem idleTick_not_due (due : s.plan.due = none) :
    (referenceTick s).plan = { s.plan with lossTaken := false } ∧ (referenceTick s).builder = s.builder := by
  have only := idleTick_only still
  rw [takeSwitch_none (s := periodBegun s) due] at only
  exact ⟨only .plan (by decide), only .builder (by decide)⟩

/-- A switch that is due is taken in DOWN and DISABLED too (R118). -/
theorem idleTick_due {d : Due} (due : s.plan.due = some d) :
    (referenceTick s).plan = planSwitched false { s.plan with lossTaken := false } := by
  have plan : (referenceTick s).plan = _ := idleTick_only still .plan (by decide)
  rw [plan, takeSwitch_plan (s := periodBegun s) due]
  exact congrArg (planSwitched · _) (idleTick_isUp still)

end

theorem pendingBank_planSwitched {up : Bool} (h : t.plan = planSwitched up s.plan) : pendingBank t = .emptied := by
  have banks : pendingBank t = bankGet (banksSwitched s.plan) (otherId (banksSwitched s.plan)) := by
    rw [pendingBank, h]
    rfl
  rw [banks, otherId_banksSwitched, bankGet_banksSwitched_active]

theorem idleTick_frameCount (h : s.link.state = .down ∨ s.link.state = .disabled) :
    (referenceTick s).builder.frameCount = s.builder.frameCount := by
  have builder : (referenceTick s).builder = _ := idleTick_only h .builder (by decide)
  rw [builder]
  cases due : s.plan.due with
  | none => rw [takeSwitch_none (s := periodBegun s) due]; rfl
  | some d => rw [takeSwitch_builder (s := periodBegun s) due]; rfl

/-! ### The statement -/

/-- Settles O42: the frame by what every frame has in common, its countdowns by the hand-over; without a frame, the switch alone. -/
theorem ticksOutsideUp : Obligations.TicksOutsideUp := by
  refine ⟨fun s live training => ?_, fun s live still => ?_⟩
  · have link := frameBegun_link s
    obtain ⟨line, expected, sides, builder⟩ := trainingTick_handed training
    have frameCount : (frameBegun s).builder.frameCount = s.builder.frameCount + 1 := by rw [frameBegun_builder]
    refine ⟨referenceTick s, trainingBuilt (frameBegun s), exec_referenceTick live, line, by rw [builder, frameCount],
      frameCount, rfl, rfl, rfl, sides, rfl, expected,
      commonHeader_of (w := frameBegun s) rfl (by rw [builder]) (by rw [builder]) frameBegun_aligned rfl,
      carriesCell_of frameBegun_sameCells rfl, trainingTick_cellLeaves training, trainingTick_stays training,
      trainingTick_ends, fun offer => ?_, fun no_offer => ?_, fun no_switch => ?_, fun k switching selected => ?_⟩
    · simp [trainingBuilt, link, offer]
    · simp [trainingBuilt, link, no_offer]
    · have stays : s.link.state = .measure ∨ s.link.state = .offer :=
        training.imp_right fun h => h.resolve_right no_switch
      refine ⟨?_, ?_, trainingTick_link stays⟩
      · simp [trainingBuilt, link, no_switch]
      · obtain h | h := stays <;> simp [trainingBuilt, link, h]
    · simp [trainingBuilt, link, switching, selected, trainCount]
  · have only := idleTick_only still
    have kept : OnlyChanges (.rx :: .refWatch :: .tally :: .release :: switchParts)
        (periodBegun s) (referenceTick s) := (takeSwitch_only _).andThen only
    refine ⟨referenceTick s, exec_referenceTick live, kept .lineOut (by decide), idleTick_frameCount still,
      kept .link (by decide), kept .responses (by decide), idleTick_announce still, kept .relayOut (by decide),
      kept .sides (by decide), referenceTick_refWatch s, idleTick_not_due still, fun switching => ?_⟩
    obtain ⟨d, due⟩ := Option.ne_none_iff_exists'.mp switching
    have plan := idleTick_due still due
    exact ⟨activeBank_planSwitched (s := periodBegun s) plan, pendingBank_planSwitched (s := periodBegun s) plan,
      by rw [plan]; rfl, by rw [plan]; rfl, by rw [plan]; rfl⟩

end Sys2Proof.Proofs

/-! # Proofs: what a frame event in UP fills its slots from

The slots of a fill by their kinds, for any plan and any runtimes (R82, R88, R92, R93), and the state that the switch, the class
change and the assessment leave for it (R83). -/

namespace Sys2Proof.Proofs

open Sys2Proof.Machine Sys2Proof.Claims

variable {s t u w : State} {es : List Entry} {rs : List Runtime}

/-! ### The slots by their kinds -/

/-- No more tiles than are released make as many slots, each of the kind asked for (R89). -/
theorem sendTiles_slots (slot : TileLabel → List Sample → DataSlot) (entry : Nat) {l : LaneId} {n : Nat}
    (h : n ≤ releasedTiles s l) : (sendTiles slot entry l n s).1.length = n ∧
      ∀ x ∈ (sendTiles slot entry l n s).1, ∃ label samples, x = slot label samples := by
  rw [releasedTiles, releasedIn_eq_length] at h
  rw [(sendTiles_sends slot entry h).1]
  refine ⟨by rw [slotsOf, List.length_map, List.length_take, Nat.min_eq_left h], fun x hx => ?_⟩
  obtain ⟨y, -, rfl⟩ := List.mem_map.mp hx
  exact ⟨_, _, rfl⟩

/-- The credit pass makes DATA slots of the slots that it takes, and changes no carry state (R88). -/
theorem creditPass_slots (i : Nat) (es : List Entry) (rs : List Runtime) (free : Nat) (s : State) :
    (creditPass i es rs free s).slots.length + (creditPass i es rs free s).free = free ∧
    (∀ x ∈ (creditPass i es rs free s).slots, isData x = true) ∧
    (creditPass i es rs free s).runtimes.map (·.carry) = rs.map (·.carry) := by
  induction es generalizing i rs free s with
  | nil => exact ⟨Nat.zero_add _, nofun, rfl⟩
  | cons e es ih =>
    cases rs with
    | nil => exact ⟨Nat.zero_add _, nofun, rfl⟩
    | cons r rs =>
      rw [creditPass]
      split
      · obtain ⟨count, kinds, carries⟩ := ih (i + 1) rs free s
        exact ⟨count, kinds, congrArg (r.carry :: ·) carries⟩
      · extract_lets q credit g sent rest
        obtain ⟨count, kinds, carries⟩ := ih (i + 1) rs (free - g) sent.2
        have waiting : g ≤ releasedTiles s e.lane := (Nat.min_le_right _ _).trans (Nat.min_le_left _ _)
        have fits : g ≤ free := (Nat.min_le_right _ _).trans (Nat.min_le_right _ _)
        obtain ⟨length, data⟩ := sendTiles_slots .data i waiting
        refine ⟨?_, fun x hx => ?_, congrArg (r.carry :: ·) carries⟩
        · rw [List.length_append]
          change sent.1.length = g at length
          change rest.slots.length + rest.free = free - g at count
          change sent.1.length + rest.slots.length + rest.free = free
          omega
        · obtain here | later := List.mem_append.mp hx
          · obtain ⟨_, _, rfl⟩ := data x here
            rfl
          · exact kinds x later

/-- The drain pass makes DRAIN slots of the slots that it takes (R92). -/
theorem drainPass_slots (i : Nat) (es : List Entry) (rs : List Runtime) (free : Nat) (s : State) :
    (drainPass i es rs free s).1.length + (drainPass i es rs free s).2.1 = free ∧
    ∀ x ∈ (drainPass i es rs free s).1, isDrain x = true := by
  induction es generalizing i rs free s with
  | nil => exact ⟨Nat.zero_add _, nofun⟩
  | cons e es ih =>
    cases rs with
    | nil => exact ⟨Nat.zero_add _, nofun⟩
    | cons r rs =>
      rw [drainPass]
      split
      · extract_lets g sent rest
        obtain ⟨count, kinds⟩ := ih (i + 1) rs (free - g) sent.2
        have waiting : g ≤ releasedTiles s e.lane := Nat.min_le_left _ _
        have fits : g ≤ free := Nat.min_le_right _ _
        obtain ⟨length, drain⟩ := sendTiles_slots .drain i waiting
        refine ⟨?_, fun x hx => ?_⟩
        · rw [List.length_append]
          change sent.1.length = g at length
          change rest.1.length + rest.2.1 = free - g at count
          change sent.1.length + rest.1.length + rest.2.1 = free
          omega
        · obtain here | later := List.mem_append.mp hx
          · obtain ⟨_, _, rfl⟩ := drain x here
            rfl
          · exact kinds x later
      · exact ih (i + 1) rs free s

/-- A fill gives every data slot of the class: DATA, then DRAIN, then PAD (R82, R93). -/
theorem fill_slots (s : State) : ∃ data drain k, (fill s).1 = data ++ drain ++ List.replicate k .pad ∧
    (∀ x ∈ data, isData x = true) ∧ (∀ x ∈ drain, isDrain x = true) ∧
    data.length + drain.length + k = dataSlots s.builder.classApplied := by
  obtain ⟨credited, data, -⟩ := creditPass_slots 0 (activeBank s).entries s.builder.runtimes
    (dataSlots s.builder.classApplied) s
  obtain ⟨drained, drain⟩ := drainPass_slots 0 (activeBank s).entries
    (creditPass 0 (activeBank s).entries s.builder.runtimes (dataSlots s.builder.classApplied) s).runtimes
    (creditPass 0 (activeBank s).entries s.builder.runtimes (dataSlots s.builder.classApplied) s).free
    (creditPass 0 (activeBank s).entries s.builder.runtimes (dataSlots s.builder.classApplied) s).state
  exact ⟨_, _, _, rfl, data, drain, by omega⟩

/-- The slots of a fill in the words of the statement. -/
theorem fill_kinds (s : State) : (fill s).1.length = dataSlots s.builder.classApplied ∧
    (∀ seq x, DataSlot.pattern seq x ∉ (fill s).1) ∧
    ∃ n m, (∀ x ∈ (fill s).1.take n, isData x = true) ∧ (∀ x ∈ ((fill s).1.drop n).take m, isDrain x = true) ∧
      ∀ x ∈ (fill s).1.drop (n + m), x = .pad := by
  obtain ⟨data, drain, k, slots, is_data, is_drain, length⟩ := fill_slots s
  rw [slots]
  refine ⟨by simpa [Nat.add_assoc] using length, fun seq x hx => ?_, data.length, drain.length, ?_, ?_, ?_⟩
  · obtain (hx | hx) | hx := List.mem_append.mp hx |>.imp_left List.mem_append.mp
    · exact nomatch is_data _ hx
    · exact nomatch is_drain _ hx
    · exact nomatch List.eq_of_mem_replicate hx
  · rw [List.append_assoc, List.take_left]
    exact is_data
  · rw [List.append_assoc, List.drop_left, List.take_left]
    exact is_drain
  · rw [List.drop_left' (List.length_append)]
    exact fun _ => List.eq_of_mem_replicate

theorem fill_carries (s : State) : (fill s).2.builder.runtimes.map (·.carry) = s.builder.runtimes.map (·.carry) :=
  (creditPass_slots 0 (activeBank s).entries s.builder.runtimes (dataSlots s.builder.classApplied) s).2.2

/-- A fill changes the credits of the builder alone. -/
theorem fill_builder (s : State) : (fill s).2.builder = { s.builder with runtimes := (fill s).2.builder.runtimes } := by
  have passed := ((creditPass_only 0 (activeBank s).entries s.builder.runtimes (dataSlots s.builder.classApplied) s).trans
    (drainPass_only 0 (activeBank s).entries
      (creditPass 0 (activeBank s).entries s.builder.runtimes (dataSlots s.builder.classApplied) s).runtimes
      (creditPass 0 (activeBank s).entries s.builder.runtimes (dataSlots s.builder.classApplied) s).free _)) .builder
    (by decide)
  exact congrArg (fun b : Builder => { b with runtimes := (fill s).2.builder.runtimes }) passed

/-! ### The class change that is due -/

theorem modLink_apart (f : LinkCtl → LinkCtl) : Apart (State.modLink f) := fun _ _ => rfl

theorem changedClass_due {k : RateClass} {b : Bool} (h : s.link.proposal = .counting 0 k b) :
    changedClass s = { s.raise .classChanged (classNum k) (classNum s.link.classInForce) with
      link := { withdrawn s.pins.marginWarning true s.link with classInForce := k } } := by
  simp only [changedClass, h]

theorem changedClass_stands (h : ∀ k b, s.link.proposal ≠ .counting 0 k b) : changedClass s = s := by
  unfold changedClass
  split
  · exact absurd ‹_› (h _ _)
  · rfl

/-- The class change takes effect with its record and its timers (R144). -/
theorem applyDueClass_eq (s : State) : applyDueClass s = changedClass s := by
  unfold applyDueClass
  split
  · rename_i k b due
    have raised : (s.raise .classChanged (classNum k) (classNum s.link.classInForce)).link = s.link :=
      raise_only _ _ _ _ .link (by decide)
    rw [changedClass_due due]
    simp only [(raise_recording _ _ _).comm (modLink_apart _), proposalToNone_eq, modLink_link, modLink_pins,
      (raise_recording _ _ _).pins, raised]
    rfl
  · rename_i not_due
    exact (changedClass_stands not_due).symm

theorem changedClass_only (s : State) : OnlyChanges [.link, .events, .notices, .counters] s (changedClass s) := by
  rw [← applyDueClass_eq]
  exact applyDueClass_only s

/-- Step 2 of R83: the class change that is due, and the class as applied. -/
def upApplied (s : State) : State :=
  let u := changedClass (frameBegun s)
  { u with builder := { u.builder with classApplied := u.link.classInForce } }

theorem upApplied_only (s : State) :
    OnlyChanges [.link, .builder, .events, .notices, .counters] (frameBegun s) (upApplied s) :=
  (changedClass_only _).andThen
    (modBuilder_only (fun b => { b with classApplied := (changedClass (frameBegun s)).link.classInForce }) _)

theorem upApplied_plan (s : State) : (upApplied s).plan = (frameBegun s).plan := upApplied_only s .plan (by decide)

theorem upApplied_activeBank (s : State) : activeBank (upApplied s) = activeBank (frameBegun s) :=
  activeBank_congr (by rw [upApplied_plan]) (by rw [upApplied_plan])

theorem upApplied_builder (s : State) : (upApplied s).builder =
    { (frameBegun s).builder with classApplied := (upApplied s).link.classInForce } := by
  have builder : (changedClass (frameBegun s)).builder = (frameBegun s).builder :=
    changedClass_only _ .builder (by decide)
  exact congrArg (fun b : Builder => { b with classApplied := (upApplied s).link.classInForce }) builder

/-- The link with the change in effect: the new class and the proposal at none, or the link as it was. -/
theorem upApplied_link_due {k : RateClass} {b : Bool} (h : s.link.proposal = .counting 0 k b) : (upApplied s).link =
    { withdrawn s.pins.marginWarning true s.link with classInForce := k } := by
  have link := frameBegun_link s
  have pins : (frameBegun s).pins = s.pins := frameBegun_only s .pins (by decide)
  change (changedClass (frameBegun s)).link = _
  rw [changedClass_due (s := frameBegun s) (by rw [link, h]), ← link, ← pins]

theorem upApplied_link_stands (h : ∀ k b, s.link.proposal ≠ .counting 0 k b) : (upApplied s).link = s.link := by
  change (changedClass (frameBegun s)).link = _
  rw [changedClass_stands (s := frameBegun s) (by rwa [frameBegun_link]), frameBegun_link]

/-! ### The assessment -/

/-- When a frame event in UP assesses the carry states (R102). -/
abbrev Assesses (s : State) : Prop :=
  s.plan.due ≠ none ∨ s.builder.classApplied ≠ (upApplied s).link.classInForce ∨ s.builder.firstInUp = true

theorem prepared_eq (s : State) : prepared s =
    (if Assesses s then assess (upApplied s) else upApplied s).modBuilder fun b => { b with firstInUp := false } := rfl

/-- The state that a fill in UP finds is the prepared one (R83). -/
theorem prepareUp_eq (s : State) : prepareUp s.plan.due.isSome (frameBegun s) = prepared s := by
  have begun := frameBegun_builder s
  have applied : (frameBegun s).builder.classApplied = s.builder.classApplied := by rw [begun]
  have first : (upApplied s).builder.firstInUp = s.builder.firstInUp := by rw [upApplied_builder, begun]
  have same : (applyDueClass (frameBegun s)).modBuilder
      (fun b => { b with classApplied := (applyDueClass (frameBegun s)).link.classInForce }) = upApplied s := by
    rw [applyDueClass_eq]
    rfl
  have when_assessed : (s.plan.due.isSome = true ∨ (upApplied s).builder.classApplied ≠ s.builder.classApplied ∨
      (upApplied s).builder.firstInUp = true) ↔ Assesses s := by
    rw [first, upApplied_builder]
    simp only [Assesses, Option.isSome_iff_ne_none, ne_comm]
  rw [prepareUp, same, applied, prepared_eq]
  simp only [when_assessed]

theorem prepared_assessed (h : Assesses s) :
    prepared s = (assess (upApplied s)).modBuilder fun b => { b with firstInUp := false } := by
  rw [prepared_eq, if_pos h]

theorem prepared_unassessed (h : ¬ Assesses s) :
    prepared s = (upApplied s).modBuilder fun b => { b with firstInUp := false } := by rw [prepared_eq, if_neg h]

/-- What the assessment and the first frame leave of the change. -/
theorem prepared_only (s : State) :
    OnlyChanges [.builder, .lanes, .poolFree, .events, .notices, .counters] (upApplied s) (prepared s) := by
  rw [prepared_eq]
  exact (ite_only (assess_only _) (.refl _ _)).trans ((modBuilder_only _ _).wider)

theorem prepared_link (s : State) : (prepared s).link = (upApplied s).link := prepared_only s .link (by decide)

/-- The builder of the frame, but for the runtimes and what an assessment settles. -/
theorem prepared_builder (s : State) : (prepared s).builder.classApplied = (upApplied s).link.classInForce ∧
    (prepared s).builder.firstInUp = false ∧ (prepared s).builder.frameCount = s.builder.frameCount + 1 := by
  have applied := upApplied_builder s
  rw [frameBegun_builder] at applied
  by_cases h : Assesses s
  · rw [prepared_assessed h, modBuilder_builder, assess_builder, builderAssessed, modBuilder_builder, applied]
    exact ⟨rfl, rfl, rfl⟩
  · rw [prepared_unassessed h, modBuilder_builder, applied]
    exact ⟨rfl, rfl, rfl⟩

theorem settleRuntimes_carries {cs : List CarryState} (hc : cs.length = es.length) (hr : rs.length = es.length) :
    (settleRuntimes es cs rs).map (·.carry) = cs := by
  induction es generalizing cs rs with
  | nil => rw [List.eq_nil_of_length_eq_zero hc]; rfl
  | cons e es ih =>
    obtain ⟨c, cs, rfl⟩ := List.exists_cons_of_length_eq_add_one hc
    obtain ⟨r, rs, rfl⟩ := List.exists_cons_of_length_eq_add_one hr
    rw [settleRuntimes, List.map_cons, ih (Nat.succ.inj hc) (Nat.succ.inj hr)]

/-- Without an assessment the carry states, the flag and the total stand (R102). -/
theorem prepared_builder_unassessed (h : ¬ Assesses s) :
    (prepared s).builder.overcommit = s.builder.overcommit ∧
    (prepared s).builder.assessedTotal = s.builder.assessedTotal ∧
    (prepared s).builder.runtimes = s.builder.runtimes := by
  have not_due : s.plan.due = none := by
    by_contra due
    exact h (.inl due)
  have builder : (prepared s).builder = _ := congrArg State.builder (prepared_unassessed h)
  rw [modBuilder_builder, upApplied_builder, frameBegun_of_not_due not_due] at builder
  rw [builder]
  exact ⟨rfl, rfl, rfl⟩

/-- What an assessment settles in the builder. -/
theorem builderAssessed_settles (s : State) : (builderAssessed s).builder.assessedTotal = (assessed s).2 ∧
    (builderAssessed s).builder.overcommit = exceeding s ∧
    (builderAssessed s).builder.runtimes =
      settleRuntimes (activeBank s).entries (assessed s).1 s.builder.runtimes := by
  rw [builderAssessed, modBuilder_builder]
  exact ⟨by with_reducible rfl, by with_reducible rfl, by with_reducible rfl⟩

/-- An assessment settles them by the ladder against the class as applied (R103, R105). -/
theorem prepared_builder_assessed (h : Assesses s) :
    let es := (activeBank (frameBegun s)).entries
    let c16 := capacity16 (upApplied s).link.classInForce
    (prepared s).builder.assessedTotal = (ladder es c16).2 ∧
    (prepared s).builder.overcommit = decide (c16 < (ladder es c16).2) ∧
    (Aligned (frameBegun s) → (prepared s).builder.runtimes.map (·.carry) = (ladder es c16).1) := by
  intro es c16
  have class_applied : (upApplied s).builder.classApplied = (upApplied s).link.classInForce := by rw [upApplied_builder]
  have by_ladder : assessed (upApplied s) = ladder es c16 := by
    rw [assessed, upApplied_activeBank, class_applied]
  have exceeds : exceeding (upApplied s) = decide (c16 < (ladder es c16).2) := by
    rw [exceeding, by_ladder, class_applied]
  have builder : (prepared s).builder = { (builderAssessed (upApplied s)).builder with firstInUp := false } := by
    rw [prepared_assessed h, modBuilder_builder]
    exact congrArg (fun b : Builder => { b with firstInUp := false }) (assess_builder _)
  obtain ⟨total, overcommit, runtimes⟩ := builderAssessed_settles (upApplied s)
  have old_runtimes : (upApplied s).builder.runtimes = (frameBegun s).builder.runtimes := by rw [upApplied_builder]
  rw [by_ladder] at total runtimes
  rw [exceeds] at overcommit
  rw [upApplied_activeBank, old_runtimes] at runtimes
  simp only [builder, total, overcommit, runtimes, true_and]
  exact fun aligned => settleRuntimes_carries (length_ladder _ _) aligned.symm

end Sys2Proof.Proofs

/-! # Proofs: the hand-over of a carriage frame

What leaves and what is counted when the frame has gone to the line: the side records, the countdowns, the pending refusal, and the
echo watch unless it began within the event (R116, R124, R143, R144, R157). -/

namespace Sys2Proof.Proofs

open Sys2Proof.Machine Sys2Proof.Claims

variable {s t u w : State} {n repeats : Nat} {last : Option Byte}

/-! ### The echo watch (R124) -/

theorem echoTick_idle (h : s.plan.echo = .idle) : echoTick s = s := by rw [echoTick, h]

theorem echoTick_counts (h : s.plan.echo = .running n repeats last) (early : n < 63) :
    echoTick s = s.modPlan fun p => { p with echo := .running (n + 1) repeats last } := by
  simp only [echoTick, h, if_neg (Nat.not_le.mpr early)]

theorem echoTick_expires (h : s.plan.echo = .running n repeats last) (late : 63 ≤ n) :
    echoTick s = echoExpire repeats last s := by
  simp only [echoTick, h, if_pos late]

/-- An expiry in step raises BASE_OUT_OF_STEP; the announcement is repeated in any case. -/
theorem echoExpire_inStep (h : s.plan.baseStanding = .inStep) : echoExpire repeats last s =
    (((announceInForce s).modPlan fun p => { p with baseStanding := .lagging }).raise .baseOutOfStep
      (activeBank s).epoch.toNat (echoDetail last)).modPlan fun p =>
        { p with echo := .running 0 (min 65535 (repeats + 1)) last } := by
  unfold echoExpire
  exact congrArg (State.modPlan fun p => { p with echo := .running 0 (min 65535 (repeats + 1)) last }) (if_pos h)

theorem echoExpire_lagging (h : s.plan.baseStanding = .lagging) : echoExpire repeats last s =
    (announceInForce s).modPlan fun p => { p with echo := .running 0 (min 65535 (repeats + 1)) last } := by
  have out : (announceInForce s).plan.baseStanding ≠ .inStep := fun inStep => nomatch h.symm.trans inStep
  unfold echoExpire
  exact congrArg (State.modPlan fun p => { p with echo := .running 0 (min 65535 (repeats + 1)) last }) (if_neg out)

/-- The 64th frame repeats the announcement and leaves the base out of step. -/
theorem echoExpire_leaves (repeats : Nat) (last : Option Byte) (s : State) :
    (echoExpire repeats last s).plan =
      { s.plan with echo := .running 0 (min 65535 (repeats + 1)) last, baseStanding := .lagging } ∧
    (echoExpire repeats last s).control.announce = announcement .inForce (activeBank s).entries.length := by
  cases standing : s.plan.baseStanding with
  | inStep =>
    have raised := raise_only .baseOutOfStep (activeBank s).epoch.toNat (echoDetail last)
      ((announceInForce s).modPlan fun p => { p with baseStanding := .lagging })
    rw [echoExpire_inStep standing, modPlan_plan, modPlan_control, raised .plan (by decide)]
    exact ⟨rfl, raised .announce (by decide)⟩
  | lagging =>
    rw [echoExpire_lagging standing, ← standing]
    exact ⟨rfl, rfl⟩

/-- The echo watch leaves the rest of the plan store. -/
theorem echoTick_plan (s : State) : (echoTick s).plan =
    { s.plan with echo := (echoTick s).plan.echo, baseStanding := (echoTick s).plan.baseStanding } := by
  cases echo : s.plan.echo with
  | idle => rw [echoTick_idle echo]
  | running n repeats last =>
    obtain early | late := Nat.lt_or_ge n 63
    · rw [echoTick_counts echo early]; rfl
    · rw [echoTick_expires echo late, (echoExpire_leaves repeats last s).1]

theorem echoTick_announce_early (early : ∀ n r last, s.plan.echo = .running n r last → n < 63) :
    (echoTick s).control.announce = s.control.announce := by
  cases echo : s.plan.echo with
  | idle => rw [echoTick_idle echo]
  | running n repeats last => rw [echoTick_counts echo (early _ _ _ echo)]; rfl

/-! ### Its record -/

theorem echoRecorded_of_due {d : Due} (h : s.plan.due = some d) : echoRecorded s u = u := by
  simp only [echoRecorded, h]

theorem echoRecorded_stands
    (h : ∀ n r last, s.plan.echo = .running n r last → s.plan.baseStanding = .inStep → n < 63) : echoRecorded s u = u := by
  unfold echoRecorded
  split
  · rename_i echo inStep
    exact if_neg (Nat.not_le.mpr (h _ _ _ echo inStep))
  · rfl

theorem echoRecorded_expires (due : s.plan.due = none) (echo : s.plan.echo = .running n repeats last) (late : 63 ≤ n)
    (inStep : s.plan.baseStanding = .inStep) :
    echoRecorded s u = u.raise .baseOutOfStep (activeBank s).epoch.toNat (echoDetail last) := by
  simp only [echoRecorded, due, echo, inStep, if_pos late]
  cases last <;> rfl

theorem echoRecorded_recording (s : State) : Recording (echoRecorded s) := by
  intro p u
  unfold echoRecorded
  split
  · split
    · exact raise_recording _ _ _ p u
    · rfl
  · rfl

/-- The watch records what the statement names (R124). -/
theorem echoTick_agree (due : s.plan.due = none) (echoes : u.plan.echo = s.plan.echo)
    (standings : u.plan.baseStanding = s.plan.baseStanding) (active : activeBank u = activeBank s) :
    Agree (echoRecorded s u) (echoTick u) := by
  cases echo : s.plan.echo with
  | idle =>
    rw [echoRecorded_stands (fun _ _ _ running => nomatch echo.symm.trans running), echoTick_idle (echoes.trans echo)]
    exact .refl u
  | running n repeats last =>
    obtain early | late := Nat.lt_or_ge n 63
    · have counted : ∀ m r e, s.plan.echo = .running m r e → s.plan.baseStanding = .inStep → m < 63 := by
        intro m r e running _
        cases echo.symm.trans running
        exact early
      rw [echoRecorded_stands counted, echoTick_counts (echoes.trans echo) early]
      exact agree_of_only (modPlan_only _ u)
    · rw [echoTick_expires (echoes.trans echo) late]
      cases standing : s.plan.baseStanding with
      | lagging =>
        rw [echoRecorded_stands (fun _ _ _ _ inStep => nomatch standing.symm.trans inStep),
          echoExpire_lagging (standings.trans standing)]
        exact agree_of_only ((announceInForce_only u).andThen (modPlan_only _ _) (rs := [.announce, .plan]))
      | inStep =>
        have lagged : Agree u ((announceInForce u).modPlan fun p => { p with baseStanding := .lagging }) :=
          agree_of_only ((announceInForce_only u).andThen (modPlan_only _ _) (rs := [.announce, .plan]))
        rw [echoRecorded_expires due echo late standing, echoExpire_inStep (standings.trans standing), active]
        exact ((raise_recording _ _ _).agree lagged).trans (agree_of_only (modPlan_only _ _))

/-! ### The side lines and the class countdown -/

theorem auxLeave_side (i : SideId) (s : State) :
    (auxLeave s).side i = { s.side i with inQueue := (s.side i).inQueue.drop 4 } := by
  cases i <;> rfl

/-- The proposal that the hand-over of a frame leaves (R144). -/
def proposalCounted : Proposal → Proposal
  | .counting (n + 1) k b => .counting n k b
  | p => p

theorem classCountTick_link (s : State) :
    (classCountTick s).link = { s.link with proposal := proposalCounted s.link.proposal } := by
  unfold classCountTick
  split
  · rename_i h
    rw [modLink_link, h]
    rfl
  · rename_i no_countdown
    have stands : proposalCounted s.link.proposal = s.link.proposal := by
      unfold proposalCounted
      split
      · exact absurd ‹_› (no_countdown _ _ _)
      · rfl
    rw [stands]

/-! ### The hand-over -/

/-- The hand-over but for the echo watch. -/
def handedCounted (s : State) : State :=
  auxLeave ((classCountTick (countdownTick s)).modLink fun c => { c with pendingRefusal := false })

theorem handOverUp_eq (switched : Bool) (s : State) :
    handOverUp switched s = if switched then handedCounted s else echoTick (handedCounted s) := rfl

theorem handedCounted_only (s : State) : OnlyChanges [.plan, .link, .sides] s (handedCounted s) :=
  (((countdownTick_only s).andThen (classCountTick_only _) (rs := [.plan, .link, .sides])).andThen
    (modLink_only _ _) (rs := [.plan, .link, .sides])).andThen (auxLeave_only _)

theorem handedCounted_plan (s : State) : (handedCounted s).plan = { s.plan with
    countdown := s.plan.countdown - 1, due := if s.plan.countdown = 1 then some .counted else s.plan.due } := by
  rw [← countdownTick_plan]
  exact Eq.trans (auxLeave_only _ .plan (by decide)) (classCountTick_only _ .plan (by decide))

theorem handedCounted_link (s : State) : (handedCounted s).link =
    { s.link with proposal := proposalCounted s.link.proposal, pendingRefusal := false } := by
  have left : (handedCounted s).link = _ := auxLeave_only _ .link (by decide)
  have counted : (countdownTick s).link = s.link := countdownTick_only s .link (by decide)
  rw [left, modLink_link, classCountTick_link, counted]

theorem handedCounted_side (i : SideId) (s : State) :
    (handedCounted s).side i = { s.side i with inQueue := (s.side i).inQueue.drop 4 } := by
  have sides : ((classCountTick (countdownTick s)).modLink fun c => { c with pendingRefusal := false }).sides = s.sides :=
    Eq.trans (classCountTick_only _ .sides (by decide)) (countdownTick_only s .sides (by decide))
  rw [handedCounted, auxLeave_side, State.side, State.side, sides]

/-- The plan store and the queue of the announcements are all that the echo watch touches but for its record. -/
theorem handOverUp_only_counted (switched : Bool) (s : State) :
    OnlyChanges planParts (handedCounted s) (handOverUp switched s) := by
  rw [handOverUp_eq]
  exact ite_only (.refl _ _) (echoTick_only _)

theorem handOverUp_plan (switched : Bool) (s : State) : (handOverUp switched s).plan = { (handedCounted s).plan with
    echo := (handOverUp switched s).plan.echo, baseStanding := (handOverUp switched s).plan.baseStanding } := by
  cases switched with
  | true => rfl
  | false => exact echoTick_plan _

theorem handOverUp_joins (switched : Bool) (s : State) : NoticesJoin s (handOverUp switched s) := by
  have counted : NoticesJoin s (handedCounted s) := .only (handedCounted_only s)
  rw [handOverUp_eq]
  exact .ite counted (counted.trans (echoTick_joins _))

end Sys2Proof.Proofs

/-! # Proofs: the carriage frame of a reference tick in UP (O41)

The frame is built from the prepared state with its slots filled, handed over, and counted. The verdict of the period and the lanes
that count the tick come after it (R83, R116, R136; log 4). -/

namespace Sys2Proof.Proofs

open Sys2Proof.Machine Sys2Proof.Claims

variable {s t u w : State} {l : LaneId}

/-! ### The state that the frame is built from -/

/-- The prepared state with its slots filled (R83). -/
def upFilled (s : State) : State := (fill (prepared s)).2

/-- The carriage frame that a tick in UP builds (R82). -/
def upBuilt (s : State) : Frame :=
  { header := { headerOf (upFilled s) (upFilled s).builder.classApplied with
      classCountdown := classCountOf (upFilled s).link.proposal, classField := upClassMessage (upFilled s).link }
    control := (chooseCell (upFilled s)).1
    aux := auxTaken (upFilled s)
    slots := (fill (prepared s)).1 }

/-- The frame has gone to the line. -/
def upSent (s : State) : State := handToLine (upBuilt s) (chooseCell (upFilled s)).2

theorem tickFramed_upSent (up : s.link.state = .up) : tickFramed s = handOverUp s.plan.due.isSome (upSent s) := by
  rw [tickFramed_up up, carriageFrame_eq, carriageBuilt, carriageFilled, prepareUp_eq]
  rfl

/-- What the preparation and the fill can change. -/
abbrev filledParts : List Part := [.link, .builder, .lanes, .poolFree, .events, .notices, .counters]

theorem upFilled_only (s : State) : OnlyChanges filledParts (frameBegun s) (upFilled s) :=
  ((upApplied_only s).andThen (prepared_only s) (rs := filledParts)).andThen (fill_only _)

theorem upFilled_plan (s : State) : (upFilled s).plan = (frameBegun s).plan := upFilled_only s .plan (by decide)

theorem upFilled_link (s : State) : (upFilled s).link = (upApplied s).link :=
  Eq.trans (fill_only _ .link (by decide)) (prepared_link s)

/-- What the assessment settles and the fill leaves of the builder. -/
theorem upFilled_builder (s : State) :
    (upFilled s).builder = { (prepared s).builder with runtimes := (upFilled s).builder.runtimes } := fill_builder _

theorem upFilled_counts (s : State) : (upFilled s).builder.classApplied = (upApplied s).link.classInForce ∧
    (upFilled s).builder.firstInUp = false ∧ (upFilled s).builder.frameCount = s.builder.frameCount + 1 := by
  rw [upFilled_builder]
  exact prepared_builder s

theorem upFilled_aligned (law : BuilderLaw s) : Aligned (upFilled s) := by
  have prepared_law : BuilderLaw (prepared s) := by
    rw [← prepareUp_eq]
    refine prepareUp_builderLaw (frameBegun_aligned law) fun unswitched => ?_
    rw [frameBegun_of_not_due (by simpa using unswitched)]
    exact law
  exact aligned_of_builderLaw (fill_builderLaw prepared_law)

theorem upFilled_joins (s : State) : NoticesJoin (frameBegun s) (upFilled s) := by
  have joins := prepareUp_joins s.plan.due.isSome (frameBegun s)
  rw [prepareUp_eq] at joins
  exact joins.trans (.only (fill_only _))

theorem upFilled_thins (s : State) : Thins (frameBegun s) (upFilled s) := by
  have thins := prepareUp_thins s.plan.due.isSome (frameBegun s)
  rw [prepareUp_eq] at thins
  exact thins.trans (fill_thins _)

theorem upFilled_sameCells (due : s.plan.due = none) : SameCells (atFrame s) (upFilled s) := by
  have only := upFilled_only s
  have joins := upFilled_joins s
  have thins := upFilled_thins s
  rw [frameBegun_of_not_due due] at only joins thins
  exact ⟨only .announce (by decide), only .responses (by decide), only .relayOut (by decide), joins,
    only .plan (by decide), (upFilled_counts s).2.2, fun l => by rw [thins.with_queue l]⟩

/-! ### The frame -/

theorem upBuilt_class (s : State) : (upBuilt s).header.cls = (upApplied s).link.classInForce := (upFilled_counts s).1

/-- The class of the frame and its class message, once a due change has taken effect (R142, R143, R144). -/
theorem upBuilt_classMessage (s : State) :
    (upBuilt s).header.cls = (match s.link.proposal with
      | .counting 0 k _ => k
      | _ => s.link.classInForce) ∧
    (upBuilt s).header.classCountdown = (match s.link.proposal with
      | .counting n _ _ => n
      | _ => 0) ∧
    (upBuilt s).header.classField = (match s.link.proposal with
      | .proposing k => .propose k
      | .counting (_ + 1) k true => .agree k
      | .counting (_ + 1) _ false => .none
      | _ => if s.link.pendingRefusal then .refuse else .none) := by
  have countdown : (upBuilt s).header.classCountdown = classCountOf (upApplied s).link.proposal := by
    rw [← upFilled_link]; rfl
  have message : (upBuilt s).header.classField = upClassMessage (upApplied s).link := by rw [← upFilled_link]; rfl
  rw [upBuilt_class, countdown, message]
  cases proposal : s.link.proposal with
  | idle =>
    rw [upApplied_link_stands (fun _ _ h => nomatch proposal.symm.trans h), upClassMessage, proposal]
    exact ⟨rfl, rfl, rfl⟩
  | proposing k =>
    rw [upApplied_link_stands (fun _ _ h => nomatch proposal.symm.trans h), upClassMessage, proposal]
    exact ⟨rfl, rfl, rfl⟩
  | counting n k b =>
    cases n with
    | zero =>
      rw [upApplied_link_due proposal]
      exact ⟨rfl, rfl, rfl⟩
    | succ n =>
      rw [upApplied_link_stands (fun _ _ h => nomatch proposal.symm.trans h), upClassMessage, proposal]
      cases b <;> exact ⟨rfl, rfl, rfl⟩

/-- The proposal that the tick leaves: none after the change, or one frame less to count (R144). -/
theorem upApplied_proposalCounted (s : State) : proposalCounted (upApplied s).link.proposal =
    (match s.link.proposal with
      | .counting 0 _ _ => .idle
      | .counting (n + 1) k b => .counting n k b
      | p => p) := by
  by_cases due : ∃ k b, s.link.proposal = .counting 0 k b
  · obtain ⟨k, b, proposal⟩ := due
    rw [upApplied_link_due proposal, proposal]
    rfl
  · rw [upApplied_link_stands fun k b proposal => due ⟨k, b, proposal⟩]
    cases proposal : s.link.proposal with
    | idle => rfl
    | proposing k => rfl
    | counting n k b =>
      cases n with
      | zero => exact absurd ⟨k, b, proposal⟩ due
      | succ n => rfl

/-! ### The frame event -/

/-- The cell leaves its queue and the frame goes to the line. -/
theorem upSent_only_chosen (s : State) : OnlyChanges [.lineOut, .rx] (chooseCell (upFilled s)).2 (upSent s) :=
  handToLine_only _ _

theorem upSent_only (s : State) : OnlyChanges [.announce, .responses, .relayOut, .notices, .lineOut, .rx] (upFilled s)
    (upSent s) := (chooseCell_only _).andThen (upSent_only_chosen s)

/-- The watch that counts the frame is the one that the tick found. -/
theorem upCounted_watch (due : s.plan.due = none) :
    (handedCounted (upSent s)).plan.echo = s.plan.echo ∧
    (handedCounted (upSent s)).plan.baseStanding = s.plan.baseStanding ∧
    activeBank (handedCounted (upSent s)) = activeBank s := by
  have sent : (upSent s).plan = (frameBegun s).plan :=
    Eq.trans (upSent_only s .plan (by decide)) (upFilled_plan s)
  have plan := handedCounted_plan (upSent s)
  rw [sent, frameBegun_of_not_due due] at plan
  exact ⟨by rw [plan]; rfl, by rw [plan]; rfl, activeBank_congr (by rw [plan]; rfl) (by rw [plan]; rfl)⟩

/-- What the hand-over of a carriage frame can change. -/
abbrev handOverParts : List Part := [.plan, .link, .sides, .announce, .events, .notices, .counters]

section
variable (up : s.link.state = .up)
include up

theorem upFramed_only_counted : OnlyChanges planParts (handedCounted (upSent s)) (tickFramed s) := by
  rw [tickFramed_upSent up]
  exact handOverUp_only_counted _ _

theorem upFramed_only_sent : OnlyChanges handOverParts (upSent s) (tickFramed s) :=
  (handedCounted_only _).andThen (upFramed_only_counted up)

theorem upFramed_link : (tickFramed s).link = { (upApplied s).link with
    proposal := proposalCounted (upApplied s).link.proposal, pendingRefusal := false } := by
  have counted : (tickFramed s).link = (handedCounted (upSent s)).link := upFramed_only_counted up .link (by decide)
  have sent : (upSent s).link = (upFilled s).link := upSent_only s .link (by decide)
  rw [counted, handedCounted_link, sent, upFilled_link]

theorem upFramed_plan : (tickFramed s).plan = { (frameBegun s).plan with
    countdown := s.plan.countdown - 1, due := if s.plan.countdown = 1 then some .counted else none,
    echo := (tickFramed s).plan.echo, baseStanding := (tickFramed s).plan.baseStanding } := by
  have sent : (upSent s).plan = (frameBegun s).plan :=
    Eq.trans (upSent_only s .plan (by decide)) (upFilled_plan s)
  have plan := handOverUp_plan s.plan.due.isSome (upSent s)
  rw [handedCounted_plan, sent, frameBegun_countdown, frameBegun_due, ← tickFramed_upSent up] at plan
  exact plan

theorem upFramed_activeBank : activeBank (tickFramed s) = activeBank (frameBegun s) :=
  activeBank_congr (by rw [upFramed_plan up]) (by rw [upFramed_plan up])

theorem upFramed_side (i : SideId) :
    (tickFramed s).side i = { s.side i with inQueue := (s.side i).inQueue.drop 4 } := by
  have counted : (tickFramed s).sides = (handedCounted (upSent s)).sides := upFramed_only_counted up .sides (by decide)
  have sent : (upSent s).sides = s.sides := Eq.trans (upSent_only s .sides (by decide))
    (Eq.trans (upFilled_only s .sides (by decide)) (frameBegun_only s .sides (by decide)))
  rw [State.side, counted, ← State.side, handedCounted_side, State.side, sent, ← State.side]

theorem upFramed_lane (l : LaneId) : (tickFramed s).lane l = (upFilled s).lane l :=
  lane_congr (Eq.trans (upFramed_only_sent up .lanes (by decide)) (upSent_only s .lanes (by decide))) l

/-- A watch that did not begin within the event counts the frame (R124). -/
theorem upFramed_unswitched (due : s.plan.due = none) : tickFramed s = echoTick (handedCounted (upSent s)) := by
  rw [tickFramed_upSent up, due]
  rfl

theorem upTick_cellLeaves : CellLeaves s (referenceTick s) := by
  have sent := upFramed_only_sent up
  have chosen := upSent_only_chosen s
  refine cellLeaves_of (w := upFilled s) upFilled_sameCells ?_ ?_ fun _ => ⟨?_, fun early => ?_⟩
  · exact Eq.trans (sent .responses (by decide)) (chosen .responses (by decide))
  · rw [tickFramed_upSent up]
    exact (NoticesJoin.only chosen).trans (handOverUp_joins _ _)
  · exact Eq.trans (sent .relayOut (by decide)) (chosen .relayOut (by decide))
  · have counted : (handedCounted (upSent s)).control.announce = (chooseCell (upFilled s)).2.control.announce :=
      Eq.trans (handedCounted_only _ .announce (by decide)) (chosen .announce (by decide))
    rw [← counted]
    cases due : s.plan.due with
    | some d => rw [tickFramed_upSent up, due]; rfl
    | none =>
      obtain ⟨echo, -, -⟩ := upCounted_watch due
      rw [upFramed_unswitched up due]
      exact echoTick_announce_early (by rwa [echo])

/-! ### The rest of the tick -/

theorem upTick_builder : (referenceTick s).builder = (upFilled s).builder :=
  Eq.trans (referenceTick_only_framed s .builder (by decide))
    (Eq.trans (upFramed_only_sent up .builder (by decide)) (upSent_only s .builder (by decide)))

theorem upTick_handed : (referenceTick s).lineOut = some (upBuilt s) ∧
    (referenceTick s).rx.expected = (upBuilt s).header.cls ∧ (referenceTick s).rx.period = .empty := by
  have rx : (tickFramed s).rx = (upSent s).rx := upFramed_only_sent up .rx (by decide)
  refine ⟨?_, ?_, ?_⟩
  · exact Eq.trans (referenceTick_only_framed s .lineOut (by decide)) (upFramed_only_sent up .lineOut (by decide))
  · rw [referenceTick_rx, rx]; rfl
  · rw [referenceTick_rx]

/-- The active plan stands even where the verdict drops the link. -/
theorem upTick_activeBank : activeBank (referenceTick s) = activeBank (frameBegun s) := by
  rw [← upFramed_activeBank up]
  obtain stands | drops := referenceTick_stands_or_drops (s := s) (by rw [up]; rfl)
  · exact activeBank_congr (by rw [stands.plan]) (by rw [stands.plan])
  · exact drops.active

/-- What the tick leaves of the builder: assessed where a switch, a new class or the first frame asks for it (R102). -/
theorem upTick_assessment :
    (¬ Assesses s → (referenceTick s).builder.overcommit = s.builder.overcommit ∧
      (referenceTick s).builder.assessedTotal = s.builder.assessedTotal ∧
      (referenceTick s).builder.runtimes.map (fun r => r.carry) = s.builder.runtimes.map fun r => r.carry) ∧
    (Assesses s →
      let laddered := ladder (activeBank (referenceTick s)).entries (capacity16 (upApplied s).link.classInForce)
      (referenceTick s).builder.assessedTotal = laddered.2 ∧
      (referenceTick s).builder.overcommit = decide (capacity16 (upApplied s).link.classInForce < laddered.2) ∧
      (BuilderLaw s → (referenceTick s).builder.runtimes.map (fun r => r.carry) = laddered.1)) := by
  have carries : (upFilled s).builder.runtimes.map (·.carry) = (prepared s).builder.runtimes.map (·.carry) :=
    fill_carries _
  have total : (upFilled s).builder.assessedTotal = (prepared s).builder.assessedTotal := by rw [upFilled_builder]
  have overcommit : (upFilled s).builder.overcommit = (prepared s).builder.overcommit := by rw [upFilled_builder]
  rw [upTick_builder up, upTick_activeBank up, carries, total, overcommit]
  refine ⟨fun h => ?_, fun h => ?_⟩
  · obtain ⟨same_flag, same_total, runtimes⟩ := prepared_builder_unassessed h
    exact ⟨same_flag, same_total, by rw [runtimes]⟩
  · obtain ⟨new_total, new_flag, runtimes⟩ := prepared_builder_assessed h
    exact ⟨new_total, new_flag, fun law => runtimes (frameBegun_aligned law)⟩

/-! ### While the link stays up -/

section
variable (stays : (referenceTick s).link.state = .up)
include stays

theorem upTick_stands : FrameStands (tickFramed s) (referenceTick s) := referenceTick_stays (stays.trans up.symm)

theorem upTick_link : (referenceTick s).link.classInForce = (upBuilt s).header.cls ∧
    (referenceTick s).link.pendingRefusal = false ∧
    (referenceTick s).link.proposal = proposalCounted (upApplied s).link.proposal ∧
    (referenceTick s).link.timers = (prepared s).link.timers := by
  rw [(upTick_stands up stays).link, upFramed_link up, upBuilt_class, prepared_link]
  exact ⟨rfl, rfl, rfl, rfl⟩

theorem upTick_countdown : (referenceTick s).plan.countdown = s.plan.countdown - 1 ∧
    (referenceTick s).plan.due = if s.plan.countdown = 1 then some .counted else none := by
  rw [(upTick_stands up stays).plan, upFramed_plan up]
  exact ⟨rfl, rfl⟩

theorem upTick_echo (due : s.plan.due = none) :
    (s.plan.echo = .idle → (referenceTick s).plan.echo = .idle) ∧
    ∀ n repeats last, s.plan.echo = .running n repeats last →
      (n < 63 → (referenceTick s).plan.echo = .running (n + 1) repeats last ∧
        (referenceTick s).plan.baseStanding = s.plan.baseStanding) ∧
      (63 ≤ n → (referenceTick s).plan.echo = .running 0 (min 65535 (repeats + 1)) last ∧
        (referenceTick s).plan.baseStanding = .lagging ∧
        (referenceTick s).control.announce = announcement .inForce (activeBank s).entries.length) := by
  obtain ⟨echo, standing, active⟩ := upCounted_watch due
  have stands := upTick_stands up stays
  rw [stands.plan, stands.announce, upFramed_unswitched up due]
  refine ⟨fun idle => ?_, fun n repeats last running => ⟨fun early => ?_, fun late => ?_⟩⟩
  · rw [echoTick_idle (echo.trans idle), echo, idle]
  · rw [echoTick_counts (echo.trans running) early, ← standing]
    exact ⟨rfl, rfl⟩
  · obtain ⟨plan, announce⟩ := echoExpire_leaves repeats last (handedCounted (upSent s))
    rw [echoTick_expires (echo.trans running) late, plan, announce, active]
    exact ⟨rfl, rfl, rfl⟩

end

/-! ### The records -/

/-- The frame event records the expiry of the watch, and nothing else after the fill (R124). -/
theorem upFramed_agree : Agree (echoRecorded s (chooseCell (upFilled s)).2) (tickFramed s) := by
  have counted : Agree (chooseCell (upFilled s)).2 (handedCounted (upSent s)) :=
    agree_of_only ((upSent_only_chosen s).andThen (handedCounted_only _) (rs := [.lineOut, .rx, .plan, .link, .sides]))
  refine ((echoRecorded_recording s).agree counted).trans ?_
  cases due : s.plan.due with
  | some d =>
    rw [echoRecorded_of_due due, tickFramed_upSent up, due]
    exact .refl _
  | none =>
    obtain ⟨echo, standing, active⟩ := upCounted_watch due
    rw [upFramed_unswitched up due]
    exact echoTick_agree due echo standing active

end

/-- A verdict that leaves the link up records nothing (R136). -/
theorem takeVerdict_agree (stays : (takeVerdict u.rx.period u).link.state = .up) :
    Agree u (takeVerdict u.rx.period u) := by
  cases met : criterionMet u.link.criteria (superviseWith u.rx.period u.link.supervision) with
  | none =>
    rw [takeVerdict_none met]
    exact agree_of_only (modLink_only _ u)
  | some cause =>
    rw [takeVerdict_some met, (dropToDown_link cause _).1] at stays
    cases stays

/-- With the link up, the verdict counts MISSING alone (R149; log 28). -/
theorem superviseTick_agree (stays : (superviseTick u).link.state = .up) :
    Agree (if u.rx.period = .empty then u.bump (.link .framesMissing) else u) (superviseTick u) := by
  rw [superviseTick_eq] at stays ⊢
  by_cases missing : u.rx.period = .empty
  · have link : ((takeVerdict u.rx.period u).bump (.link .framesMissing)).link = (takeVerdict u.rx.period u).link :=
      bump_only _ _ .link (by decide)
    rw [if_pos missing, link] at stays
    rw [if_pos missing, if_pos missing]
    exact (bump_recording _).agree (takeVerdict_agree stays)
  · rw [if_neg missing] at stays
    rw [if_neg missing, if_neg missing]
    exact takeVerdict_agree stays

/-! ### Lanes that count the tick (R8) -/

/-- A lane that has counted a tick without a tile. -/
def silenceCounted (x : Lane) : Lane :=
  { x with silence := if x.state = .running then x.silence + 1 else x.silence }

/-- No lane is at its eighth tick. -/
def NoneSilent (s : State) : Prop := ∀ l, (s.lane l).state = .running → (s.lane l).silence < 7

theorem silenceTick_counts (h : (s.lane l).state = .running → (s.lane l).silence < 7) :
    silenceTick l s = s.modLane l silenceCounted := by
  obtain ⟨still, eq⟩ | ⟨running, -, eq⟩ | ⟨running, late, -⟩ := silenceTick_cases l s
  · have same : silenceCounted (s.lane l) = s.lane l := by rw [silenceCounted, if_neg still]
    have modified : s.modLane l silenceCounted = setLane l (silenceCounted (s.lane l)) s := rfl
    rw [eq, modified, same, setLane_self]
  · have counted : silenceCounted (s.lane l) = { s.lane l with silence := (s.lane l).silence + 1 } := by
      rw [silenceCounted, if_pos running]
    have modified : s.modLane l silenceCounted = setLane l (silenceCounted (s.lane l)) s := rfl
    rw [eq, modified, counted]
    rfl
  · exact absurd (h running) (by omega)

/-- Lanes that count leave each other alone. -/
theorem each_silenceTick {ls : List LaneId} (distinct : ls.Nodup)
    (h : ∀ l ∈ ls, (s.lane l).state = .running → (s.lane l).silence < 7) :
    State.each silenceTick ls s = State.each (fun l s => s.modLane l silenceCounted) ls s := by
  induction ls generalizing s with
  | nil => rfl
  | cons l ls ih =>
    obtain ⟨fresh, distinct⟩ := List.nodup_cons.mp distinct
    rw [State.each, State.each, silenceTick_counts (h l List.mem_cons_self)]
    refine ih distinct fun k hk => ?_
    rw [lane_modLane_other l k _ s (fun same => fresh (same ▸ hk))]
    exact h k (List.mem_cons_of_mem _ hk)

section
variable (none_silent : NoneSilent (tickJudged s))
include none_silent

theorem tickSilenced_counts : OnlyChanges [.lanes] (tickJudged s) (tickSilenced s) ∧
    ∀ l, (tickSilenced s).lane l = silenceCounted ((tickJudged s).lane l) := by
  rw [tickSilenced, each_silenceTick (by decide) fun l _ => none_silent l]
  exact ⟨each_only (fun l => modLane_only l _) _ _, each_lane (view := id) (fun l => lane_modLane_same l _)
    (fun k l u other => lane_modLane_other l k _ u other) _⟩

/-- Where no lane falls silent, the lanes alone change after the verdict, but for the lamps and the period. -/
theorem referenceTick_only_counts : OnlyChanges [.lanes, .tally, .rx, .refWatch] (tickJudged s) (referenceTick s) := by
  rw [referenceTick_eq]
  exact ((tickSilenced_counts none_silent).1.andThen (tallyTick_only _) (rs := [.lanes, .tally])).andThen
    (tickEnded_only _)

theorem referenceTick_lane_counts (l : LaneId) : (referenceTick s).lane l = silenceCounted ((tickFramed s).lane l) := by
  have last : (referenceTick s).lane l = (tickSilenced s).lane l := by
    rw [referenceTick_eq, tickEnded_lane]
    exact lane_congr (tallyTick_only _ .lanes (by decide)) l
  rw [last, (tickSilenced_counts none_silent).2, lane_congr (tickJudged_only s .lanes (by decide))]

end

/-- The frame event and the verdict leave the silence counts. -/
theorem tickJudged_noneSilent (none_silent : NoneSilent s) : NoneSilent (tickJudged s) := by
  intro l
  rw [lane_congr (tickJudged_only s .lanes (by decide)), (tickFramed_thins s).with_queue l]
  exact none_silent l

section
variable (up : s.link.state = .up) (none_silent : NoneSilent s)
include up none_silent

/-- The lanes of the fill count the tick, and the pool and the groups stand (R8). -/
theorem upTick_unsilenced : (referenceTick s).poolFree = (upFilled s).poolFree ∧ (referenceTick s).release = s.release ∧
    ∀ l, (referenceTick s).lane l = { (upFilled s).lane l with
      silence := if (s.lane l).state = .running then (s.lane l).silence + 1 else (s.lane l).silence } := by
  have judged := tickJudged_noneSilent none_silent
  have ended : OnlyChanges (.lanes :: .tally :: .rx :: .refWatch :: dropParts) (tickFramed s) (referenceTick s) :=
    (tickJudged_only s).andThen (referenceTick_only_counts judged)
  have sent : OnlyChanges (.responses :: .relayOut :: .lineOut :: .rx :: handOverParts) (upFilled s) (tickFramed s) :=
    (upSent_only s).andThen (upFramed_only_sent up)
  refine ⟨Eq.trans (ended .poolFree (by decide)) (sent .poolFree (by decide)), ?_, fun l => ?_⟩
  · exact Eq.trans (ended .release (by decide)) (Eq.trans (sent .release (by decide))
      (Eq.trans (upFilled_only s .release (by decide)) (frameBegun_only s .release (by decide))))
  · have same := (tickFramed_thins s).with_queue l
    rw [upFramed_lane up] at same
    rw [referenceTick_lane_counts judged, upFramed_lane up, silenceCounted, same]

/-- With the link up, the tick records the expiry of the watch and a MISSING verdict alone (R124, R149; log 28). -/
theorem upTick_records (stays : (referenceTick s).link.state = .up) :
    let handed := echoRecorded s (chooseCell (upFilled s)).2
    SameRecords (if s.rx.period = .empty then handed.bump (.link .framesMissing) else handed) (referenceTick s) := by
  intro handed
  have judged : tickJudged s = superviseTick (tickFramed s) := if_pos (by rw [up]; rfl)
  have counts := referenceTick_only_counts (tickJudged_noneSilent none_silent)
  have period : (tickFramed s).rx.period = s.rx.period := (tickFramed_supervised s).period
  have link : (referenceTick s).link = (tickJudged s).link := counts .link (by decide)
  have supervised := superviseTick_agree (u := tickFramed s) (by rw [← judged, ← link, stays])
  have framed : Agree handed (tickFramed s) := upFramed_agree up
  have ended : Agree (superviseTick (tickFramed s)) (referenceTick s) := judged ▸ agree_of_only counts
  rw [period] at supervised
  by_cases missing : s.rx.period = .empty
  · rw [if_pos missing] at supervised ⊢
    exact ((((bump_recording _).agree framed).trans supervised).trans ended).1
  · rw [if_neg missing] at supervised ⊢
    exact ((framed.trans supervised).trans ended).1

end

/-! ### The statement -/

/-- What a tick in UP can change. -/
abbrev upTickParts : List Part :=
  [.plan, .builder, .lanes, .poolFree, .announce, .events, .notices, .counters, .responses, .relayOut, .lineOut, .rx, .link,
   .sides, .refWatch, .tally, .release]

theorem upTick_only (up : s.link.state = .up) : OnlyChanges upTickParts (atFrame s) (referenceTick s) :=
  ((((frameBegun_only s).andThen (upFilled_only s) (rs := upTickParts)).andThen (upSent_only s) (rs := upTickParts)).andThen
    (upFramed_only_sent up) (rs := upTickParts)).andThen (referenceTick_only_framed s)

theorem upBuilt_aux (s : State) : (upBuilt s).aux = auxTaken s := by
  have sides : (upFilled s).sides = s.sides :=
    Eq.trans (upFilled_only s .sides (by decide)) (frameBegun_only s .sides (by decide))
  change auxTaken (upFilled s) = auxTaken s
  simp only [auxTaken, State.side, sides]

/-- Settles O41: the slots by their kinds, the header by what every frame has in common, the countdowns by the hand-over, and the
rest of the tick by what the verdict and the lanes leave of the frame event. -/
theorem aTickInUpBuildsACarriageFrame : Obligations.ATickInUpBuildsACarriageFrame := by
  intro s live up
  obtain ⟨line, expected, period⟩ := upTick_handed up
  obtain ⟨applied, first, frameCount⟩ := upFilled_counts s
  obtain ⟨cls, classCountdown, classField⟩ := upBuilt_classMessage s
  obtain ⟨length, no_pattern, kinds⟩ := fill_kinds (prepared s)
  obtain ⟨unassessed, assessed⟩ := upTick_assessment up
  have builder := upTick_builder up
  have whole := upTick_only up
  have header : CommonHeader s (referenceTick s) (upBuilt s) :=
    commonHeader_of (w := upFilled s) (upFilled_plan s) (by rw [builder]) (by rw [builder]) upFilled_aligned rfl
  have side (i : SideId) : (referenceTick s).side i = { s.side i with inQueue := (s.side i).inQueue.drop 4 } := by
    have sides : (referenceTick s).sides = (tickFramed s).sides := referenceTick_only_framed s .sides (by decide)
    rw [← upFramed_side up, State.side, sides, ← State.side]
  rw [(prepared_builder s).1, ← upBuilt_class] at length
  refine ⟨referenceTick s, upBuilt s, exec_referenceTick live, line, expected, by rw [builder, frameCount], frameCount, cls,
    classCountdown, classField, header, carriesCell_of upFilled_sameCells rfl, upTick_cellLeaves up, length, no_pattern,
    kinds, rfl, rfl, upBuilt_aux s, side, by rw [builder]; rfl, by rw [builder, first], ?_, fun stays => ?_,
    ⟨rfl, builder, fun none_silent => ?_⟩, referenceTick_refWatch s, period, whole .pins (by decide),
    whole .pending (by decide)⟩
  · rw [upBuilt_class]
    exact ⟨unassessed, fun assesses => ⟨(assessed assesses).1, (assessed assesses).2.1, fun _ => (assessed assesses).2.2⟩⟩
  · obtain ⟨classInForce, refusal, proposal, timers⟩ := upTick_link up stays
    obtain ⟨countdown, due⟩ := upTick_countdown up stays
    exact ⟨classInForce, refusal, proposal.trans (upApplied_proposalCounted s), countdown, due, timers,
      upTick_echo up stays⟩
  · obtain ⟨poolFree, release, lanes⟩ := upTick_unsilenced up none_silent
    exact ⟨poolFree, release, lanes, upTick_records up none_silent⟩

end Sys2Proof.Proofs

/-! # Proofs: the ladder (O37)

A pass over a priority level is a run of steps, each taken only while the total exceeds the capacity, so the ladder is one fold of
such conditional steps over the steps in their order (R104). The total once within the capacity stays there, so the steps that are
taken are the first ones; what they give up follows from the order of the steps. -/

namespace Sys2Proof.Proofs

open Sys2Proof.Machine Sys2Proof.Claims

variable {es : List Entry} {cs : List CarryState} {c16 t : Nat} {tail xs : List (Entry × CarryState)} {c : CarryState}
  {takes : Entry → Bool} {p : Fin 4} {ss : List (Nat × CarryState)}

/-! ### Steps that are taken while the total exceeds the capacity -/

/-- The carry states after steps that are all taken. -/
def allTaken (ss : List (Nat × CarryState)) (cs : List CarryState) : List CarryState :=
  ss.foldl (fun cs x => cs.set x.1 x.2) cs

/-- A step is taken only while the total exceeds the capacity. -/
def takeStep (es : List Entry) (c16 : Nat) (cs : List CarryState) (x : Nat × CarryState) : List CarryState :=
  if c16 < totalUnder es cs then cs.set x.1 x.2 else cs

theorem foldl_takeStep_of_fits (fits : ¬ c16 < totalUnder es cs) : ss.foldl (takeStep es c16) cs = cs :=
  List.foldl_fixed' (fun _ => if_neg fits) ss

/-- The steps taken are the first ones, and they end where the total fits or with the last step. -/
theorem foldl_takeStep_stops (es : List Entry) (c16 : Nat) (ss : List (Nat × CarryState)) (cs : List CarryState) :
    ∃ n ≤ ss.length, ss.foldl (takeStep es c16) cs = allTaken (ss.take n) cs ∧
      (∀ m < n, c16 < totalUnder es (allTaken (ss.take m) cs)) ∧
      (totalUnder es (ss.foldl (takeStep es c16) cs) ≤ c16 ∨ n = ss.length) := by
  induction ss generalizing cs with
  | nil => exact ⟨0, le_rfl, rfl, nofun, .inr rfl⟩
  | cons x ss ih =>
    by_cases exceeds : c16 < totalUnder es cs
    · obtain ⟨n, within, states, before, ends⟩ := ih (cs.set x.1 x.2)
      rw [List.foldl_cons, takeStep, if_pos exceeds]
      refine ⟨n + 1, Nat.succ_le_succ within, states, fun m earlier => ?_, ends.imp_right (congrArg Nat.succ)⟩
      cases m with
      | zero => exact exceeds
      | succ m => exact before m (Nat.lt_of_succ_lt_succ earlier)
    · rw [foldl_takeStep_of_fits exceeds]
      exact ⟨0, Nat.zero_le _, rfl, nofun, .inl (not_lt.mp exceeds)⟩

/-! ### What steps leave in a place -/

@[simp] theorem length_allTaken (ss : List (Nat × CarryState)) (cs : List CarryState) :
    (allTaken ss cs).length = cs.length := by
  induction ss generalizing cs with
  | nil => rfl
  | cons x ss ih => exact (ih _).trans List.length_set

/-- A state is the one at the start, or one that a step gave. -/
theorem mem_of_allTaken_getElem? {i : Nat} (h : (allTaken ss cs)[i]? = some c) : cs[i]? = some c ∨ (i, c) ∈ ss := by
  induction ss generalizing cs with
  | nil => exact .inl h
  | cons x ss ih =>
    rcases ih h with at_head | in_tail
    · rw [List.getElem?_set] at at_head
      split at at_head
      · next here =>
        split at at_head
        · obtain rfl := Option.some.inj at_head
          exact .inr (here ▸ List.mem_cons_self)
        · cases at_head
      · exact .inl at_head
    · exact .inr (List.mem_cons_of_mem _ in_tail)

/-- What a step in a place gave still holds at the end, if the later steps there keep it. -/
theorem allTaken_of_mem {P : CarryState → Prop} {i : Nat} {d : CarryState} (here : (i, d) ∈ ss)
    (lasts : ss.Pairwise fun x y => x.1 = y.1 → P x.2 → P y.2) (given : P d) (h : (allTaken ss cs)[i]? = some c) : P c := by
  induction ss generalizing cs with
  | nil => cases here
  | cons x ss ih =>
    obtain ⟨later, rest⟩ := List.pairwise_cons.mp lasts
    rcases List.mem_cons.mp here with rfl | in_tail
    · rcases mem_of_allTaken_getElem? (ss := ss) h with set | again
      · have inside : i < (cs.set i d).length := (List.getElem?_eq_some_iff.mp set).1
        rw [List.getElem?_set_self (List.length_set ▸ inside)] at set
        exact Option.some.inj set ▸ given
      · exact later _ again rfl given
    · exact ih in_tail rest h

/-! ### A pass over a level -/

/-- One pass over the entries in reverse plan order: those of a kind get a carry state, while the total exceeds the capacity. -/
def levelPass (takes : Entry → Bool) (c : CarryState) (c16 : Nat) :
    List (Entry × CarryState) → Nat → List (Entry × CarryState) × Nat
  | [], t => ([], t)
  | (e, old) :: rest, t =>
    if c16 < t ∧ takes e = true then
      let r := levelPass takes c c16 rest (t - (effShare e.share old - effShare e.share c))
      ((e, c) :: r.1, r.2)
    else
      let r := levelPass takes c c16 rest t
      ((e, old) :: r.1, r.2)

/-- The entries of a level that its thinning takes (R104). -/
def thinsAt (p : Fin 4) (e : Entry) : Bool := e.priority == p && e.thinning

/-- The entries of a level, which its shedding takes (R104). -/
def shedsAt (p : Fin 4) (e : Entry) : Bool := e.priority == p

theorem thinsAt_iff {e : Entry} : thinsAt p e = true ↔ e.priority = p ∧ e.thinning = true := by
  simp [thinsAt]

theorem shedsAt_iff {e : Entry} : shedsAt p e = true ↔ e.priority = p := by
  simp [shedsAt]

theorem thinLevel_eq_levelPass (carried : ∀ x ∈ xs, x.1.priority = p → x.2 = .carried) (t : Nat) :
    thinLevel p c16 xs t = levelPass (thinsAt p) .thinned c16 xs t := by
  induction xs generalizing t with
  | nil => rfl
  | cons x xs ih =>
    obtain ⟨e, old⟩ := x
    obtain ⟨head, rest⟩ := List.forall_mem_cons.mp carried
    rw [thinLevel, levelPass, ih rest, ih rest]
    simp only [thinsAt_iff]
    split
    · next taken => rw [show old = .carried from head taken.2.1]; rfl
    · rfl

theorem shedLevel_eq_levelPass (p : Fin 4) (c16 : Nat) (xs : List (Entry × CarryState)) (t : Nat) :
    shedLevel p c16 xs t = levelPass (shedsAt p) .shed c16 xs t := by
  induction xs generalizing t with
  | nil => rfl
  | cons x xs ih => rw [shedLevel, levelPass, ih, ih]; simp only [shedsAt_iff]; rfl

/-- A pass leaves the entries that it does not take. -/
theorem mem_of_mem_levelPass {y : Entry × CarryState} (other : takes y.1 = false)
    (h : y ∈ (levelPass takes c c16 xs t).1) : y ∈ xs := by
  induction xs generalizing t with
  | nil => exact h
  | cons x xs ih =>
    unfold levelPass at h
    split at h
    · next taken =>
      rcases List.mem_cons.mp h with rfl | in_tail
      · rw [other] at taken
        cases taken.2
      · exact List.mem_cons_of_mem _ (ih in_tail)
    · exact (List.mem_cons.mp h).elim (· ▸ List.mem_cons_self) fun in_tail => List.mem_cons_of_mem _ (ih in_tail)

/-- The steps of a pass over the first entries of a plan, in reverse plan order. -/
def passSteps (es : List Entry) (takes : Entry → Bool) (c : CarryState) (k : Nat) : List (Nat × CarryState) :=
  ((List.range k).reverse.filter fun i => (es[i]?).any takes).map fun i => (i, c)

theorem passSteps_succ {k : Nat} {e : Entry} (here : es[k]? = some e) :
    passSteps es takes c (k + 1) = (if takes e = true then [(k, c)] else []) ++ passSteps es takes c k := by
  rw [passSteps, List.range_succ, List.reverse_append, List.reverse_singleton, List.singleton_append, List.filter_cons, here]
  by_cases taken : takes e = true <;> simp [taken, passSteps]

/-! ### A pass is its steps -/

/-- A plan's entries and carry states, with their total, as a pass has them: those still to come in reverse plan order, those
it has seen in plan order. -/
structure PassAt (es : List Entry) (cs : List CarryState) (seen : List (Entry × CarryState))
    (x : List (Entry × CarryState) × Nat) : Prop where
  entries : (x.1.reverse ++ seen).map Prod.fst = es
  states : (x.1.reverse ++ seen).map Prod.snd = cs
  total : totalUnder es cs = x.2

theorem totalUnder_pairs (zs : List (Entry × CarryState)) :
    totalUnder (zs.map Prod.fst) (zs.map Prod.snd) = (zs.map fun x => effShare x.1.share x.2).sum := by
  rw [totalUnder, List.zip_map', List.map_map]
  rfl

theorem passAt_cons {x : Entry × CarryState} : PassAt es cs tail (x :: xs, t) ↔ PassAt es cs (x :: tail) (xs, t) := by
  have same : (x :: xs).reverse ++ tail = xs.reverse ++ x :: tail := by simp
  exact ⟨fun h => ⟨same ▸ h.entries, same ▸ h.states, h.total⟩, fun h => ⟨same ▸ h.entries, same ▸ h.states, h.total⟩⟩

theorem PassAt.entry {e : Entry} {old : CarryState} (h : PassAt es cs ((e, old) :: tail) (xs, t)) :
    es[xs.length]? = some e := by
  rw [← h.entries]
  simp

/-- A step in the place of an entry changes the total by what the entry gives up. -/
theorem PassAt.set {e : Entry} {old : CarryState} (h : PassAt es cs ((e, old) :: tail) (xs, t))
    (lessens : effShare e.share c ≤ effShare e.share old) :
    PassAt es (cs.set xs.length c) ((e, c) :: tail) (xs, t - (effShare e.share old - effShare e.share c)) := by
  obtain ⟨entries, states, total⟩ := h
  have entries' : (xs.reverse ++ (e, c) :: tail).map Prod.fst = es := by rw [← entries]; simp
  have states' : (xs.reverse ++ (e, c) :: tail).map Prod.snd = cs.set xs.length c := by rw [← states]; simp
  refine ⟨entries', states', ?_⟩
  rw [← entries, ← states, totalUnder_pairs] at total
  rw [← entries', ← states', totalUnder_pairs]
  simp only [List.map_append, List.map_cons, List.sum_append, List.sum_cons] at total ⊢
  omega

/-- A pass is its steps, each taken while the total exceeds the capacity. -/
theorem PassAt.after_levelPass (lessens : ∀ x ∈ xs, takes x.1 = true → effShare x.1.share c ≤ effShare x.1.share x.2)
    (h : PassAt es cs tail (xs, t)) :
    PassAt es ((passSteps es takes c xs.length).foldl (takeStep es c16) cs) tail (levelPass takes c c16 xs t) := by
  induction xs generalizing cs tail t with
  | nil => exact h
  | cons x xs ih =>
    obtain ⟨e, old⟩ := x
    obtain ⟨head, rest⟩ := List.forall_mem_cons.mp lessens
    have here := passAt_cons.mp h
    rw [List.length_cons, passSteps_succ here.entry, List.foldl_append, levelPass]
    by_cases taken : c16 < t ∧ takes e = true
    · have step : takeStep es c16 cs (xs.length, c) = cs.set xs.length c := if_pos (lt_of_lt_of_eq taken.1 here.total.symm)
      rw [if_pos taken, if_pos taken.2, List.foldl_cons, List.foldl_nil, step]
      exact passAt_cons.mpr (ih rest (here.set (head taken.2)))
    · have stays : (if takes e = true then [(xs.length, c)] else []).foldl (takeStep es c16) cs = cs := by
        split
        · next takes => exact foldl_takeStep_of_fits fun exceeds => taken ⟨lt_of_lt_of_eq exceeds here.total, takes⟩
        · rfl
      rw [if_neg taken, stays]
      exact passAt_cons.mpr (ih rest here)

/-! ### The ladder is its steps -/

/-- The steps of a level: its thinning, then its shedding but for level 0 (R104). -/
def levelSteps (es : List Entry) (p : Fin 4) : List (Nat × CarryState) :=
  passSteps es (thinsAt p) .thinned es.length ++ if p = 0 then [] else passSteps es (shedsAt p) .shed es.length

theorem ladderSteps_eq (es : List Entry) : ladderSteps es = ([3, 2, 1, 0] : List (Fin 4)).flatMap (levelSteps es) := by
  have thins (p : Fin 4) (i : Nat) : ((es[i]?).any (·.thinning) && (es[i]?).any (·.priority == p)) =
      (es[i]?).any (thinsAt p) := by
    cases es[i]? with
    | none => rfl
    | some e => exact Bool.and_comm ..
  simp only [ladderSteps, List.filter_filter, thins]
  rfl

theorem PassAt.length {x : List (Entry × CarryState) × Nat} (h : PassAt es cs [] x) : x.1.length = es.length := by
  rw [← h.entries]
  simp

theorem PassAt.after_ladderLevel {x : List (Entry × CarryState) × Nat} (h : PassAt es cs [] x)
    (carried : ∀ y ∈ x.1, y.1.priority = p → y.2 = .carried) :
    PassAt es ((levelSteps es p).foldl (takeStep es c16) cs) [] (ladderLevel c16 x p) := by
  have lessens : ∀ y ∈ x.1, thinsAt p y.1 = true → effShare y.1.share .thinned ≤ effShare y.1.share y.2 := by
    intro y there thins
    rw [carried y there (thinsAt_iff.mp thins).1]
    simp only [effShare]
    omega
  have thinned := h.after_levelPass (c16 := c16) lessens
  rw [← thinLevel_eq_levelPass carried, h.length] at thinned
  rw [levelSteps, List.foldl_append, ladderLevel]
  by_cases top : p = 0
  · simp only [if_pos top]
    exact thinned
  · have shed := thinned.after_levelPass (c16 := c16) (takes := shedsAt p) (c := .shed) fun _ _ _ => Nat.zero_le _
    rw [← shedLevel_eq_levelPass, thinned.length] at shed
    simp only [if_neg top]
    exact shed

/-- A level leaves the entries of the others. -/
theorem mem_of_mem_ladderLevel {x : List (Entry × CarryState) × Nat} {y : Entry × CarryState}
    (carried : ∀ y ∈ x.1, y.1.priority = p → y.2 = .carried) (other : y.1.priority ≠ p)
    (h : y ∈ (ladderLevel c16 x p).1) : y ∈ x.1 := by
  have not_thins : thinsAt p y.1 = false := by simp [thinsAt, other]
  have not_sheds : shedsAt p y.1 = false := by simp [shedsAt, other]
  unfold ladderLevel at h
  rw [thinLevel_eq_levelPass carried] at h
  dsimp only at h
  split at h
  · exact mem_of_mem_levelPass not_thins h
  · rw [shedLevel_eq_levelPass] at h
    exact mem_of_mem_levelPass not_thins (mem_of_mem_levelPass not_sheds h)

/-- Levels one after another, each over entries that are still carried. -/
theorem PassAt.after_ladderLevels {ps : List (Fin 4)} (distinct : ps.Nodup) {x : List (Entry × CarryState) × Nat}
    (h : PassAt es cs [] x) (carried : ∀ y ∈ x.1, y.1.priority ∈ ps → y.2 = .carried) :
    PassAt es ((ps.flatMap (levelSteps es)).foldl (takeStep es c16) cs) [] (ps.foldl (ladderLevel c16) x) := by
  induction ps generalizing cs x with
  | nil => exact h
  | cons p ps ih =>
    obtain ⟨new, distinct⟩ := List.nodup_cons.mp distinct
    have here : ∀ y ∈ x.1, y.1.priority = p → y.2 = .carried := fun y hy at_p => carried y hy (at_p ▸ List.mem_cons_self)
    rw [List.flatMap_cons, List.foldl_append, List.foldl_cons]
    refine ih distinct (h.after_ladderLevel here) fun y hy later => ?_
    exact carried y (mem_of_mem_ladderLevel here (fun at_p => new (at_p ▸ later)) hy) (List.mem_cons_of_mem _ later)

theorem totalUnder_carried (es : List Entry) : totalUnder es (es.map fun _ => .carried) = shareTotal es := by
  induction es with
  | nil => rfl
  | cons e es ih => exact congrArg (e.share + ·) ih

/-- The ladder is its steps in their order, each taken while the total exceeds the capacity (R104). -/
theorem ladder_eq_steps (es : List Entry) (c16 : Nat) :
    (ladder es c16).1 = (ladderSteps es).foldl (takeStep es c16) (es.map fun _ => .carried) ∧
      (ladder es c16).2 = totalUnder es (ladder es c16).1 := by
  have start : PassAt es (es.map fun _ => .carried) [] (es.reverse.map fun e => (e, .carried), shareTotal es) :=
    ⟨by simp [Function.comp_def], by simp [Function.comp_def], totalUnder_carried es⟩
  have all_carried : ∀ y ∈ es.reverse.map fun e => (e, CarryState.carried), y.1.priority ∈ [3, 2, 1, 0] → y.2 = .carried := by
    intro y hy _
    obtain ⟨e, -, rfl⟩ := List.mem_map.mp hy
    rfl
  obtain ⟨-, states, total⟩ := start.after_ladderLevels (c16 := c16) (ps := [3, 2, 1, 0]) (by decide) all_carried
  rw [List.append_nil, List.map_reverse, ← ladderSteps_eq] at states
  rw [← ladderSteps_eq, ← states] at total
  exact ⟨states, total.symm⟩

/-! ### The order of the steps -/

/-- Two steps, the first before the second: a place is thinned before it is shed, and a level comes before a better one. -/
def StepsInOrder (es : List Entry) (x y : Nat × CarryState) : Prop :=
  (x.1 = y.1 → x.2 = .thinned ∧ y.2 = .shed) ∧
    ∀ e f, es[x.1]? = some e → es[y.1]? = some f → f.priority ≤ e.priority

theorem mem_passSteps {x : Nat × CarryState} :
    x ∈ passSteps es takes c es.length ↔ x.2 = c ∧ ∃ e, es[x.1]? = some e ∧ takes e = true := by
  obtain ⟨i, d⟩ := x
  simp only [passSteps, List.mem_map, List.mem_filter, List.mem_reverse, List.mem_range, Option.any_eq_true, Prod.mk.injEq]
  constructor
  · rintro ⟨_, ⟨-, e, at_i, taken⟩, rfl, rfl⟩
    exact ⟨rfl, e, at_i, taken⟩
  · rintro ⟨rfl, e, at_i, taken⟩
    exact ⟨i, ⟨(List.getElem?_eq_some_iff.mp at_i).1, e, at_i, taken⟩, rfl, rfl⟩

theorem mem_levelSteps {x : Nat × CarryState} : x ∈ levelSteps es p ↔ ∃ e, es[x.1]? = some e ∧ e.priority = p ∧
    (x.2 = .thinned ∧ e.thinning = true ∨ x.2 = .shed ∧ p ≠ 0) := by
  have sheds : (x ∈ if p = 0 then [] else passSteps es (shedsAt p) .shed es.length) ↔
      p ≠ 0 ∧ x ∈ passSteps es (shedsAt p) .shed es.length := by
    split <;> simp [*]
  rw [levelSteps, List.mem_append, sheds, mem_passSteps, mem_passSteps]
  simp only [thinsAt_iff, shedsAt_iff]
  constructor
  · rintro (⟨thinned, e, at_x, level, thins⟩ | ⟨below, shed, e, at_x, level⟩)
    · exact ⟨e, at_x, level, .inl ⟨thinned, thins⟩⟩
    · exact ⟨e, at_x, level, .inr ⟨shed, below⟩⟩
  · rintro ⟨e, at_x, level, ⟨thinned, thins⟩ | ⟨shed, below⟩⟩
    · exact .inl ⟨thinned, e, at_x, level, thins⟩
    · exact .inr ⟨below, shed, e, at_x, level⟩

theorem mem_ladderSteps {x : Nat × CarryState} : x ∈ ladderSteps es ↔ ∃ e, es[x.1]? = some e ∧
    (x.2 = .thinned ∧ e.thinning = true ∨ x.2 = .shed ∧ e.priority ≠ 0) := by
  have level (p : Fin 4) : p ∈ ([3, 2, 1, 0] : List (Fin 4)) := by revert p; decide
  rw [ladderSteps_eq, List.mem_flatMap]
  simp only [mem_levelSteps]
  constructor
  · rintro ⟨_, -, e, at_x, rfl, given⟩
    exact ⟨e, at_x, given⟩
  · rintro ⟨e, at_x, given⟩
    exact ⟨_, level _, e, at_x, rfl, given⟩

/-- A pass takes a place at most once. -/
theorem passSteps_distinct (es : List Entry) (takes : Entry → Bool) (c : CarryState) (k : Nat) :
    (passSteps es takes c k).Pairwise fun x y => x.1 ≠ y.1 :=
  List.pairwise_map.mpr ((List.nodup_reverse.mpr List.nodup_range).filter _)

theorem levelSteps_priority {x : Nat × CarryState} (h : x ∈ levelSteps es p) {e : Entry} (at_x : es[x.1]? = some e) :
    e.priority = p := by
  obtain ⟨f, at_x', level, -⟩ := mem_levelSteps.mp h
  exact Option.some.inj (at_x.symm.trans at_x') ▸ level

theorem levelSteps_inOrder (es : List Entry) (p : Fin 4) : (levelSteps es p).Pairwise (StepsInOrder es) := by
  have places : (levelSteps es p).Pairwise fun x y => x.1 = y.1 → x.2 = .thinned ∧ y.2 = .shed := by
    have once {c : CarryState} {takes : Entry → Bool} : (passSteps es takes c es.length).Pairwise
        fun x y => x.1 = y.1 → x.2 = .thinned ∧ y.2 = .shed :=
      (passSteps_distinct es takes c es.length).imp fun distinct same => absurd same distinct
    rw [levelSteps]
    split
    · rw [List.append_nil]
      exact once
    · exact List.pairwise_append.mpr
        ⟨once, once, fun x hx y hy _ => ⟨(mem_passSteps.mp hx).1, (mem_passSteps.mp hy).1⟩⟩
  exact places.imp_of_mem fun hx hy places => ⟨places, fun e f at_x at_y =>
    ((levelSteps_priority hy at_y).trans (levelSteps_priority hx at_x).symm).le⟩

theorem ladderSteps_inOrder (es : List Entry) : (ladderSteps es).Pairwise (StepsInOrder es) := by
  rw [ladderSteps_eq, List.pairwise_flatMap]
  refine ⟨fun p _ => levelSteps_inOrder es p, ?_⟩
  have falling : ([3, 2, 1, 0] : List (Fin 4)).Pairwise fun p q => q < p := by decide
  refine falling.imp fun {p q} better x hx y hy => ⟨fun same => ?_, fun e f at_x at_y => ?_⟩
  · obtain ⟨e, at_x, level, -⟩ := mem_levelSteps.mp hx
    have same_level : q = p := (levelSteps_priority hy (same ▸ at_x)).symm.trans level
    exact absurd better same_level.not_lt
  · rw [levelSteps_priority hx at_x, levelSteps_priority hy at_y]
    exact better.le

/-! ### What the first steps give up -/

theorem ladderAfter_eq (es : List Entry) (n : Nat) :
    ladderAfter es n = allTaken ((ladderSteps es).take n) (es.map fun _ => .carried) := rfl

theorem getElem?_of_mem_zip {x : Entry × CarryState} (h : x ∈ es.zip cs) : ∃ i : Nat, es[i]? = some x.1 ∧ cs[i]? = some x.2 := by
  obtain ⟨i, at_i⟩ := List.mem_iff_getElem?.mp h
  exact ⟨i, List.getElem?_zip_eq_some.mp at_i⟩

/-- An entry that is not CARRIED took a step. -/
theorem step_of_not_carried {i n : Nat} (after : (ladderAfter es n)[i]? = some c) (given : c ≠ .carried) :
    (i, c) ∈ (ladderSteps es).take n := by
  rw [ladderAfter_eq] at after
  refine (mem_of_allTaken_getElem? after).resolve_left fun start => given ?_
  rw [List.getElem?_map, Option.map_eq_some_iff] at start
  obtain ⟨-, -, rfl⟩ := start
  rfl

theorem shed_of_step {i n : Nat} (step : (i, .shed) ∈ (ladderSteps es).take n)
    (after : (ladderAfter es n)[i]? = some c) : c = .shed := by
  rw [ladderAfter_eq] at after
  refine allTaken_of_mem (P := (· = .shed)) step ?_ rfl after
  exact ((ladderSteps_inOrder es).sublist (List.take_sublist ..)).imp fun order same _ => (order.1 same).2

theorem not_carried_of_step {i n : Nat} {d : CarryState} (step : (i, d) ∈ (ladderSteps es).take n) (given : d ≠ .carried)
    (after : (ladderAfter es n)[i]? = some c) : c ≠ .carried := by
  rw [ladderAfter_eq] at after
  refine allTaken_of_mem (P := (· ≠ .carried)) step ?_ given after
  refine ((ladderSteps_inOrder es).sublist (List.take_sublist ..)).imp fun order same _ => ?_
  rw [(order.1 same).2]
  exact nofun

/-- All the steps give up every level but 0, and thin what level 0 lets them thin. -/
theorem ladderAfter_all {n : Nat} (all : n = (ladderSteps es).length) {x : Entry × CarryState}
    (there : x ∈ es.zip (ladderAfter es n)) :
    (x.1.priority ≠ 0 → x.2 = .shed) ∧ (x.1.thinning = true → x.2 ≠ .carried) := by
  obtain ⟨i, entry, after⟩ := getElem?_of_mem_zip there
  have taken {d : CarryState} (step : (i, d) ∈ ladderSteps es) : (i, d) ∈ (ladderSteps es).take n := by
    rwa [all, List.take_length]
  exact ⟨fun below => shed_of_step (taken (mem_ladderSteps.mpr ⟨_, entry, .inr ⟨rfl, below⟩⟩)) after,
    fun thins => not_carried_of_step (taken (mem_ladderSteps.mpr ⟨_, entry, .inl ⟨rfl, thins⟩⟩)) nofun after⟩

/-- When a step has been taken at a level, all the steps of a worse level have been taken. -/
theorem ladderAfter_gives_up_worse {n : Nat} {x y : Entry × CarryState} (hx : x ∈ es.zip (ladderAfter es n))
    (hy : y ∈ es.zip (ladderAfter es n)) (worse : x.1.priority < y.1.priority) (given : x.2 ≠ .carried) : y.2 = .shed := by
  obtain ⟨i, entry_x, after_x⟩ := getElem?_of_mem_zip hx
  obtain ⟨j, entry_y, after_y⟩ := getElem?_of_mem_zip hy
  have below : y.1.priority ≠ 0 := (Fin.zero_le _ |>.trans_lt worse).ne'
  have step : (j, .shed) ∈ ladderSteps es := mem_ladderSteps.mpr ⟨_, entry_y, .inr ⟨rfl, below⟩⟩
  have order := ladderSteps_inOrder es
  rw [← List.take_append_drop n (ladderSteps es), List.pairwise_append] at order
  obtain ⟨-, -, order⟩ := order
  rw [← List.take_append_drop n (ladderSteps es), List.mem_append] at step
  refine shed_of_step (step.resolve_right fun later => ?_) after_y
  exact absurd ((order _ (step_of_not_carried after_x given) _ later).2 _ _ entry_x entry_y) (not_le.mpr worse)

/-! ### The statement -/

/-- Settles O37: the ladder as the first of its steps, what they give up by the order of the steps. -/
theorem theLadderGivesUpWholeLevels : Obligations.TheLadderGivesUpWholeLevels := by
  intro es c16
  obtain ⟨states, total⟩ := ladder_eq_steps es c16
  obtain ⟨n, within, first, before, ends⟩ := foldl_takeStep_stops es c16 (ladderSteps es) (es.map fun _ => .carried)
  rw [← states, ← total] at ends
  rw [← states, ← ladderAfter_eq] at first
  have top : ∀ x ∈ es.zip (ladder es c16).1, x.1.priority = 0 → x.2 ≠ .shed :=
    fun _ there => (List.forall₂_iff_zip.mp (ladder_keepsTop es c16)).2 there
  refine ⟨length_ladder es c16, total, ⟨n, within, first, before, ends⟩, top, ?_, ?_, fun fits => ?_⟩
  · refine ends.imp_right fun all x there => ?_
    obtain ⟨shed, thinned⟩ := ladderAfter_all all (first ▸ there)
    refine ⟨shed, fun at_top thins => ?_⟩
    cases state : x.2 with
    | carried => exact absurd state (thinned thins)
    | thinned => rfl
    | shed => exact absurd state (top x there at_top)
  · rw [first]
    exact fun x hx y hy => ladderAfter_gives_up_worse hx hy
  · have none_taken : n = 0 := Nat.eq_zero_of_not_pos fun some_taken =>
      absurd (before 0 some_taken) (not_lt.mpr ((totalUnder_carried es).trans_le fits))
    rw [first, none_taken]
    simp [ladderAfter]

end Sys2Proof.Proofs

/-! # Proofs: the bounds of the counters and the queues

What an operation can do to them (R120, R152, R153, R157, R158, R160, R170, R172), one law for both statements of O9. A queue is
read off the part of the state that holds it, so an operation that leaves its part alone keeps its bound by its frame. -/

namespace Sys2Proof.Proofs

open Sys2Proof.Machine Sys2Proof.Claims

variable {s t u : State} {ps : List Part} {l : LaneId} {g : GroupId} {i : SideId}

/-! ### The bounds part by part -/

/-- No bank holds more than 24 entries (R57). -/
def BanksBounded (p : PlanStore) : Prop := p.bank0.entries.length ≤ 24 ∧ p.bank1.entries.length ≤ 24

/-- The two queues of a side line hold at most 64 records each (R157, R158). -/
def SideBounded (x : SideLine) : Prop := x.inQueue.length ≤ 64 ∧ x.outQueue.length ≤ 64

/-- The queues that one part of the state holds are within their capacities. -/
def PartBounded (s : State) : Part → Prop
  | .announce => s.control.announce.length ≤ 8
  | .responses => s.control.responses.length ≤ 8
  | .relayOut => s.control.relayOut.length ≤ 4
  | .notices => s.control.notices.length ≤ 8
  | .events => s.events.queue.length ≤ 32 ∧ s.events.lost ≤ 255
  | .ret => s.ret.buffer.length ≤ 48
  | .sides => ∀ i, SideBounded (s.side i)
  | .plan => BanksBounded s.plan
  | _ => True

theorem queuesBounded_iff (s : State) : QueuesBounded s ↔ ∀ p, PartBounded s p := by
  constructor
  · rintro ⟨announce, responses, relayOut, notices, queue, lost, ret, sides, bank0, bank1⟩ p
    cases p
    case announce => exact announce
    case responses => exact responses
    case relayOut => exact relayOut
    case notices => exact notices
    case events => exact ⟨queue, lost⟩
    case ret => exact ret
    case sides => exact sides
    case plan => exact ⟨bank0, bank1⟩
    all_goals trivial
  · intro h
    obtain ⟨queue, lost⟩ := h .events
    obtain ⟨bank0, bank1⟩ := h .plan
    exact ⟨h .announce, h .responses, h .relayOut, h .notices, queue, lost, h .ret, h .sides, bank0, bank1⟩

theorem PartBounded.congr {p : Part} (same : Same p s t) (h : PartBounded s p) : PartBounded t p := by
  cases p <;> simp_all [PartBounded, Same, State.side]

theorem bankGet_bounded {p : PlanStore} (h : BanksBounded p) (b : BankId) : (bankGet p b).entries.length ≤ 24 := by
  cases b with
  | b0 => exact h.1
  | b1 => exact h.2

theorem banksBounded_bankSet {p : PlanStore} (h : BanksBounded p) (b : BankId) {v : Bank} (hv : v.entries.length ≤ 24) :
    BanksBounded (bankSet p b v) := by
  cases b with
  | b0 => exact ⟨hv, h.2⟩
  | b1 => exact ⟨h.1, hv⟩

theorem banks_of_queuesBounded (h : QueuesBounded s) : BanksBounded s.plan := (queuesBounded_iff s).mp h .plan

/-! ### What an operation keeps -/

/-- The parts that hold the counters and the bounded queues. -/
abbrev boundedParts : List Part :=
  [.announce, .responses, .relayOut, .notices, .events, .counters, .sides, .ret, .plan]

/-- A step from s to t keeps the bounds of O9. -/
structure KeepsBounds (s t : State) : Prop where
  counters : CountersBounded s → CountersBounded t
  queues : QueuesBounded s → QueuesBounded t

theorem KeepsBounds.refl (s : State) : KeepsBounds s s := ⟨id, id⟩

theorem KeepsBounds.trans (h : KeepsBounds s t) (k : KeepsBounds t u) : KeepsBounds s u :=
  ⟨k.counters ∘ h.counters, k.queues ∘ h.queues⟩

theorem KeepsBounds.ite {q : Prop} [Decidable q] (h : q → KeepsBounds s t) (k : ¬ q → KeepsBounds s u) :
    KeepsBounds s (if q then t else u) := by
  split
  · exact h ‹_›
  · exact k ‹_›

theorem KeepsBounds.each {α : Type} {f : α → State → State} (hf : ∀ a s, KeepsBounds s (f a s)) (xs : List α) (s : State) :
    KeepsBounds s (State.each f xs s) := by
  induction xs generalizing s with
  | nil => exact .refl s
  | cons a rest ih => exact (hf a s).trans (ih _)

/-- A step that reaches one bounded part, and keeps that one within its bounds. -/
theorem KeepsBounds.part (only : OnlyChanges ps s t) (p : Part) (bounded : QueuesBounded s → PartBounded t p)
    (hp : ∀ q ∈ boundedParts, q ∈ ps → q = p := by decide) (hc : Part.counters ∉ ps := by decide) : KeepsBounds s t where
  counters h id := by
    rw [counter_of_only only id hc]
    exact h id
  queues h := by
    rw [queuesBounded_iff]
    intro q
    by_cases reached : q = p
    · exact reached ▸ bounded h
    · by_cases bound : q ∈ boundedParts
      · exact .congr (only q fun changed => reached (hp q bound changed)) ((queuesBounded_iff s).mp h q)
      · cases q <;> trivial

/-- A step that reaches none of them. -/
theorem KeepsBounds.only (only : OnlyChanges ps s t) (hp : ∀ q ∈ boundedParts, q ∉ ps := by decide) : KeepsBounds s t :=
  .part only .pending (fun _ => trivial) (fun q bound changed => absurd changed (hp q bound)) (hp _ (by decide))

theorem KeepsBounds.modPlan {f : PlanStore → PlanStore} (hf : BanksBounded s.plan → BanksBounded (f s.plan)) :
    KeepsBounds s (s.modPlan f) := .part (modPlan_only f s) .plan fun h => hf (banks_of_queuesBounded h)

theorem KeepsBounds.modSide {i : SideId} {f : SideLine → SideLine} (hf : SideBounded (s.side i) → SideBounded (f (s.side i))) :
    KeepsBounds s (s.modSide i f) := by
  refine .part (modSide_only i f s) .sides fun h k => ?_
  have before : ∀ k, SideBounded (s.side k) := (queuesBounded_iff s).mp h .sides
  by_cases same : k = i
  · rw [same, side_modSide_same]
    exact hf (before i)
  · rw [side_modSide_other _ _ _ _ same]
    exact before k

/-- A step that leaves no queue of the control slot longer than it was, and reaches no other bounded part. -/
theorem KeepsBounds.modControl {f : ControlQueues → ControlQueues}
    (announce : (f s.control).announce.length ≤ s.control.announce.length)
    (responses : (f s.control).responses.length ≤ s.control.responses.length)
    (relayOut : (f s.control).relayOut.length ≤ s.control.relayOut.length)
    (notices : (f s.control).notices.length ≤ s.control.notices.length) : KeepsBounds s (s.modControl f) := by
  refine ⟨id, ?_⟩
  rintro ⟨a, r, m, n, rest⟩
  exact ⟨announce.trans a, responses.trans r, relayOut.trans m, notices.trans n, rest⟩

/-! ### Counting and recording (R170, R172) -/

theorem counterUp_bounded {c : Counter} (h : c.count ≤ 65535) : (counterUp c).count ≤ 65535 := by
  unfold counterUp
  split
  · exact h
  · exact Nat.lt_of_not_le ‹_›

/-- A counter is given a value within the bound. -/
theorem counterSet_bounds {i : CounterId} {v : Counter} (hv : CountersBounded s → v.count ≤ 65535) :
    KeepsBounds s (s.modCounters fun c => counterSet c i v) where
  counters h k := by
    by_cases same : k = i
    · rw [same, counter_modCounters_same]
      exact hv h
    · rw [counter_modCounters_other same]
      exact h k
  queues := id

theorem joinHead_bounds (e : EventRecord) (s : State) : KeepsBounds s (joinHead e s) := by
  unfold joinHead
  refine .ite (fun _ => ?_) fun _ => .refl s
  refine .ite (fun room => ?_) fun _ => ?_
  · refine .part (modEvents_only _ s) .events fun h => ⟨?_, ((queuesBounded_iff s).mp h .events).2⟩
    simpa using room
  · exact .part (modEvents_only _ s) .events fun h => ⟨((queuesBounded_iff s).mp h .events).1, Nat.min_le_left _ _⟩

theorem recordWith_bounds {lose : State → State} (hl : ∀ s, KeepsBounds s (lose s)) (forced : Bool) (e : EventRecord)
    (s : State) : KeepsBounds s (recordWith lose forced e s) := by
  have joins {v : State} (room : v.control.notices.length < 8) : KeepsBounds v (joinNotice e v) :=
    .part (joinNotice_only e v) .notices fun _ => by simpa [PartBounded, joinNotice] using room
  exact (joinHead_bounds e s).trans (.ite (fun _ => .ite joins fun _ => hl _) fun _ => .refl _)

theorem noticeLostPastHalf_bounds (s : State) : KeepsBounds s (noticeLostPastHalf s) :=
  counterSet_bounds fun h => counterUp_bounded (h _)

theorem halfNoticeLost_bounds (s : State) : KeepsBounds s (halfNoticeLost s) :=
  .ite (fun _ => (noticeLostPastHalf_bounds s).trans (recordWith_bounds noticeLostPastHalf_bounds _ _ _))
    fun _ => noticeLostPastHalf_bounds s

theorem bump_bounds (id : CounterId) (s : State) : KeepsBounds s (s.bump id) := by
  have counted : KeepsBounds s (s.modCounters fun cs => counterSet cs id (counterUp (s.counter id))) :=
    counterSet_bounds fun h => counterUp_bounded (h id)
  exact .ite (fun _ => counted.trans (recordWith_bounds halfNoticeLost_bounds _ _ _)) fun _ => counted

theorem raise_bounds (k : EventKind) (a b : Nat) (s : State) : KeepsBounds s (s.raise k a b) :=
  recordWith_bounds (bump_bounds (.link .noticesLost)) false _ s

theorem raiseForced_bounds (k : EventKind) (a b : Nat) (s : State) : KeepsBounds s (s.raiseForced k a b) :=
  recordWith_bounds (bump_bounds (.link .noticesLost)) true _ s

theorem raiseAll_bounds (es : List (EventKind × Nat × Nat)) (s : State) : KeepsBounds s (raiseAll es s) := by
  induction es generalizing s with
  | nil => exact .refl s
  | cons e es ih => exact (raise_bounds _ _ _ s).trans (ih _)

/-! ### Release and evaluation -/

theorem countCut_bounds (l : LaneId) (q : List LineRecord) (s : State) : KeepsBounds s (countCut l q s) :=
  .ite (fun _ => bump_bounds _ s) fun _ => .refl s

theorem discardReleased_bounds (l : LaneId) (s : State) : KeepsBounds s (discardReleased l s) := by
  rw [discardReleased_eq]
  exact ((KeepsBounds.only (modLane_only l _ s)).trans (.only (addFree_only _ _))).trans (countCut_bounds _ _ _)

theorem emptyLane_bounds (l : LaneId) (s : State) : KeepsBounds s (emptyLane l s) := by
  unfold emptyLane
  exact ((KeepsBounds.only (modLane_only l _ s)).trans (.only (addFree_only _ _))).trans (countCut_bounds _ _ _)

theorem releaseOldest_bounds (mark : Option GroupMark) (l : LaneId) (s : State) :
    KeepsBounds s (releaseOldest mark l s) := by
  obtain ⟨-, h⟩ | ⟨before, r, after, -, -, -, ⟨-, h⟩ | ⟨c, -, h⟩⟩ := releaseOldest_cases mark l s
  · rw [h]; exact .refl s
  · rw [h]; exact .only (modLane_only l _ s)
  · rw [h]
    exact ((KeepsBounds.only (modLane_only l _ s)).trans (.only (addFree_only _ _))).trans (bump_bounds _ _)

theorem releaseMany_bounds (mark : Option GroupMark) (l : LaneId) (n : Nat) (s : State) :
    KeepsBounds s (releaseMany mark l n s) := by
  induction n generalizing s with
  | zero => exact .refl s
  | succ n ih => exact (releaseOldest_bounds mark l s).trans (ih _)

theorem setStanding_raise_bounds (l : LaneId) (v : Option Standing) (k : EventKind) (a b : Nat) (s : State) :
    KeepsBounds s ((s.setStanding l v).raise k a b) :=
  (KeepsBounds.only (setStanding_only l v s)).trans (raise_bounds k a b _)

theorem evaluatePass_bounds {c : Position} (h : evaluatePass g c s = some t) : KeepsBounds s t := by
  have cursor (f : Group → Group) (u : State) : KeepsBounds u (u.modGroup g f) := .only (modGroup_only g f u)
  obtain ⟨l, -, rfl⟩ | ⟨-, mark, rfl⟩ | ⟨-, -, rfl⟩ | ⟨-, p, -, rfl⟩ := evaluatePass_cases h
  · exact releaseOldest_bounds _ l s
  · unfold groupReleased
    exact ((KeepsBounds.each (releaseOldest_bounds mark) _ s).trans
      (.each (fun l => setStanding_raise_bounds l _ _ _ _) _ _)).trans (cursor _ _)
  · exact .each (fun l => setStanding_raise_bounds l _ _ _ _) _ s
  · exact cursor _ s

theorem evaluateLoop_bounds (g : GroupId) (n : Nat) (s : State) : KeepsBounds s (evaluateLoop g n s) := by
  induction n generalizing s with
  | zero => exact .refl s
  | succ n ih =>
    unfold evaluateLoop
    split
    · exact .refl s
    · split
      · exact .refl s
      · exact (evaluatePass_bounds ‹_›).trans (ih _)

theorem evaluate_bounds (g : GroupId) (s : State) : KeepsBounds s (evaluate g s) := by
  have cursor (f : Group → Group) : KeepsBounds s (s.modGroup g f) := .only (modGroup_only g f s)
  unfold evaluate
  dsimp only
  split
  · split
    · exact evaluateLoop_bounds g _ s
    · split
      · exact .refl s
      · exact (cursor _).trans (evaluateLoop_bounds g _ _)
  · exact (cursor _).trans (.each (fun l s => releaseMany_bounds _ l _ s) _ _)

theorem evaluateOption_bounds (g : Option GroupId) (s : State) : KeepsBounds s (evaluateOption g s) := by
  cases g with
  | none => exact .refl s
  | some g => exact evaluate_bounds g s

theorem evaluateLane_bounds (l : LaneId) (s : State) : KeepsBounds s (evaluateLane l s) := by
  unfold evaluateLane
  split
  · exact .refl s
  · exact evaluate_bounds _ s

theorem lineCompleted_bounds (l : LaneId) (s : State) : KeepsBounds s (lineCompleted l s) := by
  unfold lineCompleted
  split
  · exact releaseOldest_bounds none l s
  · exact evaluate_bounds _ s

/-! ### Intake -/

theorem noteTile_bounds (l : LaneId) (x : Tile) (s : State) : KeepsBounds s (noteTile l x s) :=
  .ite (fun _ => bump_bounds _ s) fun _ => .ite (fun _ => bump_bounds _ s) fun _ => .refl s

theorem appendTile_bounds (l : LaneId) (x : Tile) (s : State) : KeepsBounds s (appendTile l x s) :=
  ((KeepsBounds.only (modLane_only l _ s)).trans (.only (takeFree_only 1 _))).trans (noteTile_bounds l x _)

theorem dropLine_bounds (l : LaneId) (s : State) : KeepsBounds s (dropLine l s) := by
  unfold dropLine
  split
  · exact .refl s
  · exact ((KeepsBounds.only (modLane_only l _ s)).trans (.only (addFree_only _ _))).trans (bump_bounds _ _)

theorem placeTiles_bounds (l : LaneId) (xs : List Tile) (s : State) : KeepsBounds s (placeTiles l xs s).1 := by
  induction xs generalizing s with
  | nil => exact .refl s
  | cons x xs ih =>
    unfold placeTiles
    split
    · exact (appendTile_bounds l x s).trans (ih _)
    · exact dropLine_bounds l s

theorem closeTruncated_bounds (l : LaneId) (n : Nat) (s : State) : KeepsBounds s (closeTruncated l n s).1 := by
  have placed := placeTiles_bounds l (Machine.fillTiles n (tilesPerLine (s.lane l).desc)) s
  unfold closeTruncated
  split
  · rename_i h; rw [h] at placed; exact placed.trans (.only (completeLine_only _ _ _))
  · rename_i h; rw [h] at placed; exact placed

theorem openLine_bounds (l : LaneId) (p : Position) (s : State) : KeepsBounds s (openLine l p s) := by
  unfold openLine
  dsimp only
  split
  · exact .only (modLane_only l _ s)
  · exact KeepsBounds.trans (.ite (fun _ => .refl s) fun _ => bump_bounds _ s) (.only (modLane_only l _ _))

theorem placeBurst_bounds (l : LaneId) (b : Burst) (p : Position) (next : Nat) (s : State) :
    KeepsBounds s (placeBurst l b p next s) := by
  have placed := placeTiles_bounds l (Machine.fillTiles next b.index ++ [tileOf b]) s
  unfold placeBurst
  split
  · exact bump_bounds _ s
  · dsimp only
    split
    · rename_i h; rw [h] at placed; exact placed
    · rename_i v h
      rw [h] at placed
      split
      · have tail := placeTiles_bounds l
          (if b.last then Machine.fillTiles (b.index + 1) (tilesPerLine (s.lane l).desc) else []) v
        split
        · rename_i h'; rw [h'] at tail; exact placed.trans tail
        · rename_i h'; rw [h'] at tail
          exact ((placed.trans tail).trans (.only (completeLine_only _ _ _))).trans (lineCompleted_bounds l _)
      · exact placed.trans (.only (modLane_only l _ _))

theorem assemble_bounds (l : LaneId) (b : Burst) (s : State) : KeepsBounds s (assemble l b s) := by
  have opens (v : State) : KeepsBounds v (openAndPlace l b v) :=
    (openLine_bounds l b.pos v).trans (placeBurst_bounds l b b.pos 0 _)
  unfold assemble
  refine .ite (fun _ => bump_bounds _ s) fun _ => .ite (fun _ => .refl s) fun _ => ?_
  split
  · exact opens s
  · rename_i p next _
    refine .ite (fun _ => placeBurst_bounds l b p next s) fun _ => ?_
    have closed := closeTruncated_bounds l next s
    split
    · rename_i h; rw [h] at closed
      exact (closed.trans (lineCompleted_bounds l _)).trans (opens _)
    · rename_i h; rw [h] at closed
      exact closed.trans (opens _)

theorem armedArrival_bounds (l : LaneId) (b : Burst) (s : State) : KeepsBounds s (armedArrival l b s) := by
  have assembled (f : Lane → Lane) : KeepsBounds s (assemble l b (evaluateLane l (s.modLane l f))) :=
    ((KeepsBounds.only (modLane_only l f s)).trans (evaluateLane_bounds l _)).trans (assemble_bounds l b _)
  exact .ite (fun _ => .ite (fun _ => (assembled _).trans (raise_bounds _ _ _ _)) fun _ => assembled _)
    fun _ => bump_bounds _ s

theorem takeBurst_bounds (l : LaneId) (b : Burst) (s : State) : KeepsBounds s (takeBurst l b s) := by
  have relabelled (f : Lane → Lane) : KeepsBounds s (s.modLane l f) := .only (modLane_only l f s)
  unfold takeBurst
  split
  · exact .refl s
  · exact armedArrival_bounds l b s
  · exact (relabelled _).trans (assemble_bounds l b _)
  · exact .ite (fun _ => ((relabelled _).trans (evaluateLane_bounds l _)).trans (armedArrival_bounds l b _))
      fun _ => bump_bounds _ s

theorem faultHandedOver_bounds (kept : Bool) (l : LaneId) (s : State) : KeepsBounds s (faultHandedOver kept l s) := by
  unfold faultHandedOver
  split
  · exact evaluate_bounds _ s
  · exact .ite (fun _ => releaseOldest_bounds none l s) fun _ => .refl s

theorem faultLane_bounds (d : Nat) (l : LaneId) (s : State) : KeepsBounds s (faultLane d l s) := by
  have down : KeepsBounds s (fallen l s) :=
    (KeepsBounds.only (modLane_only l (fun x => { x with state := .faulted }) s)).trans (.only (lagQuietly_only l _))
  have raised (v : State) : KeepsBounds v (faultRaised d l v) :=
    (KeepsBounds.only (modLane_only l
      (fun x => { x with assembly := .betweenLines, dropMark := none, recovery := true }) v)).trans (raise_bounds _ _ _ _)
  cases opened : (s.lane l).assembly with
  | betweenLines =>
    rw [faultLane_between opened]
    exact (down.trans (raised _)).trans (faultHandedOver_bounds _ _ _)
  | assembling p n =>
    rw [faultLane_closes opened]
    exact ((down.trans (closeTruncated_bounds l n _)).trans (raised _)).trans (faultHandedOver_bounds _ _ _)

theorem boardReadyFall_bounds (l : LaneId) (s : State) : KeepsBounds s (boardReadyFall l s) :=
  .ite (fun _ => faultLane_bounds 1 l s) fun _ => .refl s

theorem silenceExpiry_bounds (l : LaneId) (s : State) : KeepsBounds s (silenceExpiry l s) :=
  .ite (fun _ => (KeepsBounds.only (modLane_only l _ s)).trans (faultLane_bounds 2 l _)) fun _ => .refl s

theorem silenceTick_bounds (l : LaneId) (s : State) : KeepsBounds s (silenceTick l s) :=
  .ite (fun _ => .ite (fun _ => silenceExpiry_bounds l s) fun _ => .only (modLane_only l _ s)) fun _ => .refl s

theorem startLane_bounds (l : LaneId) (s : State) : KeepsBounds s (startLane l s) :=
  (KeepsBounds.only (modLane_only l _ s)).trans (evaluateLane_bounds l _)

theorem stopLane_bounds (l : LaneId) (s : State) : KeepsBounds s (stopLane l s) :=
  .ite (fun _ => .refl s) fun _ => (((emptyLane_bounds l s).trans (.only (modLane_only l _ _))).trans
    (.only (lagQuietly_only l _))).trans (evaluateLane_bounds l _)

theorem restartLane_bounds (l : LaneId) (s : State) : KeepsBounds s (restartLane l s) :=
  .ite (fun _ => .refl s) fun _ => (emptyLane_bounds l s).trans (.only (modLane_only l _ _))

theorem restartGroups_bounds (s : State) : KeepsBounds s (restartGroups s) :=
  ((KeepsBounds.only (modRelease_only _ s)).trans (evaluate_bounds .a _)).trans (evaluate_bounds .b _)

theorem installDescriptor_bounds (l : LaneId) (d : Descriptor) (s : State) : KeepsBounds s (installDescriptor l d s) := by
  have placed (v : Option Standing) : KeepsBounds s ((s.setStanding l v).modLane l fun x => { x with desc := d }) :=
    (KeepsBounds.only (setStanding_only l v s)).trans (.only (modLane_only l _ _))
  exact .ite (fun _ => placed _) fun _ =>
    ((placed _).trans (evaluateOption_bounds _ _)).trans (evaluateOption_bounds _ _)

/-! ### The plan store -/

theorem activeBank_bounded (h : BanksBounded s.plan) : (activeBank s).entries.length ≤ 24 := bankGet_bounded h _

theorem pendingBank_bounded (h : BanksBounded s.plan) : (pendingBank s).entries.length ≤ 24 := bankGet_bounded h _

/-- An announcement of a plan of 24 entries has 8 cells (R119, R120). -/
theorem queueAnnouncement_bounds {n : Nat} (kind : AnnounceKind) (hn : BanksBounded s.plan → n ≤ 24) :
    KeepsBounds s (queueAnnouncement kind n s) := by
  refine .part (queueAnnouncement_only kind n s) .announce fun h => ?_
  have entries := hn (banks_of_queuesBounded h)
  change (announcement kind n).length ≤ 8
  rw [length_announcement]
  omega

theorem announceInForce_bounds (s : State) : KeepsBounds s (announceInForce s) :=
  queueAnnouncement_bounds .inForce activeBank_bounded

theorem startEcho_bounds (s : State) : KeepsBounds s (startEcho s) := .modPlan id

theorem stopEcho_bounds (s : State) : KeepsBounds s (stopEcho s) := .modPlan id

theorem echoExpire_bounds (repeats : Nat) (last : Option Byte) (s : State) : KeepsBounds s (echoExpire repeats last s) := by
  have announced := announceInForce_bounds s
  unfold echoExpire
  exact KeepsBounds.trans (.ite (fun _ => (announced.trans (.modPlan id)).trans (raise_bounds _ _ _ _)) fun _ => announced)
    (.modPlan id)

theorem echoTick_bounds (s : State) : KeepsBounds s (echoTick s) := by
  unfold echoTick
  split
  · exact .refl s
  · exact .ite (fun _ => echoExpire_bounds _ _ s) fun _ => .modPlan id

theorem echoExpiry_bounds (s : State) : KeepsBounds s (echoExpiry s) := by
  unfold echoExpiry
  split
  · exact .refl s
  · exact .ite (fun _ => echoExpire_bounds _ _ s) fun _ => .refl s

theorem echoCompare_bounds (echo : Byte) (s : State) : KeepsBounds s (echoCompare echo s) := by
  unfold echoCompare
  split
  · exact .refl s
  · exact .ite (fun _ => .ite (fun _ => ((stopEcho_bounds s).trans (.modPlan id)).trans (raise_bounds _ _ _ _))
      fun _ => stopEcho_bounds s) fun _ => .modPlan id

theorem freeHold_bounds (s : State) : KeepsBounds s (freeHold s) := by
  have emptied : KeepsBounds s (discardPending s) := .modPlan fun h => banksBounded_bankSet h _ (by decide)
  exact emptied.trans (.modPlan id)

theorem restartHoldTimer_bounds (s : State) : KeepsBounds s (restartHoldTimer s) := by
  unfold restartHoldTimer
  split
  · exact .modPlan id
  · exact .refl s

theorem holdExpiry_bounds (s : State) : KeepsBounds s (holdExpiry s) := by
  unfold holdExpiry
  split
  · exact (freeHold_bounds s).trans (raise_bounds _ _ _ _)
  · exact .refl s

/-- The pending bank starts with the entries of the active one (R66). -/
theorem openHold_bounds (o : Origin) (s : State) : KeepsBounds s (openHold o s) := by
  unfold openHold
  exact .modPlan fun h => banksBounded_bankSet h (otherId s.plan)
    (v := ⟨.pending, (activeBank s).epoch + 1, (activeBank s).entries⟩) (activeBank_bounded h)

theorem edited_bounds {es : List Entry} (hes : (pendingBank s).entries.length ≤ 24 → es.length ≤ 24) :
    KeepsBounds s (edited es s).1 :=
  .modPlan (f := fun p => bankSet p (otherId p) { bankGet p (otherId p) with entries := es }) fun h =>
    banksBounded_bankSet h _ (hes (pendingBank_bounded h))

theorem acceptCommit_bounds (o : Origin) (s : State) : KeepsBounds s (acceptCommit o s) :=
  .ite (fun _ => (queueAnnouncement_bounds .switch pendingBank_bounded).trans (.modPlan id)) fun _ => .modPlan id

theorem countdownTick_bounds (s : State) : KeepsBounds s (countdownTick s) :=
  .ite (fun _ => .refl s) fun _ => .ite (fun _ => .modPlan id) fun _ => .modPlan id

theorem clearCountdown_bounds (s : State) : KeepsBounds s (clearCountdown s) := .modPlan id

theorem planLoss_bounds (s : State) : KeepsBounds s (planLoss s) := by
  have cleared := clearCountdown_bounds s
  unfold planLoss
  split
  · exact .refl s
  · exact .refl s
  · exact (freeHold_bounds s).trans (raise_bounds _ _ _ _)
  · refine .ite (fun _ => ?_) fun _ => .refl s
    dsimp only
    split
    · exact (cleared.trans (.modPlan id)).trans (raise_bounds _ _ _ _)
    · exact ((cleared.trans (freeHold_bounds _)).trans (raise_bounds _ _ _ _)).trans (raise_bounds _ _ _ _)

theorem planRestart_bounds (s : State) : KeepsBounds s (planRestart s) := by
  have freed := (clearCountdown_bounds s).trans (freeHold_bounds _)
  unfold planRestart
  split
  · exact clearCountdown_bounds s
  · exact freed.trans (raise_bounds _ _ _ _)
  · exact (freed.trans (raise_bounds _ _ _ _)).trans (raise_bounds _ _ _ _)

theorem emptyRelayOut_bounds (s : State) : KeepsBounds s (s.modControl fun c => { c with relayOut := [] }) :=
  .part (emptyRelayOut_only s) .relayOut fun _ => Nat.zero_le _

theorem emptyAnnounce_bounds (s : State) : KeepsBounds s (s.modControl fun c => { c with announce := [] }) :=
  .part (emptyAnnounce_only s) .announce fun _ => Nat.zero_le _

theorem discardRelayOut_bounds (s : State) : KeepsBounds s (discardRelayOut s) :=
  .ite (fun _ => .refl s) fun _ => (emptyRelayOut_bounds s).trans (raise_bounds _ _ _ _)

theorem lossOfLink_bounds (s : State) : KeepsBounds s (lossOfLink s) :=
  ((((planLoss_bounds s).trans (.modPlan id)).trans (emptyAnnounce_bounds _)).trans (stopEcho_bounds _)).trans
    (discardRelayOut_bounds _)

/-! ### The link -/

theorem recordDrop_bounds (cause : Cause) (s : State) : KeepsBounds s (recordDrop cause s) :=
  (KeepsBounds.only (modLink_only _ s)).trans (raise_bounds _ _ _ _)

theorem dropToDown_bounds (cause : Cause) (s : State) : KeepsBounds s (dropToDown cause s) :=
  ((recordDrop_bounds cause s).trans (.only (enterDown_only _))).trans (lossOfLink_bounds _)

theorem trainingFailure_bounds (s : State) : KeepsBounds s (trainingFailure s) :=
  .ite (fun _ => .only (enterMeasure_only _ s)) fun _ => (KeepsBounds.only (modLink_only _ s)).trans (dropToDown_bounds _ _)

theorem enterUp_bounds (s : State) : KeepsBounds s (enterUp s) :=
  ((((KeepsBounds.only (modLink_only _ s)).trans (.only (modBuilder_only _ _))).trans (raise_bounds _ _ _ _)).trans
    (announceInForce_bounds _)).trans (startEcho_bounds _)

theorem trainTick_bounds (s : State) : KeepsBounds s (trainTick s) :=
  .ite (fun _ => enterUp_bounds s) fun _ => .only (modLink_only _ s)

theorem trainEnd_bounds (s : State) : KeepsBounds s (trainEnd s) := .ite (fun _ => enterUp_bounds s) fun _ => .refl s

theorem applyDueClass_bounds (s : State) : KeepsBounds s (applyDueClass s) := by
  unfold applyDueClass
  split
  · exact ((KeepsBounds.only (modLink_only _ s)).trans (raise_bounds _ _ _ _)).trans (.only (proposalToNone_only _ _))
  · exact .refl s

theorem takeVerdict_bounds (p : Period) (s : State) : KeepsBounds s (takeVerdict p s) := by
  have judged (f : LinkCtl → LinkCtl) : KeepsBounds s (s.modLink f) := .only (modLink_only f s)
  unfold takeVerdict
  dsimp only
  split
  · exact judged _
  · exact (judged _).trans (dropToDown_bounds _ _)

theorem superviseTick_bounds (s : State) : KeepsBounds s (superviseTick s) :=
  .ite (fun _ => (takeVerdict_bounds _ s).trans (bump_bounds _ _)) fun _ => takeVerdict_bounds _ s

theorem lossCriterion_bounds (s : State) : KeepsBounds s (lossCriterion s) :=
  .ite (fun _ => superviseTick_bounds s) fun _ => .refl s

theorem measureExpiry_bounds (s : State) : KeepsBounds s (measureExpiry s) :=
  .ite (fun _ => trainingFailure_bounds s) fun _ => .refl s

theorem offerExpiry_bounds (s : State) : KeepsBounds s (offerExpiry s) :=
  .ite (fun _ => trainingFailure_bounds s) fun _ => .refl s

theorem answerExpiry_bounds (s : State) : KeepsBounds s (answerExpiry s) := by
  have abandoned (b : Bool) : KeepsBounds s (proposalToNone b s) := .only (proposalToNone_only b s)
  unfold answerExpiry
  split
  · exact .ite (fun _ => .refl s) fun _ => .ite (fun _ => abandoned true) fun _ =>
      .ite (fun _ => dropToDown_bounds _ s) fun _ => abandoned false
  · exact .refl s

theorem marginExpiry_bounds (s : State) : KeepsBounds s (marginExpiry s) := by
  have low (k : EventKind) (f : Timers → Timers) (a b : Nat) : KeepsBounds s ((s.modTimers f).raise k a b) :=
    (KeepsBounds.only (modTimers_only f s)).trans (raise_bounds k a b _)
  refine .ite (fun _ => ?_) fun _ => .refl s
  dsimp only
  split
  · exact low _ _ _ _
  · exact (low _ _ _ _).trans (.only (propose_only _ _))

theorem carrierLost_bounds (s : State) : KeepsBounds s (carrierLost s) :=
  .ite (fun _ => dropToDown_bounds _ s) fun _ => .refl s

theorem disableLink_bounds (s : State) : KeepsBounds s (disableLink s) :=
  ((KeepsBounds.only (modLink_only _ s)).trans (.only (modTest_only _ _))).trans (lossOfLink_bounds _)

theorem enterTest_bounds (s : State) : KeepsBounds s (enterTest s) :=
  (KeepsBounds.trans (.ite (fun _ => recordDrop_bounds _ s) fun _ => .refl s) (.only (modLink_only _ _))).trans
    (lossOfLink_bounds _)

theorem leaveTest_bounds (s : State) : KeepsBounds s (leaveTest s) :=
  ((KeepsBounds.only (modTest_only _ s)).trans (.only (enterDown_only _))).trans (lossOfLink_bounds _)

/-! ### The frame event -/

theorem assess_bounds (s : State) : KeepsBounds s (assess s) := by
  rw [assess_eq]
  exact ((KeepsBounds.only (modBuilder_only _ s)).trans (.each discardReleased_bounds _ _)).trans (raiseAll_bounds _ _)

theorem banksBounded_banksSwitched {p : PlanStore} (h : BanksBounded p) : BanksBounded (banksSwitched p) :=
  banksBounded_bankSet (banksBounded_bankSet h (otherId p) (v := { bankGet p (otherId p) with role := .active })
    (bankGet_bounded h _)) (activeId p) (by decide)

theorem takeSwitch_bounds (s : State) : KeepsBounds s (takeSwitch s) := by
  cases due : s.plan.due with
  | none => rw [takeSwitch_none due]; exact .refl s
  | some d =>
    have settled : KeepsBounds s (switchSettled s) :=
      (KeepsBounds.modPlan banksBounded_banksSwitched).trans (.only (modBuilder_only _ _))
    have raised : KeepsBounds s (switchRaised s) :=
      (settled.trans (.each discardReleased_bounds _ _)).trans (raise_bounds _ _ _ _)
    rw [takeSwitch_due due]
    exact raised.trans (.ite (fun _ => KeepsBounds.trans (.ite (fun _ => announceInForce_bounds _) fun _ => .refl _)
      (startEcho_bounds _)) fun _ => stopEcho_bounds _)

theorem prepareUp_bounds (switched : Bool) (s : State) : KeepsBounds s (prepareUp switched s) := by
  have applied (f : Builder → Builder) : KeepsBounds s ((applyDueClass s).modBuilder f) :=
    (applyDueClass_bounds s).trans (.only (modBuilder_only f _))
  unfold prepareUp
  exact ((applied _).trans (.ite (fun _ => assess_bounds _) fun _ => .refl _)).trans (.only (modBuilder_only _ _))

/-- The chosen cell leaves its queue, and no queue gets longer (R122). -/
theorem chooseCell_bounds (s : State) : KeepsBounds s (chooseCell s).2 := by
  have shorter {α : Type} {x : α} {xs q : List α} (h : q = x :: xs) : xs.length ≤ q.length := h ▸ Nat.le_succ _
  cases announce : s.control.announce with
  | cons => simp only [chooseCell_announce announce]; exact .modControl (shorter announce) le_rfl le_rfl le_rfl
  | nil =>
    cases responses : s.control.responses with
    | cons => simp only [chooseCell_response announce responses]; exact .modControl le_rfl (shorter responses) le_rfl le_rfl
    | nil =>
      cases relay : s.control.relayOut with
      | cons => simp only [chooseCell_relay announce responses relay]; exact .modControl le_rfl le_rfl (shorter relay) le_rfl
      | nil =>
        cases notices : s.control.notices with
        | cons =>
          simp only [chooseCell_notice announce responses relay notices]
          exact .modControl le_rfl le_rfl le_rfl (shorter notices)
        | nil => simp only [chooseCell_idle announce responses relay notices]; exact .refl s

theorem auxLeave_bounds (s : State) : KeepsBounds s (auxLeave s) :=
  .each (fun _ _ => .modSide fun h => ⟨(List.drop_sublist _ _).length_le.trans h.1, h.2⟩) _ s

theorem handOverUp_bounds (switched : Bool) (s : State) : KeepsBounds s (handOverUp switched s) := by
  have counted : KeepsBounds s (classCountTick (countdownTick s)) :=
    (countdownTick_bounds s).trans (.only (classCountTick_only _))
  exact ((counted.trans (.only (modLink_only _ _))).trans (auxLeave_bounds _)).trans
    (.ite (fun _ => .refl _) fun _ => echoTick_bounds _)

theorem carriageFrame_bounds (switched : Bool) (s : State) : KeepsBounds s (carriageFrame switched s) := by
  have filled : KeepsBounds s (carriageFilled switched s) :=
    (prepareUp_bounds switched s).trans (.only (fill_only _))
  rw [carriageFrame_eq]
  exact ((filled.trans (chooseCell_bounds _)).trans (.only (handToLine_only _ _))).trans (handOverUp_bounds _ _)

theorem trainingFrame_bounds (s : State) : KeepsBounds s (trainingFrame s) := by
  have sent (f : Frame) : KeepsBounds s (countdownTick (handToLine f (chooseCell s).2)) :=
    ((chooseCell_bounds s).trans (.only (handToLine_only _ _))).trans (countdownTick_bounds _)
  unfold trainingFrame
  exact (sent _).trans (.ite (fun _ => trainTick_bounds _) fun _ => .refl _)

theorem countTile_bounds (errored : Bool) (s : State) : KeepsBounds s (countTile errored s) := by
  have counted (f : TestUnit → TestUnit) : KeepsBounds s (s.modTest f) := .only (modTest_only f s)
  refine .ite (fun _ => .ite (fun _ => counted _) fun _ => ?_) fun _ => counted _
  split
  · exact counted _
  · exact (counted _).trans (raise_bounds _ _ _ _)

theorem checkSlot_bounds (d : DataSlot) (s : State) : KeepsBounds s (checkSlot d s) := by
  cases d with
  | pattern seq samples => exact countTile_bounds _ s
  | _ => exact .refl s

theorem checkReturn_bounds (r : ReturnSlot) (s : State) : KeepsBounds s (checkReturn r s) :=
  .ite (fun _ => countTile_bounds _ s) fun _ => .refl s

theorem testFrame_bounds (s : State) : KeepsBounds s (testFrame s) := by
  have shown (f : TestUnit → TestUnit) : KeepsBounds s ((chooseCell s).2.modTest f) :=
    (chooseCell_bounds s).trans (.only (modTest_only _ _))
  unfold testFrame
  exact ((shown _).trans (.ite (fun _ => .each checkSlot_bounds _ _) fun _ => .only (handToLine_only _ _))).trans
    (countdownTick_bounds _)

theorem frameEvent_bounds (s : State) : KeepsBounds s (frameEvent s) := by
  have switched : KeepsBounds s (takeSwitch (countFrame s)) :=
    (KeepsBounds.only (countFrame_only s)).trans (takeSwitch_bounds _)
  unfold frameEvent
  dsimp only
  split
  · exact switched.trans (carriageFrame_bounds _ _)
  · exact switched.trans (trainingFrame_bounds _)
  · exact switched.trans (trainingFrame_bounds _)
  · exact switched.trans (trainingFrame_bounds _)
  · exact switched.trans (testFrame_bounds _)
  · exact switched
  · exact switched

/-! ### The services -/

theorem relayArrives_bounds (m : RelayMessage) (s : State) : KeepsBounds s (relayArrives m s) := by
  unfold relayArrives
  split
  · exact (bump_bounds _ s).trans (raiseForced_bounds _ _ _ _)
  · exact (KeepsBounds.only (setMailbox_only _ s)).trans (raise_bounds _ _ _ _)

/-- The transmitter takes its record from the out queue (R158). -/
theorem startSending_bounds (i : SideId) (s : State) : KeepsBounds s (startSending i s) := by
  unfold startSending
  dsimp only
  split
  · exact .modSide id
  · rename_i r rest queue
    have taken : KeepsBounds s (s.modSide i fun x => { x with outQueue := rest, shifting := some (sentByteOf x r) }) :=
      .modSide fun h => ⟨h.1, by have := h.2; rw [queue] at this; exact (Nat.le_succ _).trans this⟩
    exact .ite (fun _ => taken.trans (bump_bounds _ _)) fun _ => taken

theorem sideOut_bounds (i : SideId) (r : ByteRecord) (s : State) : KeepsBounds s (sideOut i r s) := by
  refine .ite (fun _ => bump_bounds _ s) fun room => ?_
  have queued : KeepsBounds s (s.modSide i fun x => { x with outQueue := x.outQueue ++ [r] }) :=
    .modSide fun h => ⟨h.1, by simpa using Nat.lt_of_not_le room⟩
  exact .ite (fun _ => queued.trans (startSending_bounds i _)) fun _ => queued

theorem takeAux_bounds (a : PerSide (List ByteRecord)) (s : State) : KeepsBounds s (takeAux a s) :=
  .each (fun i s => .each (sideOut_bounds i) _ s) _ s

theorem sideIn_bounds (i : SideId) (data : Byte) (parityBit stopBit : Bool) (s : State) :
    KeepsBounds s (sideIn i data parityBit stopBit s) := by
  have joins (v : State) (m : ByteMark) : KeepsBounds v (if 64 ≤ (v.side i).inQueue.length then v.bump (.side i .inOverruns)
      else v.modSide i fun x => { x with inQueue := x.inQueue ++ [{ data := data, mark := m }] }) :=
    .ite (fun _ => bump_bounds _ v) fun room => .modSide fun h => ⟨by simpa using Nat.lt_of_not_le room, h.2⟩
  unfold sideIn
  dsimp only
  split
  · exact joins s _
  · exact (bump_bounds _ s).trans (joins _ _)
  · exact (bump_bounds _ s).trans (joins _ _)

theorem sideSent_bounds (i : SideId) (s : State) : KeepsBounds s (sideSent i s) :=
  .ite (fun _ => .refl s) fun _ => startSending_bounds i s

theorem takeReturn_bounds (r : ReturnSlot) (s : State) : KeepsBounds s (takeReturn r s) := by
  refine .ite (fun _ => .ite (fun room => ?_) fun _ => bump_bounds _ s) fun _ => .refl s
  exact .part (modRet_only _ s) .ret fun _ => by simpa [PartBounded] using room

theorem viewfinderTakes_bounds (s : State) : KeepsBounds s (viewfinderTakes s) := by
  unfold viewfinderTakes
  split
  · exact .refl s
  · rename_i tile rest buffer
    refine .part (modRet_only _ s) .ret fun h => ?_
    have before := (queuesBounded_iff s).mp h .ret
    rw [PartBounded, buffer] at before
    exact (Nat.le_succ _).trans before

theorem referenceGone_bounds (s : State) : KeepsBounds s (referenceGone s) :=
  .ite (fun _ => .refl s) fun _ => (raise_bounds _ _ _ s).trans (.only (setRefWatch_only _ _))

theorem referenceMs_bounds (s : State) : KeepsBounds s (referenceMs s) := by
  unfold referenceMs
  split
  · exact .only (setRefWatch_only _ s)
  · exact referenceGone_bounds s

/-! ### Reset and LINK_RESTART -/

/-- At pin reset every counter stands at 0 and every queue is empty but for RESET_DONE (R172, R174, R182). -/
theorem KeepsBounds.reset (counters : t.counters = Counters.reset) (control : t.control = ControlQueues.reset)
    (events : t.events.queue.length ≤ 32 ∧ t.events.lost ≤ 255) (ret : t.ret.buffer = [])
    (sides : t.sides = .all .reset) (plan : t.plan = PlanStore.reset) : KeepsBounds s t where
  counters _ id := by
    have same : t.counter id = State.reset.counter id := congrArg (counterGet · id) counters
    rw [same, counter_reset]
    decide
  queues _ := by
    refine ⟨by rw [control]; decide, by rw [control]; decide, by rw [control]; decide, by rw [control]; decide, events.1,
      events.2, by rw [ret]; decide, fun i => ?_, by rw [plan]; decide, by rw [plan]; decide⟩
    rw [State.side, sides]
    cases i <;> decide

theorem startFromReset_bounds (k : Byte) (s : State) : KeepsBounds s (startFromReset k s) := by
  rw [startFromReset_eq]
  exact .reset rfl rfl ⟨Nat.le_of_ble_eq_true rfl, Nat.zero_le _⟩ rfl rfl rfl

theorem restartRecords_bounds (s : State) : KeepsBounds s (restartRecords s) := by
  have emptied : KeepsBounds s (queuesEmptied s) :=
    .modControl (f := fun _ => ⟨[], [], [], []⟩) (Nat.zero_le _) (Nat.zero_le _) (Nat.zero_le _) (Nat.zero_le _)
  have dropped : KeepsBounds s (planRestart (dropRecorded s)) :=
    (emptied.trans (.ite (fun _ => recordDrop_bounds _ _) fun _ => .refl _)).trans (planRestart_bounds _)
  rw [restartRecords_eq]
  exact .ite (fun _ => dropped) fun _ => dropped.trans (raise_bounds _ _ _ _)

theorem emptySides_bounds (s : State) : KeepsBounds s (emptySides s) :=
  .each (fun _ _ => .modSide fun _ => ⟨Nat.zero_le _, Nat.zero_le _⟩) _ s

theorem restartServices_bounds (s : State) : KeepsBounds s (restartServices s) := by
  have sides := (KeepsBounds.only (setMailbox_only .empty s)).trans (emptySides_bounds _)
  have emptied (v : State) : KeepsBounds v (v.modRet fun r => { r with buffer := [] }) :=
    .part (modRet_only _ v) .ret fun _ => Nat.zero_le _
  exact ((sides.trans (.only (modTally_only _ _))).trans (emptied _)).trans (.only (modTest_only _ _))

theorem lanesRestarted_bounds (s : State) : KeepsBounds s (lanesRestarted s) :=
  ((restartRecords_bounds s).trans (.only (modLink_only _ _))).trans (.each restartLane_bounds _ _)

theorem blocksRestarted_bounds (lost : Bool) (s : State) : KeepsBounds s (blocksRestarted lost s) := by
  unfold blocksRestarted
  exact ((KeepsBounds.only (modBuilder_only _ s)).trans (.modPlan id)).trans (restartServices_bounds _)

theorem restartLink_bounds (s : State) : KeepsBounds s (restartLink s) := by
  rw [restartLink_eq]
  exact ((lanesRestarted_bounds s).trans (restartGroups_bounds _)).trans (blocksRestarted_bounds _ _)

/-! ### The commands -/

theorem editing_bounds {edit : State → State × Reply} (h : ∀ s, KeepsBounds s (edit s).1) (o : Origin) (s : State) :
    KeepsBounds s (editing o s edit).1 := by
  unfold editing
  split
  · exact .refl s
  · exact (restartHoldTimer_bounds s).trans (h _)

theorem cmdPlanPut_bounds (o : Origin) (index : Byte) (e : Option Entry) (s : State) :
    KeepsBounds s (cmdPlanPut o index e s).1 := by
  refine editing_bounds (fun v => ?_) o s
  dsimp only
  split
  · exact .refl v
  · split
    · exact edited_bounds fun h => by rwa [List.length_set]
    · exact .refl v
    · exact .refl v

/-- A full plan takes no further entry (R69). -/
theorem cmdPlanInsert_bounds (o : Origin) (index : Byte) (e : Option Entry) (s : State) :
    KeepsBounds s (cmdPlanInsert o index e s).1 := by
  refine editing_bounds (fun v => ?_) o s
  dsimp only
  split
  · exact .refl v
  · rename_i within
    split
    · exact .refl v
    · rename_i room
      split
      · refine edited_bounds fun _ => ?_
        rw [List.length_insertIdx_of_le_length (Nat.le_of_not_lt within)]
        exact Nat.lt_of_not_le room
      · exact .refl v
      · exact .refl v

theorem cmdPlanRemove_bounds (o : Origin) (index : Byte) (s : State) : KeepsBounds s (cmdPlanRemove o index s).1 := by
  refine editing_bounds (fun v => ?_) o s
  dsimp only
  split
  · exact .refl v
  · exact edited_bounds (List.eraseIdx_sublist _ _).length_le.trans

theorem cmdPlanCommit_bounds (o : Origin) (s : State) : KeepsBounds s (cmdPlanCommit o s).1 := by
  unfold cmdPlanCommit
  split
  · exact .refl s
  · cases commitCheck s with
    | passes => exact acceptCommit_bounds o s
    | _ => exact restartHoldTimer_bounds s

theorem cmdPlanAbandon_bounds (o : Origin) (s : State) : KeepsBounds s (cmdPlanAbandon o s).1 := by
  unfold cmdPlanAbandon
  split
  · exact .refl s
  · exact freeHold_bounds s

theorem cmdPlanOpen_bounds (o : Origin) (s : State) : KeepsBounds s (cmdPlanOpen o s).1 := by
  unfold cmdPlanOpen
  split
  · exact .refl s
  · exact .ite (fun _ => openHold_bounds o s) fun _ => restartHoldTimer_bounds s

theorem cmdLaneSet_bounds (l c : Byte) (w h : Word16) (m : Byte) (a : Word16) (g : Byte) (s : State) :
    KeepsBounds s (cmdLaneSet l c w h m a g s).1 := by
  unfold cmdLaneSet
  split
  · dsimp only
    split
    · exact .refl s
    · exact installDescriptor_bounds _ _ s
  · exact .refl s

theorem cmdLaneStart_bounds (l : Byte) (s : State) : KeepsBounds s (cmdLaneStart l s).1 := by
  unfold cmdLaneStart
  split
  · exact .refl s
  · split
    · exact startLane_bounds _ s
    · exact .refl s

theorem cmdLaneStop_bounds (l : Byte) (s : State) : KeepsBounds s (cmdLaneStop l s).1 := by
  unfold cmdLaneStop
  split
  · exact .refl s
  · exact stopLane_bounds _ s

theorem cmdGroupSet_bounds (g k : Byte) (s : State) : KeepsBounds s (cmdGroupSet g k s).1 := by
  unfold cmdGroupSet
  split
  · exact .refl s
  · exact (KeepsBounds.only (modGroup_only _ _ s)).trans (evaluate_bounds _ _)

theorem cmdLinkEnable_bounds (on : Byte) (s : State) : KeepsBounds s (cmdLinkEnable on s).1 := by
  unfold cmdLinkEnable
  split
  · exact .refl s
  · exact .ite (fun _ => .only (enableLink_only s)) fun _ => .refl s
  · exact .ite (fun _ => .refl s) fun _ => disableLink_bounds s

theorem cmdTestStart_bounds (mode countMode cls : Byte) (s : State) :
    KeepsBounds s (cmdTestStart mode countMode cls s).1 := by
  have started (m : TestMode) (c : CountMode) (k : RateClass) : KeepsBounds s (startTest m c k s) := .only (modTest_only _ s)
  unfold cmdTestStart
  split
  · split
    · exact .refl s
    · exact (started _ _ _).trans (.ite (fun _ => .refl _) fun _ => enterTest_bounds _)
  · exact .refl s

theorem cmdTestStop_bounds (s : State) : KeepsBounds s (cmdTestStop s).1 := by
  unfold cmdTestStop
  split
  · exact leaveTest_bounds s
  · exact .refl s

/-- RELAY_SEND is refused where 4 messages wait (R153). -/
theorem cmdRelaySend_bounds (tag : Byte) (m : List Byte) (s : State) : KeepsBounds s (cmdRelaySend tag m s).1 := by
  refine .part (cmdRelaySend_only tag m s) .relayOut fun h => ?_
  have before := (queuesBounded_iff s).mp h .relayOut
  unfold cmdRelaySend
  split
  · exact before
  · split
    · exact before
    · rename_i room
      simpa [PartBounded] using Nat.lt_of_not_le room

theorem cmdEventRead_bounds (s : State) : KeepsBounds s (cmdEventRead s).1 :=
  .part (modEvents_only _ s) .events fun h =>
    ⟨(List.drop_sublist _ _).length_le.trans ((queuesBounded_iff s).mp h .events).1, Nat.zero_le _⟩

theorem cmdEventMask_bounds (o : Origin) (mask : EventBits) (s : State) : KeepsBounds s (cmdEventMask o mask s).1 :=
  .part (modEvents_only _ s) .events fun h => by
    cases o <;> exact (queuesBounded_iff s).mp h .events

/-- The counters of a group are set to 0 one after another (R173). -/
theorem clearCounters_bounds (ids : List CounterId) (s : State) :
    KeepsBounds s (s.modCounters fun c => ids.foldl (fun c id => counterSet c id .reset) c) := by
  induction ids generalizing s with
  | nil => exact .refl s
  | cons id ids ih =>
    have cleared : KeepsBounds s (s.modCounters fun c => counterSet c id .reset) := counterSet_bounds fun _ => by decide
    exact cleared.trans (ih _)

theorem cmdCountersClear_bounds (group : Byte) (s : State) : KeepsBounds s (cmdCountersClear group s).1 := by
  unfold cmdCountersClear
  split
  · exact .refl s
  · exact clearCounters_bounds _ s

theorem cmdSidelineSet_bounds (line rate parity : Byte) (s : State) : KeepsBounds s (cmdSidelineSet line rate parity s).1 := by
  unfold cmdSidelineSet setSide
  split
  · dsimp only
    exact .modSide fun _ => ⟨Nat.zero_le _, Nat.zero_le _⟩
  · exact .refl s

theorem perform_bounds (o : Origin) (tag : Byte) (c : Cmd) (s : State) : KeepsBounds s (perform o tag c s).1 := by
  cases c with
  | partReset => exact startFromReset_bounds 2 s
  | laneSet l c w h m a g => exact cmdLaneSet_bounds l c w h m a g s
  | laneStart l => exact cmdLaneStart_bounds l s
  | laneStop l => exact cmdLaneStop_bounds l s
  | groupSet g k => exact cmdGroupSet_bounds g k s
  | planOpen => exact cmdPlanOpen_bounds o s
  | planPut i l q p t d => exact cmdPlanPut_bounds o i _ s
  | planInsert i l q p t d => exact cmdPlanInsert_bounds o i _ s
  | planRemove i => exact cmdPlanRemove_bounds o i s
  | planCommit => exact cmdPlanCommit_bounds o s
  | planAbandon => exact cmdPlanAbandon_bounds o s
  | linkEnable on => exact cmdLinkEnable_bounds on s
  | linkRestart => exact restartLink_bounds s
  | relaySend m => exact cmdRelaySend_bounds tag m s
  | eventRead => exact cmdEventRead_bounds s
  | eventMask m => exact cmdEventMask_bounds o m s
  | countersClear g => exact cmdCountersClear_bounds g s
  | sidelineSet i r p => exact cmdSidelineSet_bounds i r p s
  | testStart m n k => exact cmdTestStart_bounds m n k s
  | testStop => exact cmdTestStop_bounds s
  | _ => exact .only (perform_only o tag _ s) (by simp [cmdParts])

/-! ### The command unit -/

/-- A command leaves the base response queue alone, or empties it (R169, R145). -/
theorem perform_responses (o : Origin) (tag : Byte) (c : Cmd) (s : State) :
    (perform o tag c s).1.control.responses = s.control.responses ∨ (perform o tag c s).1.control.responses = [] := by
  cases c with
  | partReset =>
    right
    change (startFromReset 2 s).control.responses = []
    rw [startFromReset_eq]
    rfl
  | linkRestart => exact .inr (restartLink_queues s).2.1
  | _ => exact .inl (perform_only o tag _ s .responses (by simp [cmdParts]))

theorem takeCommand_bounds (o : Origin) (op tag : Byte) (c : Option Cmd) (s : State) :
    KeepsBounds s (takeCommand o op tag c s).1 ∧
      (takeCommand o op tag c s).1.control.responses.length ≤ s.control.responses.length := by
  cases c with
  | none => exact ⟨.refl s, le_rfl⟩
  | some c =>
    simp only [takeCommand]
    split
    · exact ⟨.refl s, le_rfl⟩
    · split
      · exact ⟨.refl s, le_rfl⟩
      · refine ⟨perform_bounds o tag c s, ?_⟩
        obtain same | none := perform_responses o tag c s
        · exact (congrArg List.length same).le
        · exact (congrArg List.length none).trans_le (Nat.zero_le _)

theorem takeHeadCommand_bounds (op tag : Byte) (c : Option Cmd) (s : State) :
    KeepsBounds s (takeHeadCommand op tag c s) :=
  .ite (fun _ => .only (modPort_only _ s)) fun _ => (takeCommand_bounds .head op tag c s).1.trans (.only (answerHead_only _))

/-- A base command is taken while fewer than 8 responses wait, and leaves one (R152). -/
theorem takeBaseCommand_bounds (op tag : Byte) (c : Option Cmd) (s : State) :
    KeepsBounds s (takeBaseCommand op tag c s) := by
  refine .ite (fun _ => bump_bounds _ s) fun room => ?_
  obtain ⟨taken, left⟩ := takeCommand_bounds .base op tag c s
  refine taken.trans (.part (answerBase_only _) .responses fun h => ?_)
  have before := (queuesBounded_iff _).mp h .responses
  unfold answerBase
  split
  · exact before
  · have fewer : (takeCommand .base op tag c s).1.control.responses.length < 8 := left.trans_lt (Nat.lt_of_not_le room)
    simpa [PartBounded] using fewer

theorem submit_bounds (o : Origin) (tag : Byte) (c : Cmd) (s : State) : KeepsBounds s (submit o tag c s) := by
  refine .ite (fun _ => .refl s) fun _ => ?_
  cases o with
  | head => exact takeHeadCommand_bounds _ tag _ s
  | base => exact .ite (fun _ => takeBaseCommand_bounds _ tag _ s) fun _ => .refl s

/-! ### The head port and the receiver -/

theorem endTransaction_bounds {body : Byte → State → State} (hb : ∀ b s, KeepsBounds s (body b s)) (s : State) :
    KeepsBounds s (endTransaction body s) := by
  have fallen : KeepsBounds s (selectFalls s) := .only (selectFalls_only s)
  unfold endTransaction
  dsimp only
  split
  · exact fallen.trans (.only (selectHigh_only _))
  · exact fallen.trans (.ite (fun _ => .only (selectHigh_only _)) fun _ => (hb _ _).trans (.only (selectHigh_only _)))

theorem commandTransaction_bounds (bytes : List Byte) (cut : Bool) (status : Byte) (s : State) :
    KeepsBounds s (commandTransaction bytes cut status s) := by
  have gathered : KeepsBounds s (gatherFrame bytes cut (shiftOut (zeroBytes bytes.length) (clearShown status s))) :=
    .only (ps := [.port]) (((modPort_only _ s).trans (modPort_only _ _)).trans (modPort_only _ _))
  refine gathered.trans (.ite (fun _ => .only (modPort_only _ _)) fun _ => ?_)
  split
  · exact .only (modPort_only _ _)
  · exact takeHeadCommand_bounds _ _ _ _

theorem deliverCell_bounds (c : Option Cell) (s : State) : KeepsBounds s (deliverCell c s) := by
  have command (tag : Byte) (payload : List Byte) : KeepsBounds s (takeCommandCell tag payload s) := by
    cases payload with
    | nil => exact takeBaseCommand_bounds _ _ none s
    | cons opcode args => exact takeBaseCommand_bounds _ _ _ s
  cases c with
  | none => exact bump_bounds _ s
  | some c => exact .ite (fun _ => command _ _) fun _ => .ite (fun _ => relayArrives_bounds _ s) fun _ => .refl s

theorem deliverHeader_bounds (u : UpFrame) (s : State) : KeepsBounds s (deliverHeader u s) := by
  have compared : KeepsBounds s (echoCompare u.echo (s.modRx fun r => { r with lastBaseFrameCount := u.count })) :=
    (KeepsBounds.only (modRx_only _ s)).trans (echoCompare_bounds _ _)
  have selected (v : State) : KeepsBounds v (match u.select with
      | none => v
      | some k => takeSelect k v) := by
    split
    · exact .refl v
    · exact .only (takeSelect_only _ v)
  have classed (v : State) : KeepsBounds v (if isUp v then takeClassField u.classField v else v) :=
    .ite (fun _ => .only (takeClassField_only _ _)) fun _ => .refl _
  unfold deliverHeader
  exact (((compared.trans (classed _)).trans (selected _)).trans
    (.ite (fun _ => .only (modLink_only _ _)) fun _ => .refl _)).trans
    (.ite (fun _ => .only (modTally_only _ _)) fun _ => .refl _)

theorem deliverFrame_bounds (u : UpFrame) (s : State) : KeepsBounds s (deliverFrame u s) := by
  have returned (v : State) : KeepsBounds v (deliverReturns u.returns v) :=
    .ite (fun _ => .each takeReturn_bounds _ v) fun _ => .ite (fun _ => .each checkReturn_bounds _ v) fun _ => .refl v
  exact (((deliverHeader_bounds u s).trans (deliverCell_bounds u.cell _)).trans
    (.ite (fun _ => takeAux_bounds _ _) fun _ => .refl _)).trans (returned _)

theorem takeUpstream_bounds (bytes : List Byte) (s : State) : KeepsBounds s (takeUpstream bytes s) := by
  have marked (f : UpReceiver → UpReceiver) : KeepsBounds s (s.modRx f) := .only (modRx_only f s)
  exact .ite (fun _ => .refl s) fun _ => .ite (fun _ => bump_bounds _ s) fun _ =>
    .ite (fun _ => (marked _).trans (deliverFrame_bounds _ _)) fun _ => (marked _).trans (bump_bounds _ _)

/-! ### Ticks and timers -/

theorem referenceTick_bounds (s : State) : KeepsBounds s (referenceTick s) := by
  have framed : KeepsBounds s (tickFramed s) := KeepsBounds.trans (.modPlan id) (frameEvent_bounds _)
  have judged : KeepsBounds s (tickJudged s) := framed.trans (.ite (fun _ => superviseTick_bounds _) fun _ => .refl _)
  rw [referenceTick_eq]
  exact ((judged.trans (.each silenceTick_bounds _ _)).trans (.only (tallyTick_only _))).trans (.only (tickEnded_only _))

theorem whenOut_bounds {timer : Timers → Option Nat} {f : State → State} (hf : ∀ s, KeepsBounds s (f s)) (s : State) :
    KeepsBounds s (whenOut timer f s) := .ite (fun _ => hf s) fun _ => .refl s

theorem millisecond_bounds (s : State) : KeepsBounds s (millisecond s) := by
  have counted : KeepsBounds s (countTimers s) := KeepsBounds.trans (.modPlan id) (.only (modTimers_only _ _))
  have held (v : State) : KeepsBounds v (if holdIsOut v.plan.hold then holdExpiry v else v) :=
    .ite (fun _ => holdExpiry_bounds v) fun _ => .refl v
  have retried (v : State) : KeepsBounds v (if v.link.timers.retry = .running 0 then retryExpiry v else v) :=
    .ite (fun _ => .only (retryExpiry_only v)) fun _ => .refl v
  unfold millisecond
  exact (((((((counted.trans (held _)).trans (retried _)).trans (whenOut_bounds measureExpiry_bounds _)).trans
    (whenOut_bounds offerExpiry_bounds _)).trans (whenOut_bounds answerExpiry_bounds _)).trans
    (whenOut_bounds marginExpiry_bounds _)).trans (whenOut_bounds (fun s => .only (stepUpExpiry_only s)) _)).trans
    (referenceMs_bounds _)

/-! ### The rows -/

theorem whenLive_bounds {f : State → State} (hf : ∀ s, KeepsBounds s (f s)) (s : State) : KeepsBounds s (whenLive f s) :=
  .ite (fun _ => .refl s) fun _ => hf s

/-- A row that first records the level of a pin. -/
theorem pinned_bounds {f : State → State} (hf : ∀ s, KeepsBounds s (f s)) (g : Pins → Pins) (s : State) :
    KeepsBounds s (whenLive f (s.modPins g)) := (KeepsBounds.only (modPins_only g s)).trans (whenLive_bounds hf _)

/-- A row of the blocks that hold none of them. -/
theorem live_bounds {f : State → State} (hf : ∀ s, OnlyChanges ps s (f s)) (s : State)
    (hp : ∀ q ∈ boundedParts, q ∉ ps := by decide) : KeepsBounds s (whenLive f s) := whenLive_bounds (fun s => .only (hf s) hp) s

theorem exec_bounds (i : Instr) (h : exec i s = .next t) : KeepsBounds s t := by
  induction i using instr_cases with
  | command o tag c => rw [exec_row] at h; cases h; exact submit_bounds o tag c s
  | pinReset => cases h; exact .reset rfl rfl ⟨Nat.zero_le _, Nat.zero_le _⟩ rfl rfl rfl
  | resetRelease =>
    cases h
    exact .ite (fun _ => (KeepsBounds.only (modPins_only _ s)).trans (startFromReset_bounds 1 _)) fun _ => .refl s
  | referenceTick => cases h; exact whenLive_bounds referenceTick_bounds s
  | tileBurst l b bytes =>
    rw [exec, execTileBurst] at h
    split at h
    · cases h; exact pinned_bounds (takeBurst_bounds l _) _ s
    · cases h
  | boardReadyFall l => cases h; exact pinned_bounds (boardReadyFall_bounds l) _ s
  | laneSilenceExpiry l => cases h; exact whenLive_bounds (silenceExpiry_bounds l) s
  | switchCountdownEnd =>
    cases h
    exact whenLive_bounds (fun s => .ite (fun _ => countdownTick_bounds s) fun _ => .refl s) s
  | classCountdownEnd => cases h; exact live_bounds classCountEnd_only s
  | trainSwitchEnd => cases h; exact whenLive_bounds trainEnd_bounds s
  | echoWatchExpiry => cases h; exact whenLive_bounds echoExpiry_bounds s
  | lossCriterionMet => cases h; exact whenLive_bounds lossCriterion_bounds s
  | referenceLost => cases h; exact whenLive_bounds referenceGone_bounds s
  | holdTimerExpiry => cases h; exact whenLive_bounds holdExpiry_bounds s
  | retryTimerExpiry => cases h; exact live_bounds retryExpiry_only s
  | measureTimerExpiry => cases h; exact whenLive_bounds measureExpiry_bounds s
  | offerTimerExpiry => cases h; exact whenLive_bounds offerExpiry_bounds s
  | answerTimerExpiry => cases h; exact whenLive_bounds answerExpiry_bounds s
  | marginTimerExpiry => cases h; exact whenLive_bounds marginExpiry_bounds s
  | stepUpTimerExpiry => cases h; exact live_bounds stepUpExpiry_only s
  | tallyHoldExpiry => cases h; exact live_bounds tallyExpiry_only s
  | carrierRise => cases h; exact pinned_bounds (fun s => .only (settleDown_only s)) _ s
  | carrierFall => cases h; exact pinned_bounds carrierLost_bounds _ s
  | marginWarningRise =>
    rw [exec, execMarginWarningRise] at h
    split at h
    · cases h; exact .refl s
    · cases h; exact pinned_bounds (fun s => .only (warningRises_only s)) _ s
  | marginWarningFall =>
    rw [exec, execMarginWarningFall] at h
    split at h
    · cases h; exact pinned_bounds (fun s => .only (warningFalls_only s)) _ s
    · cases h; exact .refl s
  | measurementResult k => cases h; exact live_bounds (takeMeasurement_only k) s
  | upstreamFrame bytes => cases h; exact whenLive_bounds (takeUpstream_bounds bytes) s
  | headCommandFrame bytes cut => cases h; exact endTransaction_bounds (commandTransaction_bounds bytes cut) s
  | fetch n => cases h; exact endTransaction_bounds (fun b s => .only (fetchTransaction_only n b s)) s
  | invalidTransaction kind n =>
    rw [exec, execInvalidTransaction] at h
    split at h
    · cases h
    · cases h; exact endTransaction_bounds (fun b s => .only (invalidTransaction_only kind n b s)) s
  | sidelineByteReceived i d p b => cases h; exact whenLive_bounds (sideIn_bounds i d p b) s
  | sidelineByteSent i => cases h; exact whenLive_bounds (sideSent_bounds i) s
  | returnTileTake => cases h; exact whenLive_bounds viewfinderTakes_bounds s
  | selectFall => cases h; exact .only (selectFalls_only s)

theorem step_bounds (h : step s = .next t) : KeepsBounds s t := by
  unfold step at h
  split at h
  · cases h
    exact .ite (fun _ => .refl s) fun _ => millisecond_bounds s
  · rename_i c rest _
    have popped : KeepsBounds s { s with pending := rest } := ⟨id, id⟩
    exact popped.trans (exec_bounds c h)

/-- Settles O9, by the operations of the part: each keeps both bounds. -/
theorem everyStepKeepsTheCounterAndQueueLaws : Obligations.EveryStepKeepsTheCounterAndQueueLaws :=
  ⟨fun _ _ bounded h => (step_bounds h).counters bounded, fun _ _ bounded h => (step_bounds h).queues bounded⟩

end Sys2Proof.Proofs

/-! # Proofs: the control slot

The cells of an announcement field by field as Table 12-6 has them, and the order of the four queues (R119, R122). -/

namespace Sys2Proof.Proofs

open Sys2Proof.Machine Sys2Proof.Claims

variable {s : State}

/-! ### The fields of the cells -/

theorem wordBytes_add (w : Word16) (n : Nat) : wordBytes (w + wordOf n) = two (w.toNat + n) := by
  have sum : w + wordOf n = wordOf (w.toNat + n) := by rw [wordOf, wordOf, BitVec.ofNat_add, BitVec.ofNat_toNat]; rfl
  rw [sum]
  exact bytes2_eq_two _

theorem entryBytes_eq (i : Nat) (e : Entry) : entryBytes i e = [byteOf i, byteOf (laneNum e.lane)] ++ two e.share ++
    [byteOf e.priority.val, byteOf (boolNum e.thinning), byteOf (boolNum e.drain)] := by rw [entryBytes, bytes2_eq_two]

theorem laneBytes_eq (s : State) : laneBytes s = fun l =>
    [byteOf (laneNum l)] ++ two (s.lane l).desc.w ++ two (s.lane l).desc.h ++ [byteOf (s.lane l).desc.m] := by
  funext l
  simp [laneBytes, bytes2_eq_two]

/-- The bank that an announcement reads (R119). -/
def announcedBank (kind : AnnounceKind) (s : State) : Bank :=
  match kind with
  | .switch => pendingBank s
  | .inForce => activeBank s

/-- The kind, as its number, and the epoch: what every cell of an announcement begins with. -/
def announceNamed (kind : AnnounceKind) (s : State) : List Byte := [byteOf (announceNum kind), (announcedBank kind s).epoch]

/-- The rows of the k-th entry cell: the entries 4k to 4k + 3 that exist. -/
def entryRows (es : List Entry) (k : Nat) : List (List Byte) := ((es.mapIdx entryBytes).drop (4 * k)).take 4

theorem length_entryRows (es : List Entry) (k : Nat) : (entryRows es k).length = min 4 (es.length - 4 * k) := by
  simp [entryRows]

theorem entryRows_getElem? {es : List Entry} {k j : Nat} {row : List Byte} {e : Entry} (h : (entryRows es k)[j]? = some row)
    (entry : es[4 * k + j]? = some e) : row = entryBytes (4 * k + j) e := by
  have within : j < 4 := by
    have := (List.getElem?_eq_some_iff.mp h).1
    rw [length_entryRows] at this
    omega
  rw [entryRows, List.getElem?_take_of_lt within, List.getElem?_drop, List.getElem?_mapIdx, entry] at h
  exact (Option.some.inj h).symm

/-! ### The cells -/

theorem announceCellOf_head (s : State) (kind : AnnounceKind) (tag : Nat) :
    announceCellOf s ⟨kind, tag, .head⟩ =
      ⟨16, byteOf tag, announceNamed kind s ++
        [byteOf (announcedBank kind s).entries.length, byteOf (2 + ((announcedBank kind s).entries.length + 3) / 4)] ++
        match kind with
        | .switch => two (s.builder.frameCount.toNat + s.plan.countdown)
        | .inForce => []⟩ := by
  rw [Nat.add_comm 2]
  cases kind with
  | switch => simp only [announceCellOf, wordBytes_add]; rfl
  | inForce => rfl

theorem announceCellOf_entries (s : State) (kind : AnnounceKind) (tag k : Nat) :
    announceCellOf s ⟨kind, tag, .entries k⟩ =
      ⟨17, byteOf tag, announceNamed kind s ++ (entryRows (announcedBank kind s).entries k).flatten⟩ := by
  cases kind <;> simp only [announceCellOf, entriesFrom_eq] <;> rfl

theorem announceCellOf_lanes (s : State) (kind : AnnounceKind) (tag : Nat) :
    announceCellOf s ⟨kind, tag, .lanes⟩ =
      ⟨18, byteOf tag, announceNamed kind s ++
        (laneIds.filter (names (announcedBank kind s).entries)).flatMap (laneBytes s)⟩ := by
  cases kind <;> rfl

/-- Settles O45, cell by cell and queue by queue. -/
theorem theControlSlotServesInOrder : Obligations.TheControlSlotServesInOrder := by
  refine ⟨fun kind n => ⟨length_announcement kind n, fun _ _ h => announcement_getElem? h⟩, fun s kind tag k => ?_,
    fun s => ⟨fun c rest h => chooseCell_announce h, fun announce => ⟨fun r rest h => chooseCell_response announce h,
      fun responses => ⟨fun m rest h => chooseCell_relay announce responses h, fun relay =>
        ⟨fun e rest h => chooseCell_notice announce responses relay h, chooseCell_idle announce responses relay⟩⟩⟩⟩⟩
  have head := announceCellOf_head s kind tag
  have entries := announceCellOf_entries s kind tag k
  have lanes := announceCellOf_lanes s kind tag
  rw [laneBytes_eq] at lanes
  have rows {es : List Entry} {j : Nat} {row : List Byte} {e : Entry} (h : (entryRows es k)[j]? = some row)
      (entry : es[4 * k + j]? = some e) := (entryRows_getElem? h entry).trans (entryBytes_eq _ e)
  cases kind with
  | switch => exact ⟨head, ⟨_, length_entryRows _ k, entries, fun _ _ _ => rows⟩, lanes⟩
  | inForce => exact ⟨head, ⟨_, length_entryRows _ k, entries, fun _ _ _ => rows⟩, lanes⟩

end Sys2Proof.Proofs

/-! # Proofs: what ends at a tick

The rows of the counts, holds and watches that run out (R116, R124, R133, R135, R144, R159, R161). -/

namespace Sys2Proof.Proofs

open Sys2Proof.Machine Sys2Proof.Claims

variable {s t : State} {k : RateClass} {n repeats : Nat} {last : Option Byte}

/-- A row of the part with reset high is its operation (R182). -/
theorem next_whenLive {f : State → State} (live : s.pins.resetLow = false) (h : f s = t) :
    (.next (whenLive f s) : Host.Outcome State Fault Refusal) = .next t := by rw [whenLive_eq live, h]

/-! ### The countdowns (R116, R144) -/

theorem countdownEnd_due (h : s.plan.countdown = 1) :
    countdownEnd s = { s with plan := { s.plan with countdown := 0, due := some .counted } } := by
  have counts : s.plan.countdown ≠ 0 := by omega
  simp only [countdownEnd, countdownTick, if_pos h, if_neg counts]
  rfl

theorem countdownEnd_stands (h : s.plan.countdown ≠ 1) : countdownEnd s = s := if_neg h

theorem classCountEnd_due {b : Bool} (h : s.link.proposal = .counting 1 k b) :
    classCountEnd s = { s with link := { s.link with proposal := .counting 0 k b } } := by
  simp only [classCountEnd, h]
  rfl

theorem classCountEnd_stands (h : ∀ k b, s.link.proposal ≠ .counting 1 k b) : classCountEnd s = s := by
  unfold classCountEnd
  split
  · rename_i k b counting
    exact absurd counting (h k b)
  · rfl

/-! ### The tally hold and the reference watch (R159, R161) -/

theorem tallyExpiry_off (last : s.tally.hold = 1) (silent : s.rx.upValid = false) :
    tallyExpiry s = { s with tally := { program := false, preview := false, call := false, hold := 0 } } := by
  have falls : ¬ (s.rx.upValid = true ∨ s.tally.hold = 0) := by simp [silent, last]
  simp only [tallyExpiry, tallyTick, if_pos last, if_neg falls]
  rfl

theorem tallyExpiry_stands (h : s.tally.hold ≠ 1 ∨ s.rx.upValid = true) : tallyExpiry s = s := by
  unfold tallyExpiry
  split
  · rename_i last
    exact if_pos (.inl (h.resolve_left (not_not_intro last)))
  · rfl

theorem referenceGone_fires (h : s.refWatch ≠ .fired) :
    referenceGone s = { s.raise .referenceLost 0 0 with refWatch := .fired } := if_neg h

theorem referenceGone_fired (h : s.refWatch = .fired) : referenceGone s = s := if_pos h

/-! ### Entry into UP (R133, R135) -/

/-- The link in UP at the class k, its margin or its step-up timer set by the level of the warning. -/
def linkInUp (k : RateClass) (s : State) : LinkCtl :=
  { s.link with
    state := .up, classInForce := k, selected := none, trainFrames := 0, attempts := 0,
    timers := {
      retry := .stopped, measure := none, offer := none, answer := none,
      margin := if s.pins.marginWarning then some 100 else none,
      stepUp := if s.pins.marginWarning then none else some 30000 } }

/-- The selected class in force, and the next frame marked as the first in UP. -/
def enteredUp (k : RateClass) (s : State) : State :=
  { s with link := linkInUp k s, builder := { s.builder with firstInUp := true } }

/-- The entry raises LINK_UP, announces the active bank and starts the echo watch. -/
theorem enterUp_eq (selected : s.link.selected = some k) : enterUp s =
    startEcho (announceInForce ((enteredUp k s).raise .linkUp (classNum k) (classOptNum s.link.ceiling))) := by
  unfold enterUp enteredUp linkInUp
  cases s.pins.marginWarning <;>
    simp only [State.modLink, State.modBuilder, selected, Option.getD_some, if_true, Bool.false_eq_true, if_false] <;>
    rfl

theorem enterUp_link (selected : s.link.selected = some k) : (enterUp s).link = linkInUp k s := by
  rw [enterUp_eq selected]
  exact raise_only _ _ _ (enteredUp k s) .link (by decide)

theorem enterUp_plan (s : State) : (enterUp s).plan = { s.plan with echo := .running 0 0 none } :=
  congrArg (fun p : PlanStore => { p with echo := .running 0 0 none }) (raise_only _ _ _ _ .plan (by decide))

theorem enterUp_announce (selected : s.link.selected = some k) :
    (enterUp s).control.announce = announcement .inForce (activeBank s).entries.length := by
  have plan : ((enteredUp k s).raise .linkUp (classNum k) (classOptNum s.link.ceiling)).plan = s.plan :=
    raise_only _ _ _ _ .plan (by decide)
  have active := activeBank_congr (congrArg PlanStore.bank0 plan) (congrArg PlanStore.bank1 plan)
  rw [enterUp_eq selected, ← active]
  rfl

theorem enterUp_raises (selected : s.link.selected = some k) :
    Raises .linkUp (classNum k) (classOptNum s.link.ceiling) s (enterUp s) := by
  have raised : Agree (s.raise .linkUp (classNum k) (classOptNum s.link.ceiling))
      ((enteredUp k s).raise .linkUp (classNum k) (classOptNum s.link.ceiling)) :=
    (raise_recording _ _ _).agree ⟨⟨rfl, rfl, rfl⟩, rfl⟩
  rw [enterUp_eq selected]
  exact ((raised.trans (agree_of_only (announceInForce_only _))).trans (agree_of_only (startEcho_only _))).1

theorem trainEnd_ends (training : s.link.state = .trainSwitch) (last : 15 ≤ s.link.trainFrames) : trainEnd s = enterUp s :=
  if_pos ⟨training, last⟩

theorem trainEnd_stands (h : s.link.state ≠ .trainSwitch ∨ s.link.trainFrames < 15) : trainEnd s = s :=
  if_neg fun ⟨training, last⟩ => h.elim (· training) (Nat.not_lt.mpr last)

/-! ### The echo watch (R124) -/

theorem echoExpiry_expires (h : s.plan.echo = .running n repeats last) (up : s.link.state = .up) (late : 63 ≤ n) :
    echoExpiry s = echoExpire repeats last s := by
  simp only [echoExpiry, h]
  exact if_pos ⟨(isUp_iff s).mpr up, late⟩

theorem echoExpiry_stands (h : s.plan.echo = .idle ∨ s.link.state ≠ .up ∨
    ∃ n repeats last, s.plan.echo = .running n repeats last ∧ n < 63) : echoExpiry s = s := by
  unfold echoExpiry
  split
  · rfl
  · rename_i n repeats last echo
    refine if_neg fun ⟨up, late⟩ => ?_
    obtain idle | out | ⟨_, _, _, running, early⟩ := h
    · exact nomatch idle.symm.trans echo
    · exact out ((isUp_iff s).mp up)
    · obtain ⟨rfl, -, -⟩ := EchoWatch.running.inj (running.symm.trans echo)
      omega

/-- The base out of step is recorded once, as it falls behind. -/
theorem echoExpire_raises (h : s.plan.baseStanding = .inStep) :
    Raises .baseOutOfStep (activeBank s).epoch.toNat (echoDetail last) s (echoExpire repeats last s) := by
  have announced : Agree s ((announceInForce s).modPlan fun p => { p with baseStanding := .lagging }) :=
    (agree_of_only (announceInForce_only s)).trans (agree_of_only (modPlan_only _ _))
  rw [echoExpire_inStep h]
  exact (((raise_recording _ _ _).agree announced).trans (agree_of_only (modPlan_only _ _))).1

/-- Settles O46, row by row. -/
theorem countsHoldsAndWatchesRunOut : Obligations.CountsHoldsAndWatchesRunOut := by
  refine ⟨fun s live => ⟨?_, ?_, ?_, ?_⟩, fun s live => ⟨?_, ?_, ?_, ?_⟩, fun s live => ⟨?_, ?_⟩, fun s live => ⟨?_, ?_⟩⟩
  · exact fun due => next_whenLive live (countdownEnd_due due)
  · exact fun h => next_whenLive live (countdownEnd_stands h)
  · exact fun k b due => next_whenLive live (classCountEnd_due due)
  · exact fun h => next_whenLive live (classCountEnd_stands h)
  · exact fun last silent => next_whenLive live (tallyExpiry_off last silent)
  · exact fun h => next_whenLive live (tallyExpiry_stands h)
  · intro h
    have raised : OnlyChanges [.refWatch, .events, .notices, .counters] s (s.raise .referenceLost 0 0) :=
      (raise_only _ _ _ s).wider
    exact ⟨_, next_whenLive live (referenceGone_fires h), rfl, ⟨rfl, rfl, rfl⟩, raised.andThen (setRefWatch_only _ _)⟩
  · exact fun h => next_whenLive live (referenceGone_fired h)
  · exact fun k training last selected => ⟨enterUp s, next_whenLive live (trainEnd_ends training last), enterUp_only s,
      enterUp_link selected, enterUp_builder s, enterUp_plan s, enterUp_announce selected, enterUp_raises selected⟩
  · exact fun h => next_whenLive live (trainEnd_stands h)
  · intro n repeats last echo up late
    obtain ⟨plan, announce⟩ := echoExpire_leaves repeats last s
    refine ⟨echoExpire repeats last s, next_whenLive live (echoExpiry_expires echo up late), echoExpire_only _ _ s, plan,
      announce, fun inStep => ?_, fun lagging => ?_⟩
    · have raised := echoExpire_raises (repeats := repeats) (last := last) inStep
      cases last <;> exact raised
    · rw [echoExpire_lagging lagging]
      rfl
  · exact fun h => next_whenLive live (echoExpiry_stands h)

end Sys2Proof.Proofs

/-! # Proofs: the parts of an upstream frame

A frame that passes goes part by part to its owners (R149, R150, Table 9-1): the header by the link state, the control cell,
the slots; then what one record and one slot do (R125, R158, R160, R177, R178). -/

namespace Sys2Proof.Proofs

open Sys2Proof.Machine Sys2Proof.Claims

variable {s : State} {tag opcode : Byte} {args : List Byte} {c : Cmd}

/-! ### The opcode of a decoded command (R168) -/

theorem args0_opcode {n : Byte} {d : Cmd} (hd : d.opcode = n) (h : args0 d args = some c) : c.opcode = n := by
  unfold args0 at h
  split at h
  · cases h; exact hd
  · cases h

theorem args1_opcode {n : Byte} {f : Byte → Cmd} (hf : ∀ a, (f a).opcode = n) (h : args1 f args = some c) :
    c.opcode = n := by
  unfold args1 at h
  split at h
  · cases h; exact hf _
  · cases h

theorem args2_opcode {n : Byte} {f : Byte → Byte → Cmd} (hf : ∀ a b, (f a b).opcode = n) (h : args2 f args = some c) :
    c.opcode = n := by
  unfold args2 at h
  split at h
  · cases h; exact hf _ _
  · cases h

theorem args3_opcode {n : Byte} {f : Byte → Byte → Byte → Cmd} (hf : ∀ a b d, (f a b d).opcode = n)
    (h : args3 f args = some c) : c.opcode = n := by
  unfold args3 at h
  split at h
  · cases h; exact hf _ _ _
  · cases h

theorem argsEntry_opcode {n : Byte} {f : Byte → Byte → Word16 → Byte → Byte → Byte → Cmd}
    (hf : ∀ i l q p t d, (f i l q p t d).opcode = n) (h : argsEntry f args = some c) : c.opcode = n := by
  unfold argsEntry at h
  split at h
  · cases h; exact hf _ _ _ _ _ _
  · cases h

theorem argsDescriptor_opcode (h : argsDescriptor args = some c) : c.opcode = 3 := by
  unfold argsDescriptor at h
  split at h <;> cases h
  rfl

theorem argsMessage_opcode (h : argsMessage args = some c) : c.opcode = 22 := by
  unfold argsMessage at h
  split at h <;> cases h
  rfl

/-- A command has the opcode that it was decoded from. -/
theorem opcode_of_decode (h : Cmd.decode opcode args = some c) : c.opcode = opcode := by
  have named : c.opcode = byteOf opcode.toNat := by
    unfold Cmd.decode at h
    generalize opcode.toNat = n at h ⊢
    split at h
    case h_1 | h_2 | h_8 | h_13 | h_14 | h_16 | h_19 | h_21 | h_23 | h_24 | h_25 | h_31 | h_33 => exact args0_opcode rfl h
    case h_3 => exact argsDescriptor_opcode h
    case h_4 | h_5 | h_6 | h_11 | h_15 | h_17 | h_18 | h_20 | h_27 | h_28 | h_30 | h_34 =>
      exact args1_opcode (fun _ => rfl) h
    case h_7 | h_12 => exact args2_opcode (fun _ _ => rfl) h
    case h_9 | h_10 => exact argsEntry_opcode (fun _ _ _ _ _ _ => rfl) h
    case h_22 => exact argsMessage_opcode h
    case h_26 | h_29 | h_32 => exact args3_opcode (fun _ _ _ => rfl) h
    case h_35 => cases h
  rw [named, byteOf_toNat]

/-! ### The header (Table 9-1) -/

theorem proposalToNone_state (b : Bool) (s : State) : (proposalToNone b s).link.state = s.link.state := by
  unfold proposalToNone
  dsimp only
  split <;> rfl

/-- The class field moves the proposal, and never the link state (R142, R143). -/
theorem takeClassField_state (f : ClassField) (s : State) : (takeClassField f s).link.state = s.link.state := by
  cases f with
  | none => rfl
  | agree k =>
    simp only [takeClassField]
    split
    · split <;> rfl
    · rfl
  | refuse =>
    simp only [takeClassField]
    split
    · exact proposalToNone_state _ s
    · rfl
  | propose k =>
    simp only [takeClassField]
    split
    · split <;> rfl
    · split
      · split
        · exact proposalToNone_state _ s
        · rfl
      · split <;> rfl
    · rfl

theorem takeSelect_stands {k : RateClass} (h : s.link.state ≠ .offer) : takeSelect k s = s := if_neg fun offered => h offered.1

/-- A SELECT is taken into the training switch, or leaves the state as it is (R132). -/
theorem takeSelect_cases (k : RateClass) (s : State) :
    (takeSelect k s).link.state = .trainSwitch ∨ takeSelect k s = s := by
  unfold takeSelect
  split
  · exact .inl rfl
  · exact .inr rfl

/-- The select and the class countdown echo. -/
def echoTaken (u : UpFrame) (s : State) : State :=
  let s :=
    match u.select with
    | none => s
    | some k => takeSelect k s
  if supervisedState s.link.state then s.modLink fun c => { c with lastClassEcho := u.classEcho } else s

/-- The fields of the header after the echo. -/
def fieldsTaken (u : UpFrame) (s : State) : State :=
  let s := echoTaken u (if isUp s then takeClassField u.classField s else s)
  if isUp s then setTally u.program u.preview u.call s else s

theorem deliverHeader_eq (u : UpFrame) (s : State) : deliverHeader u s =
    fieldsTaken u (echoCompare u.echo (s.modRx fun r => { r with lastBaseFrameCount := u.count })) := rfl

/-- Outside OFFER the select is left, and the echo kept in the states that supervise. -/
theorem echoTaken_of_not_offer (u : UpFrame) (h : s.link.state ≠ .offer) : echoTaken u s =
    if supervisedState s.link.state then s.modLink fun c => { c with lastClassEcho := u.classEcho } else s := by
  unfold echoTaken
  cases u.select with
  | none => rfl
  | some k => simp only [takeSelect_stands h]

theorem fieldsTaken_of_not_up (u : UpFrame) (h : isUp s = false) (out : isUp (echoTaken u s) = false) :
    fieldsTaken u s = echoTaken u s := by
  simp only [fieldsTaken, h, Bool.false_eq_true, if_false, out]

/-- The fields go to their owners by the link state. -/
theorem fieldsTaken_eq (u : UpFrame) (s : State) : fieldsTaken u s = headerTaken u s := by
  unfold headerTaken
  dsimp only
  split
  next up =>
    have still : (takeClassField u.classField s).link.state = .up := (takeClassField_state _ s).trans up
    have echoed := echoTaken_of_not_offer u (s := takeClassField u.classField s) (by rw [still]; decide)
    have supervised : supervisedState (takeClassField u.classField s).link.state = true := by rw [still]; rfl
    simp only [fieldsTaken, (isUp_iff s).mpr up, if_true, echoed, supervised]
    exact if_pos ((isUp_iff _).mpr still)
  next training =>
    have echoed := echoTaken_of_not_offer u (s := s) (by rw [training]; decide)
    have out : isUp s = false := by rw [isUp, training]; rfl
    rw [training] at echoed
    rw [fieldsTaken_of_not_up u out (by rw [echoed]; exact out), echoed]
    rfl
  next offered =>
    have out : isUp s = false := by rw [isUp, offered]; rfl
    have unsupervised : supervisedState s.link.state = false := by rw [offered]; rfl
    have left (h : echoTaken u s = s) : fieldsTaken u s = s := (fieldsTaken_of_not_up u out (h.symm ▸ out)).trans h
    cases select : u.select with
    | none => exact left (by simp [echoTaken, select, unsupervised])
    | some k =>
      obtain taken | stands := takeSelect_cases k s
      · have echoed : echoTaken u s =
            (takeSelect k s).modLink fun c => { c with lastClassEcho := u.classEcho } := by
          simp [echoTaken, select, taken, supervisedState]
        rw [fieldsTaken_of_not_up u out (by rw [echoed, isUp, modLink_link]; rw [taken]; rfl), echoed]
        exact (if_pos taken).symm
      · have unmoved : (takeSelect k s).link.state ≠ .trainSwitch := by rw [stands, offered]; decide
        simp only [if_neg unmoved]
        exact left (by simp [echoTaken, select, stands, unsupervised])
  next not_up not_training not_offered =>
    have out : isUp s = false := by rw [← Bool.not_eq_true, isUp_iff]; exact not_up
    have unsupervised : supervisedState s.link.state = false := by
      rw [← Bool.not_eq_true, supervisedState_iff]
      exact fun h => h.elim not_training not_up
    have echoed : echoTaken u s = s := by simp [echoTaken_of_not_offer u not_offered, unsupervised]
    rw [fieldsTaken_of_not_up u out (echoed.symm ▸ out), echoed]

theorem headerTaken_state (u : UpFrame) (s : State) :
    (headerTaken u s).link.state = s.link.state ∨ (headerTaken u s).link.state = .trainSwitch := by
  unfold headerTaken
  dsimp only
  split
  · exact .inl (takeClassField_state _ s)
  · exact .inl rfl
  · split
    · exact .inl rfl
    · split
      · exact .inr ‹_›
      · exact .inl rfl
  · exact .inl rfl

/-- The state of a frame taken, its header delivered. -/
theorem deliverHeader_tookFrame (u : UpFrame) (s : State) :
    deliverHeader u (s.modRx fun r => { r with period := .valid u.beacon, upValid := isUp s }) =
      headerTaken u (echoCompare u.echo (tookFrame u s)) := (deliverHeader_eq u _).trans (fieldsTaken_eq u _)

/-- A frame's header leaves the reset and the receiver as they are. -/
theorem receives_headerTaken (u : UpFrame) (receiving : receives s = true) (live : s.pins.resetLow = false) :
    receives (headerTaken u (echoCompare u.echo (tookFrame u s))) = true ∧
      (headerTaken u (echoCompare u.echo (tookFrame u s))).pins.resetLow = false := by
  have taken := deliverHeader_only u (s.modRx fun r => { r with period := .valid u.beacon, upValid := isUp s })
  rw [deliverHeader_tookFrame] at taken
  have pins := taken .pins (by decide)
  have test := taken .test (by decide)
  have compared : (echoCompare u.echo (tookFrame u s)).link = s.link := echoCompare_only _ _ .link (by decide)
  refine ⟨?_, (congrArg Pins.resetLow pins).trans live⟩
  obtain still | training := headerTaken_state u (echoCompare u.echo (tookFrame u s))
  · rw [receives, still, compared, test]
    exact receiving
  · rw [receives, training]
    rfl

/-! ### The control cell (R151, R152, R168) -/

theorem takeBaseCommand_lost (opcode tag : Byte) (c : Option Cmd) (full : 8 ≤ s.control.responses.length) :
    takeBaseCommand opcode tag c s = s.bump (.link .baseCommandsLost) := if_pos full

/-- A cell that names no command is answered BAD_COMMAND. -/
theorem takeBaseCommand_none (opcode tag : Byte) (room : s.control.responses.length < 8) :
    takeBaseCommand opcode tag none s =
      answered .base { opcode := opcode, tag := tag, result := .badCommand, data := [] } s := if_neg (Nat.not_le.mpr room)

/-- A command in a cell is the command of the base link. -/
theorem exec_row_base (live : s.pins.resetLow = false) (receiving : receives s = true)
    (named : Cmd.decode opcode args = some c) :
    exec (row .base tag c) s = .next (takeBaseCommand opcode tag (Cmd.decode opcode args) s) := by
  have submitted : submit .base tag c s = takeBaseCommand c.opcode tag (some c) s := by
    rw [submit, if_neg (by simp [live])]
    exact if_pos (baseArrives_of_receives receiving)
  rw [exec_row, submitted, opcode_of_decode named, named]

theorem deliverCell_taken (live : s.pins.resetLow = false) (receiving : receives s = true) (cell : Option Cell) :
    CellTaken cell s (deliverCell cell s) := by
  cases cell with
  | none => rfl
  | some x =>
    obtain ⟨kind, tag, payload⟩ := x
    refine ⟨fun idle => ?_, fun relay => ?_, fun command => ?_⟩
    · obtain rfl : kind = 0 := idle
      rfl
    · obtain rfl : kind = 2 := relay
      rfl
    · obtain rfl : kind = 1 := command
      have taken : deliverCell (some ⟨1, tag, payload⟩) s = takeCommandCell tag payload s := rfl
      rw [taken]
      refine ⟨fun full => ?_, fun room => ⟨?_, ?_⟩⟩
      · cases payload <;> exact takeBaseCommand_lost _ _ _ full
      · rintro rfl
        exact ⟨_, takeBaseCommand_none _ _ room⟩
      · rintro opcode args rfl
        refine ⟨fun unnamed => ?_, fun cmd named => exec_row_base live receiving named⟩
        have refused := takeBaseCommand_none opcode tag room
        rwa [← unnamed] at refused

/-! ### The slots by the link state (R150) -/

/-- The slots of a frame, when its header and its cell have been delivered. -/
def slotsTaken (u : UpFrame) (s : State) : State := deliverReturns u.returns (if isUp s then takeAux u.aux s else s)

theorem slotsTaken_up (u : UpFrame) (up : s.link.state = .up) : slotsTaken u s = State.each takeReturn u.returns
    (State.each (sideOut .s2) u.aux.s2 (State.each (sideOut .s1) u.aux.s1 (State.each (sideOut .s0) u.aux.s0 s))) := by
  have still : (takeAux u.aux s).link.state = .up := (congrArg LinkCtl.state (takeAux_only u.aux s .link (by decide))).trans up
  rw [slotsTaken, if_pos ((isUp_iff s).mpr up), deliverReturns, if_pos ((isUp_iff _).mpr still)]
  rfl

theorem slotsTaken_not_up (u : UpFrame) (out : s.link.state ≠ .up) :
    slotsTaken u s = if s.link.state = .test then State.each checkReturn u.returns s else s := by
  have down : ¬ isUp s = true := mt (isUp_iff s).mp out
  rw [slotsTaken, if_neg down, deliverReturns, if_neg down]

theorem takeUpstream_valid {bytes : List Byte} (receiving : receives s = true) (first : s.rx.period = .empty)
    (passes : upFramePasses s.rx.expected bytes = true) : takeUpstream bytes s =
      let u := upFrameOf s.rx.expected bytes
      slotsTaken u (deliverCell u.cell (headerTaken u (echoCompare u.echo (tookFrame u s)))) := by
  have empty : ¬ s.rx.period ≠ .empty := not_not_intro first
  simp only [takeUpstream, receiving, Bool.not_true, Bool.false_eq_true, if_false, if_neg empty, passes, if_true, deliverFrame,
    deliverHeader_tookFrame]
  rfl

/-! ### The echo compare (R125) -/

section
variable {echo : Byte} {n repeats : Nat} {last : Option Byte}

theorem echoCompare_idle (h : s.plan.echo = .idle) : echoCompare echo s = s := by rw [echoCompare, h]

theorem echoCompare_other (h : s.plan.echo = .running n repeats last) (other : echo ≠ (activeBank s).epoch) :
    echoCompare echo s = { s with plan := { s.plan with echo := .running n repeats (some echo) } } := by
  simp only [echoCompare, h, if_neg other]
  rfl

theorem echoCompare_inStep (h : s.plan.echo = .running n repeats last) (same : echo = (activeBank s).epoch)
    (standing : s.plan.baseStanding = .inStep) : echoCompare echo s = { s with plan := { s.plan with echo := .idle } } := by
  have step : (stopEcho s).plan.baseStanding ≠ .lagging := by rw [show (stopEcho s).plan.baseStanding = _ from standing]; decide
  simp only [echoCompare, h, if_pos same, if_neg step]
  rfl

theorem echoCompare_lagging (h : s.plan.echo = .running n repeats last) (same : echo = (activeBank s).epoch)
    (standing : s.plan.baseStanding = .lagging) : echoCompare echo s =
      { s with plan := { s.plan with echo := .idle, baseStanding := .inStep } }.raise .baseInStep (activeBank s).epoch.toNat
        repeats := by
  have behind : (stopEcho s).plan.baseStanding = .lagging := standing
  simp only [echoCompare, h, if_pos same, if_pos behind]
  rfl

end

/-! ### A record for a side line (R158) -/

/-- An exclusive or over bits is whether an odd number of them is set. -/
theorem foldl_bne_eq (bits : List Bool) (acc : Bool) :
    bits.foldl (fun acc b => acc != b) acc = (acc != decide (bits.countP id % 2 = 1)) := by
  induction bits generalizing acc with
  | nil => simp
  | cons b bits ih =>
    rw [List.foldl_cons, ih, List.countP_cons]
    cases b
    · simp
    · obtain even | odd := Nat.mod_two_eq_zero_or_one (bits.countP id)
      · simp [even, Nat.add_mod]
      · simp [odd, Nat.add_mod]

/-- Whether a byte has an odd number of ones. -/
def oddOnes (b : Byte) : Bool := decide (((List.range 8).countP fun k => b.getLsbD k) % 2 = 1)

theorem parityBitOf_eq (p : Parity) (b : Byte) : parityBitOf p b =
    match p with
    | .none => none
    | .even => some (oddOnes b)
    | .odd => some !oddOnes b := by
  have bits : bitsOf b = ((List.range 8).map b.getLsbD).reverse := rfl
  have ones : (bitsOf b).foldl (fun acc b => acc != b) false = oddOnes b := by
    rw [foldl_bne_eq, bits, List.countP_reverse, List.countP_map]
    exact Bool.false_bne _
  cases p <;> simp only [parityBitOf, ones]

/-- The parity bit of a record on the line: inverted where the record is marked (Table 9-2). -/
def recordBit (p : Parity) (r : ByteRecord) : Option Bool :=
  match p with
  | .none => none
  | .even => some (if r.mark = .clean then oddOnes r.data else !oddOnes r.data)
  | .odd => some (if r.mark = .clean then !oddOnes r.data else oddOnes r.data)

theorem sentByteOf_eq (x : SideLine) (r : ByteRecord) : sentByteOf x r = ⟨r.data, recordBit x.parity r, x.rate⟩ := by
  unfold sentByteOf recordBit
  rw [parityBitOf_eq]
  cases x.parity with
  | none => rfl
  | even => rfl
  | odd => simp only [Bool.not_not]

section
variable {i : SideId} {r : ByteRecord}

@[simp] theorem perSide_set_set {α : Type} (p : PerSide α) (i : SideId) (v w : α) : (p.set i v).set i w = p.set i w := by
  cases i <;> rfl

theorem sideOut_full (full : 64 ≤ (s.side i).outQueue.length) : sideOut i r s = s.bump (.side i .outOverruns) := if_pos full

/-- A record behind the byte on the line waits in the queue. -/
theorem sideOut_waits (room : (s.side i).outQueue.length < 64) (busy : (s.side i).shifting ≠ none) :
    sideOut i r s = s.modSide i fun x => { x with outQueue := x.outQueue ++ [r] } := by
  have still : ((s.modSide i fun x => { x with outQueue := x.outQueue ++ [r] }).side i).shifting ≠ none := by
    rwa [side_modSide_same]
  simp only [sideOut, if_neg (Nat.not_le.mpr room), if_neg still]

/-- The record is on the line. -/
def recordSent (i : SideId) (r : ByteRecord) (s : State) : State :=
  { s with sides := s.sides.set i { s.side i with
    shifting := some ⟨r.data, recordBit (s.side i).parity r, (s.side i).rate⟩ } }

/-- An idle transmitter starts the record, and counts a mark that it cannot carry. -/
theorem sideOut_starts (idle : (s.side i).shifting = none) (empty : (s.side i).outQueue = []) : sideOut i r s =
    if (s.side i).parity = .none ∧ r.mark ≠ .clean then (recordSent i r s).bump (.side i .marksNotCarried)
    else recordSent i r s := by
  have room : ¬ 64 ≤ (s.side i).outQueue.length := by simp [empty]
  have queued : (s.modSide i fun x => { x with outQueue := x.outQueue ++ [r] }).side i =
      { s.side i with outQueue := [r] } := by rw [side_modSide_same, empty]; rfl
  have sent : (s.modSide i fun x => { x with outQueue := x.outQueue ++ [r] }).modSide i
      (fun x => { x with outQueue := [], shifting := some (sentByteOf x r) }) =
        recordSent i r s := by
    simp only [State.modSide, perSide_get_set_same, perSide_set_set, sentByteOf_eq, recordSent]
    rw [← empty]
    rfl
  simp only [sideOut, if_neg room, queued, idle, if_true, startSending]
  rw [sent]

end

/-! ### A return slot (R160, R177, R178) -/

section
variable {r : ReturnSlot}

theorem takeReturn_other (h : r.kind ≠ 1) : takeReturn r s = s := if_neg h

theorem takeReturn_joins (data : r.kind = 1) (room : s.ret.buffer.length < 48) :
    takeReturn r s = { s with ret := { s.ret with buffer := s.ret.buffer ++ [returned r] } } :=
  (if_pos data).trans (if_pos room)

theorem takeReturn_lost (data : r.kind = 1) (full : 48 ≤ s.ret.buffer.length) :
    takeReturn r s = s.bump (.link .returnTilesLost) := (if_pos data).trans (if_neg (Nat.not_lt.mpr full))

theorem checkReturn_other (h : r.kind ≠ 3) : checkReturn r s = s := if_neg h

/-- The counts of the checker. -/
def testCounted (errored : Nat) (s : State) : State :=
  { s with test := { s.test with checked := min 65535 (s.test.checked + 1), errored := errored } }

theorem checkReturn_clean (pattern : r.kind = 3) (clean : r.samples = patternSamples r.seq) :
    checkReturn r s = testCounted s.test.errored s := by
  simp only [checkReturn, if_pos pattern, checkTile, decide_eq_false (not_not_intro clean)]
  rfl

theorem checkReturn_errored (pattern : r.kind = 3) (errored : r.samples ≠ patternSamples r.seq) :
    checkReturn r s = countTile true s := by
  simp only [checkReturn, if_pos pattern, checkTile, decide_eq_true errored]

theorem countTile_counts (below : s.test.errored < 65535) : countTile true s = testCounted (s.test.errored + 1) s :=
  if_pos below

theorem countTile_stops (full : 65535 ≤ s.test.errored) (mode : s.test.countMode = .stopAtMax) :
    countTile true s = testCounted s.test.errored s := by
  simp only [countTile, if_true, if_neg (Nat.not_lt.mpr full), mode]
  rfl

theorem countTile_wraps (full : 65535 ≤ s.test.errored) (mode : s.test.countMode = .wrap) : countTile true s =
    (testCounted 0 s).raise .testWrap (classNum s.test.cls) (min 65535 (s.test.checked + 1)) := by
  simp only [countTile, if_true, if_neg (Nat.not_lt.mpr full), mode]
  rfl

end

/-- Settles O53, part by part. -/
theorem eachPartOfAFrameReachesItsOwner : Obligations.EachPartOfAFrameReachesItsOwner := by
  refine ⟨fun bytes s live receiving first passes => ?_, fun echo s => ⟨echoCompare_idle, fun n repeats last running =>
      ⟨echoCompare_other running, echoCompare_inStep running, echoCompare_lagging running⟩⟩,
    fun i r s => ⟨sideOut_full, sideOut_waits, fun idle empty => ⟨fun carried => ?_, fun bare marked => ?_⟩⟩,
    fun r s => ⟨takeReturn_other, checkReturn_other, fun data => ⟨takeReturn_joins data, takeReturn_lost data⟩,
      fun pattern => ⟨checkReturn_clean pattern, fun errored => ⟨fun below => ?_, fun full mode => ?_, fun full mode => ?_⟩⟩⟩⟩
  · obtain ⟨still, awake⟩ := receives_headerTaken (upFrameOf s.rx.expected bytes) receiving live
    have whole {t : State} (h : slotsTaken _ (deliverCell _ _) = t) : exec (.upstreamFrame bytes) s = .next t :=
      next_whenLive live ((takeUpstream_valid receiving first passes).trans h)
    refine ⟨_, deliverCell_taken awake still _, fun up => whole (slotsTaken_up _ up), fun test => whole ?_,
      fun out untested => whole ?_⟩
    · rw [slotsTaken_not_up _ (by rw [test]; decide), if_pos test]
    · rw [slotsTaken_not_up _ out, if_neg untested]
  · exact (sideOut_starts idle empty).trans (if_neg fun ⟨bare, marked⟩ => carried.elim (· bare) marked)
  · exact (sideOut_starts idle empty).trans (if_pos ⟨bare, marked⟩)
  · rw [checkReturn_errored pattern errored, countTile_counts below]
    rfl
  · rw [checkReturn_errored pattern errored, countTile_stops full mode]
    rfl
  · rw [checkReturn_errored pattern errored, countTile_wraps full mode]
    rfl

end Sys2Proof.Proofs

/-! # Proofs: the class in force and the ceiling

What an operation can do to the class law of R129. It is read off the link controller alone, so an operation of another block
keeps it by its frame, and one that leaves the classes and the proposal alone keeps it as it is. -/

namespace Sys2Proof.Proofs

open Sys2Proof.Machine Sys2Proof.Claims

variable {s t u : State} {ps : List Part} {c d : LinkCtl} {k j : RateClass} {ceiling : Option RateClass}

/-! ### Allowed classes (R129) -/

/-- Class 5 is the worst class, under any ceiling. -/
theorem allowed_c5 (ceiling : Option RateClass) : Allowed ceiling .c5 := by
  cases ceiling with
  | none => rfl
  | some c => cases c <;> exact Nat.le_of_ble_eq_true rfl

/-- A class as bad as an allowed one, or worse, is allowed. -/
theorem allowed_of_le (h : Allowed ceiling j) (le : classNum j ≤ classNum k) : Allowed ceiling k := by
  cases ceiling with
  | some c => exact Nat.le_trans h le
  | none =>
    obtain rfl : j = .c5 := h
    cases k <;> first | rfl | exact absurd le (by decide)

theorem classNum_of_classOf {n : Nat} (h : classOf n = some k) : classNum k = n := by
  unfold classOf at h
  split at h <;> cases h <;> rfl

theorem stepDown_allowed (h : Allowed ceiling j) (down : stepDown j = some k) : Allowed ceiling k :=
  allowed_of_le h (by rw [classNum_of_classOf down]; exact Nat.le_succ _)

/-- A step up from a class worse than the ceiling stays within it (R141). -/
theorem stepUp_allowed (below : belowCeiling s = true) (up : stepUp s.link.classInForce = some k) :
    Allowed s.link.ceiling k := by
  obtain ⟨c, known, worse⟩ := (belowCeiling_iff s).mp below
  rw [known, Allowed, classNum_of_classOf up]
  omega

theorem withinCeiling_iff (s : State) (k : RateClass) :
    withinCeiling s k = true ↔ ∃ c, s.link.ceiling = some c ∧ classNum c ≤ classNum k := by
  unfold withinCeiling
  cases s.link.ceiling <;> simp [worse]

theorem withinCeiling_allowed (h : withinCeiling s k = true) : Allowed s.link.ceiling k := by
  obtain ⟨c, known, le⟩ := (withinCeiling_iff s k).mp h
  rwa [known]

/-! ### The law of the link controller -/

/-- The class law, read off the link controller. -/
structure LinkLaw (c : LinkCtl) : Prop where
  inForce : Allowed c.ceiling c.classInForce
  measuring : c.state = .measure → c.classInForce = .c5
  selected : ∀ k, c.selected = some k → Allowed c.ceiling k
  proposed : ∀ k, proposalClass c.proposal = some k → Allowed c.ceiling k

theorem classLaw_iff (s : State) : ClassLaw s ↔ LinkLaw s.link :=
  ⟨fun ⟨inForce, measuring, selected, proposed⟩ => ⟨inForce, measuring, selected, proposed⟩,
    fun h => ⟨h.inForce, h.measuring, h.selected, h.proposed⟩⟩

/-- What the class law reads: the link state, the classes and the proposal. -/
def classCore (c : LinkCtl) : LinkCtl :=
  { LinkCtl.reset with
    state := c.state, classInForce := c.classInForce, ceiling := c.ceiling, selected := c.selected, proposal := c.proposal }

theorem LinkLaw.congr (law : LinkLaw c) (same : classCore d = classCore c) : LinkLaw d := by
  have core : LinkLaw (classCore d) := same ▸ ⟨law.inForce, law.measuring, law.selected, law.proposed⟩
  exact ⟨core.inForce, core.measuring, core.selected, core.proposed⟩

/-- At class 5, with nothing selected or proposed, the law holds under any ceiling. -/
theorem LinkLaw.atWorst (inForce : c.classInForce = .c5) (selected : c.selected = none) (proposal : c.proposal = .idle) :
    LinkLaw c := by
  refine ⟨inForce ▸ allowed_c5 _, fun _ => inForce, fun k h => ?_, fun k h => ?_⟩
  · rw [selected] at h
    cases h
  · rw [proposal] at h
    cases h

theorem LinkLaw.measures (attempts : Nat) (c : LinkCtl) : LinkLaw (Claims.measuring attempts c) := .atWorst rfl rfl rfl

/-- The link leaves a state for one that does not measure: the class in force stands. -/
theorem LinkLaw.rests (law : LinkLaw c) (state : LinkState) (retry : RetryTimer) (h : state ≠ .measure := by decide) :
    LinkLaw (resting state retry c) :=
  ⟨law.inForce, fun measure => absurd measure h, nofun, nofun⟩

/-- Another proposal, of an allowed class. -/
theorem LinkLaw.proposes (law : LinkLaw c) {p : Proposal} (h : ∀ k, proposalClass p = some k → Allowed c.ceiling k) :
    LinkLaw { c with proposal := p } := ⟨law.inForce, law.measuring, law.selected, h⟩

theorem LinkLaw.proposing (law : LinkLaw c) (h : c.proposal = .proposing k) : Allowed c.ceiling k :=
  law.proposed k (by rw [h]; rfl)

theorem LinkLaw.counting (law : LinkLaw c) {n : Nat} {b : Bool} (h : c.proposal = .counting n k b) : Allowed c.ceiling k :=
  law.proposed k (by rw [h]; rfl)

/-! ### What an operation keeps -/

/-- A step from s to t keeps the class law. -/
def KeepsClass (s t : State) : Prop := LinkLaw s.link → LinkLaw t.link

theorem KeepsClass.refl (s : State) : KeepsClass s s := id

theorem KeepsClass.trans (h : KeepsClass s t) (k : KeepsClass t u) : KeepsClass s u := k ∘ h

theorem KeepsClass.ite {q : Prop} [Decidable q] (h : q → KeepsClass s t) (k : ¬ q → KeepsClass s u) :
    KeepsClass s (if q then t else u) := by
  split
  · exact h ‹_›
  · exact k ‹_›

/-- A step of another block. -/
theorem KeepsClass.only (only : OnlyChanges ps s t) (hp : Part.link ∉ ps := by decide) : KeepsClass s t := by
  have same : t.link = s.link := only .link hp
  intro law
  rwa [same]

/-- A step that leaves the link controller as given. -/
theorem KeepsClass.to (link : t.link = d) (law : LinkLaw s.link → LinkLaw d) : KeepsClass s t := fun h => link ▸ law h

/-- A step that leaves the classes, the proposal and the link state alone. -/
theorem KeepsClass.same (h : classCore t.link = classCore s.link) : KeepsClass s t := fun law => law.congr h

theorem modTimers_class (f : Timers → Timers) (s : State) : KeepsClass s (s.modTimers f) := .same rfl

/-! ### Entering and leaving states -/

theorem enterMeasure_class (attempts : Nat) (s : State) : KeepsClass s (enterMeasure attempts s) :=
  fun _ => .measures attempts s.link

theorem settleDown_class (s : State) : KeepsClass s (settleDown s) :=
  .ite (fun _ => enterMeasure_class 0 s) fun _ => .refl s

theorem dropToDown_class (cause : Cause) (s : State) : KeepsClass s (dropToDown cause s) := by
  obtain ⟨link, -⟩ := dropToDown_dropped cause s
  exact .to link fun law => (law.rests .down (.running 1000)).congr rfl

theorem trainingFailure_class (s : State) : KeepsClass s (trainingFailure s) := by
  have failed : KeepsClass s (s.modLink fun c => { c with attempts := 4 }) := .same rfl
  exact .ite (fun _ => enterMeasure_class _ s) fun _ => failed.trans (dropToDown_class _ _)

theorem disableLink_class (s : State) : KeepsClass s (disableLink s) :=
  .to (disableLink_link s) fun law => (law.rests .disabled .stopped).congr rfl

theorem enableLink_class (s : State) : KeepsClass s (enableLink s) := by
  have enabled : KeepsClass s (s.modLink fun c =>
      { leaveFor .down c with enable := true, timers := { Timers.stopped with retry := .expired } }) :=
    fun law => (law.rests .down .expired).congr rfl
  exact enabled.trans (settleDown_class _)

theorem enterTest_class (s : State) : KeepsClass s (enterTest s) :=
  .to (enterTest_link s) fun law => (law.rests .test .stopped).congr rfl

theorem leaveTest_class (s : State) : KeepsClass s (leaveTest s) :=
  .to (leaveTest_link s) fun law => law.rests .down (.running 1000)

/-- After LINK_RESTART the class in force is 5 (R145). -/
theorem restartLink_class (s : State) : KeepsClass s (restartLink s) := by
  refine .to (restartLink_link_eq s) fun _ => .atWorst rfl ?_ ?_
  · split <;> rfl
  · split <;> rfl

theorem startFromReset_class (subject : Byte) (s : State) : KeepsClass s (startFromReset subject s) := by
  have fresh : LinkLaw ((resetBlocks s).modEvents fun e => { e with queue := [resetDone subject] }).link :=
    .atWorst rfl rfl rfl
  exact fun _ => settleDown_class _ fresh

/-! ### Proposals (section 8.4) -/

theorem propose_class (h : LinkLaw s.link → Allowed s.link.ceiling k) : KeepsClass s (propose k s) := fun law =>
  (law.proposes (p := .proposing k) (by rintro _ ⟨⟩; exact h law)).congr rfl

theorem beginCountdown_class (byBase : Bool) (h : LinkLaw s.link → Allowed s.link.ceiling k) :
    KeepsClass s (beginCountdown k byBase s) := fun law =>
  (law.proposes (p := .counting 8 k byBase) (by rintro _ ⟨⟩; exact h law)).congr rfl

theorem proposalToNone_class (setStepUp : Bool) (s : State) : KeepsClass s (proposalToNone setStepUp s) := by
  rw [proposalToNone_eq]
  exact fun law => (law.proposes (p := .idle) nofun).congr rfl

theorem refuseNext_class (s : State) : KeepsClass s (refuseNext s) := .same rfl

/-- A class that the base link proposes is allowed by the ceiling, or is worse than one that the part proposed (R143). -/
theorem takeClassField_class (f : ClassField) (s : State) : KeepsClass s (takeClassField f s) := by
  cases f with
  | none => exact .refl s
  | agree k =>
    simp only [takeClassField]
    split
    · rename_i j proposing
      exact .ite (fun _ => beginCountdown_class false fun law => law.proposing proposing) fun _ => .refl s
    · exact .refl s
  | refuse =>
    simp only [takeClassField]
    split
    · exact proposalToNone_class _ s
    · exact .refl s
  | propose k =>
    simp only [takeClassField]
    split
    · exact .ite (fun h => beginCountdown_class true fun _ => withinCeiling_allowed h.1) fun _ => refuseNext_class s
    · rename_i j proposing
      refine .ite (fun h => ?_) fun _ => .ite (fun _ => beginCountdown_class false fun law => law.proposing proposing)
        fun _ => .refl s
      have worse : classNum j ≤ classNum k := Nat.le_of_lt (of_decide_eq_true h)
      exact .ite (fun _ => (proposalToNone_class _ s).trans (refuseNext_class _)) fun _ =>
        beginCountdown_class true fun law => allowed_of_le (law.proposing proposing) worse
    · exact .refl s

theorem takeSelect_class (k : RateClass) (s : State) : KeepsClass s (takeSelect k s) := by
  refine .ite (fun h law => ?_) fun _ => .refl s
  exact ⟨law.inForce, nofun, by rintro _ ⟨⟩; exact withinCeiling_allowed h.2, nofun⟩

/-! ### Entry into UP and the class countdown -/

/-- The selected class comes into force (R133). -/
theorem enterUp_class (s : State) : KeepsClass s (enterUp s) := by
  have inForce (law : LinkLaw s.link) : Allowed s.link.ceiling (s.link.selected.getD .c5) := by
    cases selected : s.link.selected with
    | none => exact allowed_c5 _
    | some k => exact law.selected k selected
  have left (f : LinkCtl → LinkCtl) (g : Builder → Builder) (k : EventKind) (a b : Nat) :
      (startEcho (announceInForce (((s.modLink f).modBuilder g).raise k a b))).link = f s.link :=
    raise_only k a b _ .link (by decide)
  intro law
  unfold enterUp
  rw [left]
  exact ⟨inForce law, nofun, nofun, law.proposed⟩

theorem trainTick_class (s : State) : KeepsClass s (trainTick s) := .ite (fun _ => enterUp_class s) fun _ => .same rfl

theorem trainEnd_class (s : State) : KeepsClass s (trainEnd s) := .ite (fun _ => enterUp_class s) fun _ => .refl s

/-- The countdown falls to a class that stands. -/
theorem counted_class {n m : Nat} {b : Bool} (h : s.link.proposal = .counting n k b) :
    KeepsClass s (s.modLink fun c => { c with proposal := .counting m k b }) :=
  fun law => law.proposes (by rintro _ ⟨⟩; exact law.counting h)

theorem classCountTick_class (s : State) : KeepsClass s (classCountTick s) := by
  unfold classCountTick
  split
  · exact counted_class ‹_›
  · exact .refl s

theorem classCountEnd_class (s : State) : KeepsClass s (classCountEnd s) := by
  unfold classCountEnd
  split
  · exact counted_class ‹_›
  · exact .refl s

/-- The class counted down to comes into force, in UP (R144). -/
theorem applyDueClass_class (up : s.link.state = .up) : KeepsClass s (applyDueClass s) := by
  unfold applyDueClass
  split
  · rename_i k b due
    have applied : KeepsClass s (s.modLink fun c => { c with classInForce := k }) := fun law =>
      ⟨law.counting due, fun measure => absurd (up.symm.trans measure) nofun, law.selected, law.proposed⟩
    exact (applied.trans (.only (raise_only _ _ _ _))).trans (proposalToNone_class true _)
  · exact .refl s

/-! ### The frame event -/

theorem prepareUp_class (switched : Bool) (up : s.link.state = .up) : KeepsClass s (prepareUp switched s) := by
  have applied (f : Builder → Builder) : KeepsClass s ((applyDueClass s).modBuilder f) :=
    (applyDueClass_class up).trans (.only (modBuilder_only f _))
  unfold prepareUp
  exact ((applied _).trans (.ite (fun _ => .only (assess_only _)) fun _ => .refl _)).trans (.only (modBuilder_only _ _))

theorem handOverUp_class (switched : Bool) (s : State) : KeepsClass s (handOverUp switched s) := by
  have refused (v : State) : KeepsClass v (v.modLink fun c => { c with pendingRefusal := false }) := .same rfl
  have counted : KeepsClass s (handedCounted s) :=
    (((KeepsClass.only (countdownTick_only s)).trans (classCountTick_class _)).trans (refused _)).trans (.only (auxLeave_only _))
  exact counted.trans (.only (handOverUp_only_counted switched s))

theorem carriageFrame_class (switched : Bool) (up : s.link.state = .up) : KeepsClass s (carriageFrame switched s) := by
  have filled : KeepsClass s (carriageFilled switched s) := (prepareUp_class switched up).trans (.only (fill_only _))
  rw [carriageFrame_eq]
  exact ((filled.trans (.only (chooseCell_only _))).trans (.only (handToLine_only _ _))).trans (handOverUp_class _ _)

theorem trainingFrame_class (s : State) : KeepsClass s (trainingFrame s) := by
  rw [trainingFrame_eq]
  exact (KeepsClass.only (trainingSent_only_begun s)).trans (.ite (fun _ => trainTick_class _) fun _ => .refl _)

theorem frameEvent_class (s : State) : KeepsClass s (frameEvent s) := by
  have switched : KeepsClass s (takeSwitch (countFrame s)) :=
    (KeepsClass.only (countFrame_only s)).trans (.only (takeSwitch_only _))
  unfold frameEvent
  dsimp only
  split
  · exact switched.trans (carriageFrame_class _ ‹_›)
  · exact switched.trans (trainingFrame_class _)
  · exact switched.trans (trainingFrame_class _)
  · exact switched.trans (trainingFrame_class _)
  · exact switched.trans (.to (testFrame_kept _).2 id)
  · exact switched
  · exact switched

/-! ### Verdicts, timers and pins -/

theorem takeVerdict_class (p : Period) (s : State) : KeepsClass s (takeVerdict p s) := by
  have judged (f : LinkCtl → Supervision) : KeepsClass s (s.modLink fun c => { c with supervision := f c }) := .same rfl
  unfold takeVerdict
  dsimp only
  split
  · exact judged _
  · exact (judged _).trans (dropToDown_class _ _)

theorem superviseTick_class (s : State) : KeepsClass s (superviseTick s) :=
  .ite (fun _ => (takeVerdict_class _ s).trans (.only (bump_only _ _))) fun _ => takeVerdict_class _ s

theorem lossCriterion_class (s : State) : KeepsClass s (lossCriterion s) :=
  .ite (fun _ => superviseTick_class s) fun _ => .refl s

theorem retryExpiry_class (s : State) : KeepsClass s (retryExpiry s) :=
  .ite (fun _ => (modTimers_class _ s).trans (settleDown_class _)) fun _ => .refl s

theorem measureExpiry_class (s : State) : KeepsClass s (measureExpiry s) :=
  .ite (fun _ => trainingFailure_class s) fun _ => .refl s

theorem offerExpiry_class (s : State) : KeepsClass s (offerExpiry s) :=
  .ite (fun _ => trainingFailure_class s) fun _ => .refl s

theorem answerExpiry_class (s : State) : KeepsClass s (answerExpiry s) := by
  unfold answerExpiry
  split
  · exact .ite (fun _ => .refl s) fun _ => .ite (fun _ => proposalToNone_class _ s) fun _ =>
      .ite (fun _ => dropToDown_class _ s) fun _ => proposalToNone_class _ s
  · exact .refl s

/-- The step-down that the margin timer proposes is allowed with the class in force (R140). -/
theorem marginExpiry_class (s : State) : KeepsClass s (marginExpiry s) := by
  have low (k : EventKind) (f : Timers → Timers) (a b : Nat) : KeepsClass s ((s.modTimers f).raise k a b) :=
    (modTimers_class f s).trans (.only (raise_only k a b _))
  refine .ite (fun _ => ?_) fun _ => .refl s
  dsimp only
  split
  · exact low _ _ _ _
  · exact (low _ _ _ _).trans (propose_class fun law => stepDown_allowed law.inForce ‹_›)

theorem stepUpExpiry_class (s : State) : KeepsClass s (stepUpExpiry s) := by
  refine .ite (fun _ => ?_) fun _ => .refl s
  split
  · exact .ite (fun h => (modTimers_class _ s).trans (propose_class fun _ => stepUp_allowed h.1 ‹_›)) fun _ =>
      modTimers_class _ s
  · exact modTimers_class _ s

/-- The measurement ends at class 5 in force, whatever ceiling it gives (R131). -/
theorem takeMeasurement_class (k : RateClass) (s : State) : KeepsClass s (takeMeasurement k s) :=
  .ite (fun measure law => .atWorst (law.measuring measure) rfl rfl) fun _ => .refl s

theorem carrierLost_class (s : State) : KeepsClass s (carrierLost s) := .ite (fun _ => dropToDown_class _ s) fun _ => .refl s

theorem warningRises_class (s : State) : KeepsClass s (warningRises s) := by
  refine .ite (fun _ => ?_) fun _ => .refl s
  have stopped : KeepsClass s (s.modTimers fun t => { t with stepUp := none }) := modTimers_class _ s
  dsimp only
  split
  · exact stopped.trans (modTimers_class _ _)
  · exact stopped.trans (.ite (fun _ => proposalToNone_class _ _) fun _ => .refl _)
  · exact stopped

theorem warningFalls_class (s : State) : KeepsClass s (warningFalls s) := .ite (fun _ => modTimers_class _ s) fun _ => .refl s

/-! ### The commands -/

theorem cmdLinkEnable_class (on : Byte) (s : State) : KeepsClass s (cmdLinkEnable on s).1 := by
  unfold cmdLinkEnable
  split
  · exact .refl s
  · exact .ite (fun _ => enableLink_class s) fun _ => .refl s
  · exact .ite (fun _ => .refl s) fun _ => disableLink_class s

theorem cmdLinkRetrain_class (s : State) : KeepsClass s (cmdLinkRetrain s).1 := by
  unfold cmdLinkRetrain
  split
  · exact .refl s
  · exact .ite (fun _ => .same rfl) fun _ => enterMeasure_class 0 s

theorem requestedClass_allowed {up : Bool} (law : LinkLaw s.link) (h : requestedClass s up = some k) :
    Allowed s.link.ceiling k := by
  cases up with
  | false => exact stepDown_allowed law.inForce h
  | true =>
    simp only [requestedClass, if_true] at h
    split at h
    · exact stepUp_allowed ‹_› h
    · cases h

theorem cmdClassRequest_class (direction : Byte) (s : State) : KeepsClass s (cmdClassRequest direction s).1 := by
  unfold cmdClassRequest
  split
  · exact .refl s
  · split
    · exact .refl s
    · split
      · exact .refl s
      · split
        · exact .refl s
        · exact propose_class fun law => requestedClass_allowed law ‹_›

theorem cmdTestStart_class (mode countMode cls : Byte) (s : State) : KeepsClass s (cmdTestStart mode countMode cls s).1 := by
  have started (m : TestMode) (n : CountMode) (k : RateClass) : KeepsClass s (startTest m n k s) := .only (modTest_only _ s)
  unfold cmdTestStart
  split
  · split
    · exact .refl s
    · exact (started _ _ _).trans (.ite (fun _ => .refl _) fun _ => enterTest_class _)
  · exact .refl s

theorem cmdTestStop_class (s : State) : KeepsClass s (cmdTestStop s).1 := by
  unfold cmdTestStop
  split
  · exact leaveTest_class s
  · exact .refl s

theorem perform_class (o : Origin) (tag : Byte) (c : Cmd) (s : State) : KeepsClass s (perform o tag c s).1 := by
  cases c with
  | partReset => exact startFromReset_class 2 s
  | linkEnable on => exact cmdLinkEnable_class on s
  | linkCriteria set => exact .same rfl
  | linkRetrain => exact cmdLinkRetrain_class s
  | classRequest d => exact cmdClassRequest_class d s
  | linkRestart => exact restartLink_class s
  | testStart m n k => exact cmdTestStart_class m n k s
  | testStop => exact cmdTestStop_class s
  | _ => exact .only (perform_only o tag _ s) (by simp [cmdParts])

/-! ### The ways in -/

theorem takeCommand_class (o : Origin) (op tag : Byte) (c : Option Cmd) (s : State) :
    KeepsClass s (takeCommand o op tag c s).1 := by
  cases c with
  | none => exact .refl s
  | some c =>
    simp only [takeCommand]
    split
    · exact .refl s
    · split
      · exact .refl s
      · exact perform_class o tag c s

theorem takeHeadCommand_class (op tag : Byte) (c : Option Cmd) (s : State) : KeepsClass s (takeHeadCommand op tag c s) :=
  .ite (fun _ => .only (modPort_only _ s)) fun _ => (takeCommand_class .head op tag c s).trans (.only (answerHead_only _))

theorem takeBaseCommand_class (op tag : Byte) (c : Option Cmd) (s : State) : KeepsClass s (takeBaseCommand op tag c s) :=
  .ite (fun _ => .only (bump_only _ s)) fun _ => (takeCommand_class .base op tag c s).trans (.only (answerBase_only _))

theorem submit_class (o : Origin) (tag : Byte) (c : Cmd) (s : State) : KeepsClass s (submit o tag c s) := by
  refine .ite (fun _ => .refl s) fun _ => ?_
  cases o with
  | head => exact takeHeadCommand_class _ tag _ s
  | base => exact .ite (fun _ => takeBaseCommand_class _ tag _ s) fun _ => .refl s

theorem endTransaction_class {body : Byte → State → State} (hb : ∀ b s, KeepsClass s (body b s)) (s : State) :
    KeepsClass s (endTransaction body s) := by
  have fallen : KeepsClass s (selectFalls s) := .only (selectFalls_only s)
  have high (v : State) : KeepsClass v (selectHigh v) := .only (selectHigh_only v)
  unfold endTransaction
  dsimp only
  split
  · exact fallen.trans (high _)
  · exact fallen.trans (.ite (fun _ => high _) fun _ => (hb _ _).trans (high _))

theorem commandTransaction_class (bytes : List Byte) (cut : Bool) (status : Byte) (s : State) :
    KeepsClass s (commandTransaction bytes cut status s) := by
  have gathered : KeepsClass s (gatherFrame bytes cut (shiftOut (zeroBytes bytes.length) (clearShown status s))) :=
    .only (ps := [.port]) (((modPort_only _ s).trans (modPort_only _ _)).trans (modPort_only _ _))
  refine gathered.trans (.ite (fun _ => .only (modPort_only _ _)) fun _ => ?_)
  split
  · exact .only (modPort_only _ _)
  · exact takeHeadCommand_class _ _ _ _

theorem deliverCell_class (cell : Option Cell) (s : State) : KeepsClass s (deliverCell cell s) := by
  have command (tag : Byte) (payload : List Byte) : KeepsClass s (takeCommandCell tag payload s) := by
    cases payload with
    | nil => exact takeBaseCommand_class _ _ none s
    | cons opcode args => exact takeBaseCommand_class _ _ _ s
  cases cell with
  | none => exact .only (bump_only _ s)
  | some x => exact .ite (fun _ => command _ _) fun _ => .ite (fun _ => .only (relayArrives_only _ s)) fun _ => .refl s

theorem fieldsTaken_class (u : UpFrame) (s : State) : KeepsClass s (fieldsTaken u s) := by
  have classed : KeepsClass s (if isUp s then takeClassField u.classField s else s) :=
    .ite (fun _ => takeClassField_class _ s) fun _ => .refl s
  have selected (v : State) : KeepsClass v (match u.select with
      | none => v
      | some k => takeSelect k v) := by
    split
    · exact .refl v
    · exact takeSelect_class _ v
  have echoed (v : State) : KeepsClass v (echoTaken u v) :=
    (selected v).trans (.ite (fun _ => .same rfl) fun _ => .refl _)
  exact (classed.trans (echoed _)).trans (.ite (fun _ => .only (modTally_only _ _)) fun _ => .refl _)

theorem deliverFrame_class (u : UpFrame) (s : State) : KeepsClass s (deliverFrame u s) := by
  have header : KeepsClass s (deliverHeader u s) := by
    rw [deliverHeader_eq]
    exact ((KeepsClass.only (modRx_only _ s)).trans (.only (echoCompare_only _ _))).trans (fieldsTaken_class u _)
  exact ((header.trans (deliverCell_class u.cell _)).trans (.ite (fun _ => .only (takeAux_only _ _)) fun _ => .refl _)).trans
    (.only (deliverReturns_only _ _))

theorem takeUpstream_class (bytes : List Byte) (s : State) : KeepsClass s (takeUpstream bytes s) := by
  have marked (f : UpReceiver → UpReceiver) : KeepsClass s (s.modRx f) := .only (modRx_only f s)
  exact .ite (fun _ => .refl s) fun _ => .ite (fun _ => .only (bump_only _ s)) fun _ =>
    .ite (fun _ => (marked _).trans (deliverFrame_class _ _)) fun _ => (marked _).trans (.only (bump_only _ _))

/-! ### Time -/

theorem referenceTick_class (s : State) : KeepsClass s (referenceTick s) := by
  have framed : KeepsClass s (tickFramed s) := (KeepsClass.only (modPlan_only _ s)).trans (frameEvent_class _)
  have judged : KeepsClass s (tickJudged s) := framed.trans (.ite (fun _ => superviseTick_class _) fun _ => .refl _)
  rw [referenceTick_eq]
  exact ((judged.trans (.only (each_only silenceTick_only _ _))).trans (.only (tallyTick_only _))).trans
    (.only (tickEnded_only _))

theorem whenOut_class {timer : Timers → Option Nat} {f : State → State} (hf : ∀ s, KeepsClass s (f s)) (s : State) :
    KeepsClass s (whenOut timer f s) := .ite (fun _ => hf s) fun _ => .refl s

theorem millisecond_class (s : State) : KeepsClass s (millisecond s) := by
  have counted : KeepsClass s (countTimers s) := .same rfl
  have held (v : State) : KeepsClass v (if holdIsOut v.plan.hold then holdExpiry v else v) :=
    .ite (fun _ => .only (holdExpiry_only v)) fun _ => .refl v
  have retried (v : State) : KeepsClass v (if v.link.timers.retry = .running 0 then retryExpiry v else v) :=
    .ite (fun _ => retryExpiry_class v) fun _ => .refl v
  unfold millisecond
  exact (((((((counted.trans (held _)).trans (retried _)).trans (whenOut_class measureExpiry_class _)).trans
    (whenOut_class offerExpiry_class _)).trans (whenOut_class answerExpiry_class _)).trans
    (whenOut_class marginExpiry_class _)).trans (whenOut_class stepUpExpiry_class _)).trans (.only (referenceMs_only _))

end Sys2Proof.Proofs

/-! # Proofs: the class law and the reset values at every step (O8)

While reset is low no row but the reset input's own reaches a block, and the levels of the pins follow their inputs (R182). -/

namespace Sys2Proof.Proofs

open Sys2Proof.Machine Sys2Proof.Claims

variable {s t u : State} {ps : List Part}

/-! ### The reset values while reset is low -/

theorem resetLaw_of_high (high : s.pins.resetLow = false) : ResetLaw s := fun low => nomatch high.symm.trans low

/-- Pins may move while the blocks hold their reset values. -/
theorem holdsReset_modPins (f : Pins → Pins) (h : HoldsReset s) : HoldsReset (s.modPins f) :=
  (congrArg (State.modPins f) h :)

theorem resetLaw_modPins {f : Pins → Pins} (hf : ∀ p, (f p).resetLow = p.resetLow) (law : ResetLaw s) :
    ResetLaw (s.modPins f) := fun low => holdsReset_modPins f (law ((hf s.pins).symm.trans low))

/-- With no transaction open, the rise of select leaves every block at its reset value. -/
theorem holdsReset_selectHigh (h : HoldsReset s) : HoldsReset (selectHigh s) := (congrArg selectHigh h :)

/-- The fall of select opens no transaction while reset is low (R182). -/
theorem selectFalls_low (low : s.pins.resetLow = true) :
    selectFalls s = s ∨ selectFalls s = s.modPins fun p => { p with selectLow := true } := by
  unfold selectFalls
  split
  · exact .inl rfl
  · exact .inr (if_pos low)

theorem holdsReset_selectFalls (low : s.pins.resetLow = true) (h : HoldsReset s) : HoldsReset (selectFalls s) := by
  obtain same | fallen := selectFalls_low low
  · rwa [same]
  · rw [fallen]
    exact holdsReset_modPins _ h

/-- The fall of select moves no other pin. -/
theorem selectFalls_resetLow (s : State) : (selectFalls s).pins.resetLow = s.pins.resetLow := by
  unfold selectFalls
  split
  · rfl
  · dsimp only
    split <;> rfl

theorem endTransaction_resetLow {body : Byte → State → State} (hb : ∀ b s, OnlyChanges blockParts s (body b s)) (s : State) :
    (endTransaction body s).pins.resetLow = s.pins.resetLow := by
  have fallen := selectFalls_resetLow s
  unfold endTransaction
  dsimp only
  split
  · exact fallen
  · split
    · exact fallen
    · exact (congrArg Pins.resetLow (hb _ _ .pins (by decide))).trans fallen

/-- A transaction while reset is low is a fall and a rise of select. -/
theorem endTransaction_low {body : Byte → State → State} (low : s.pins.resetLow = true) :
    endTransaction body s = selectHigh (selectFalls s) := by
  unfold endTransaction
  dsimp only
  split
  · rfl
  · exact if_pos ((selectFalls_resetLow s).trans low)

/-! ### What a row keeps -/

/-- A step from s to t keeps both laws of O8. -/
structure KeepsClassAndReset (s t : State) : Prop where
  classLaw : KeepsClass s t
  resetLaw : ResetLaw s → ResetLaw t

theorem KeepsClassAndReset.refl (s : State) : KeepsClassAndReset s s := ⟨.refl s, id⟩

theorem KeepsClassAndReset.trans (h : KeepsClassAndReset s t) (k : KeepsClassAndReset t u) : KeepsClassAndReset s u :=
  ⟨h.classLaw.trans k.classLaw, k.resetLaw ∘ h.resetLaw⟩

/-- What does nothing while reset is low, and moves no pin otherwise. -/
theorem KeepsClassAndReset.of_live (classLaw : KeepsClass s t) (low : s.pins.resetLow = true → t = s)
    (pins : t.pins.resetLow = s.pins.resetLow) : KeepsClassAndReset s t := by
  refine ⟨classLaw, fun law => ?_⟩
  cases reset : s.pins.resetLow with
  | true => rwa [low reset]
  | false => exact resetLaw_of_high (pins.trans reset)

theorem KeepsClassAndReset.modPins (f : Pins → Pins) (hf : ∀ p, (f p).resetLow = p.resetLow := by intro _; rfl) :
    KeepsClassAndReset s (s.modPins f) := ⟨.only (modPins_only f s), resetLaw_modPins hf⟩

/-- An event that the part takes with reset high alone. -/
theorem whenLive_classAndReset {f : State → State} (only : ∀ s, OnlyChanges ps s (f s)) (classLaw : ∀ s, KeepsClass s (f s))
    (s : State) (hp : Part.pins ∉ ps := by decide) : KeepsClassAndReset s (whenLive f s) := by
  refine .of_live (.ite (fun _ => .refl s) fun _ => classLaw s) (fun low => if_pos low) ?_
  unfold whenLive
  split
  · rfl
  · exact congrArg Pins.resetLow (only s .pins hp)

/-- An event of another block. -/
theorem whenLive_apart {f : State → State} (only : ∀ s, OnlyChanges ps s (f s)) (s : State)
    (hp : Part.pins ∉ ps := by decide) (hl : Part.link ∉ ps := by decide) : KeepsClassAndReset s (whenLive f s) :=
  whenLive_classAndReset only (fun s => .only (only s) hl) s hp

theorem endTransaction_classAndReset {body : Byte → State → State} (only : ∀ b s, OnlyChanges blockParts s (body b s))
    (classLaw : ∀ b s, KeepsClass s (body b s)) (s : State) : KeepsClassAndReset s (endTransaction body s) := by
  refine ⟨endTransaction_class classLaw s, fun law low => ?_⟩
  rw [endTransaction_resetLow only] at low
  rw [endTransaction_low low]
  exact holdsReset_selectHigh (holdsReset_selectFalls low (law low))

/-- A transaction that reaches the head port alone. -/
theorem endTransaction_port {body : Byte → State → State} (only : ∀ b s, OnlyChanges [.port] s (body b s)) (s : State) :
    KeepsClassAndReset s (endTransaction body s) :=
  endTransaction_classAndReset (fun b s => (only b s).wider) (fun b s => .only (only b s)) s

theorem selectFalls_classAndReset (s : State) : KeepsClassAndReset s (selectFalls s) := by
  refine ⟨.only (selectFalls_only s), fun law low => ?_⟩
  rw [selectFalls_resetLow] at low
  exact holdsReset_selectFalls low (law low)

theorem submit_classAndReset (o : Origin) (tag : Byte) (c : Cmd) (s : State) : KeepsClassAndReset s (submit o tag c s) :=
  .of_live (submit_class o tag c s) (fun low => submit_low low o tag c)
    (congrArg Pins.resetLow (submit_only o tag c s .pins (by decide)))

/-- The rise of reset starts every block, and reset is high after it (R174, R182). -/
theorem releaseReset_classAndReset (s : State) : KeepsClassAndReset s (releaseReset s) := by
  unfold releaseReset
  split
  · have high : (startFromReset 1 (s.modPins fun p => { p with resetLow := false })).pins.resetLow = false :=
      congrArg Pins.resetLow (startFromReset_only 1 _ .pins (by decide))
    exact ⟨(KeepsClass.only (modPins_only _ s)).trans (startFromReset_class 1 _), fun _ => resetLaw_of_high high⟩
  · exact .refl s

/-! ### The rows -/

theorem exec_classAndReset (i : Instr) (h : exec i s = .next t) : KeepsClassAndReset s t := by
  induction i using instr_cases with
  | command o tag c => rw [exec_row] at h; cases h; exact submit_classAndReset o tag c s
  | pinReset => cases h; exact ⟨fun _ => .atWorst rfl rfl rfl, fun _ _ => rfl⟩
  | resetRelease => cases h; exact releaseReset_classAndReset s
  | referenceTick => cases h; exact whenLive_classAndReset referenceTick_only referenceTick_class s
  | tileBurst l b bytes =>
    rw [exec, execTileBurst] at h
    split at h
    · cases h; exact (KeepsClassAndReset.modPins _).trans (whenLive_apart (takeBurst_only l _) _)
    · cases h
  | boardReadyFall l => cases h; exact (KeepsClassAndReset.modPins _).trans (whenLive_apart (boardReadyFall_only l) _)
  | laneSilenceExpiry l => cases h; exact whenLive_apart (silenceExpiry_only l) s
  | switchCountdownEnd => cases h; exact whenLive_apart countdownEnd_only s
  | classCountdownEnd => cases h; exact whenLive_classAndReset classCountEnd_only classCountEnd_class s
  | trainSwitchEnd => cases h; exact whenLive_classAndReset trainEnd_only trainEnd_class s
  | echoWatchExpiry => cases h; exact whenLive_apart echoExpiry_only s
  | lossCriterionMet => cases h; exact whenLive_classAndReset lossCriterion_only lossCriterion_class s
  | referenceLost => cases h; exact whenLive_apart referenceGone_only s
  | holdTimerExpiry => cases h; exact whenLive_apart holdExpiry_only s
  | retryTimerExpiry => cases h; exact whenLive_classAndReset retryExpiry_only retryExpiry_class s
  | measureTimerExpiry => cases h; exact whenLive_classAndReset measureExpiry_only measureExpiry_class s
  | offerTimerExpiry => cases h; exact whenLive_classAndReset offerExpiry_only offerExpiry_class s
  | answerTimerExpiry => cases h; exact whenLive_classAndReset answerExpiry_only answerExpiry_class s
  | marginTimerExpiry => cases h; exact whenLive_classAndReset marginExpiry_only marginExpiry_class s
  | stepUpTimerExpiry => cases h; exact whenLive_classAndReset stepUpExpiry_only stepUpExpiry_class s
  | tallyHoldExpiry => cases h; exact whenLive_apart tallyExpiry_only s
  | carrierRise =>
    cases h; exact (KeepsClassAndReset.modPins _).trans (whenLive_classAndReset settleDown_only settleDown_class _)
  | carrierFall =>
    cases h; exact (KeepsClassAndReset.modPins _).trans (whenLive_classAndReset carrierLost_only carrierLost_class _)
  | marginWarningRise =>
    rw [exec, execMarginWarningRise] at h
    split at h
    · cases h; exact .refl s
    · cases h; exact (KeepsClassAndReset.modPins _).trans (whenLive_classAndReset warningRises_only warningRises_class _)
  | marginWarningFall =>
    rw [exec, execMarginWarningFall] at h
    split at h
    · cases h; exact (KeepsClassAndReset.modPins _).trans (whenLive_classAndReset warningFalls_only warningFalls_class _)
    · cases h; exact .refl s
  | measurementResult k => cases h; exact whenLive_classAndReset (takeMeasurement_only k) (takeMeasurement_class k) s
  | upstreamFrame bytes => cases h; exact whenLive_classAndReset (takeUpstream_only bytes) (takeUpstream_class bytes) s
  | headCommandFrame bytes cut =>
    cases h; exact endTransaction_classAndReset (commandTransaction_only bytes cut) (commandTransaction_class bytes cut) s
  | fetch n => cases h; exact endTransaction_port (fetchTransaction_only n) s
  | invalidTransaction kind n =>
    rw [exec, execInvalidTransaction] at h
    split at h
    · cases h
    · cases h; exact endTransaction_port (invalidTransaction_only kind n) s
  | sidelineByteReceived i d p b => cases h; exact whenLive_apart (sideIn_only i d p b) s
  | sidelineByteSent i => cases h; exact whenLive_apart (sideSent_only i) s
  | returnTileTake => cases h; exact whenLive_apart viewfinderTakes_only s
  | selectFall => cases h; exact selectFalls_classAndReset s

/-- A command leaves the queue; the laws do not read what waits. -/
theorem popped_classAndReset (rest : List Instr) (s : State) : KeepsClassAndReset s { s with pending := rest } :=
  ⟨.same rfl, fun law low => (congrArg (fun v : State => { v with pending := rest }) (law low) :)⟩

theorem idle_classAndReset (s : State) : KeepsClassAndReset s (idle s) :=
  .of_live (.ite (fun _ => .refl s) fun _ => millisecond_class s) (fun low => if_pos low)
    (congrArg Pins.resetLow (idle_only s .pins (by decide)))

theorem step_classAndReset (h : step s = .next t) : KeepsClassAndReset s t := by
  unfold step at h
  split at h
  · cases h
    exact idle_classAndReset s
  · exact (popped_classAndReset _ s).trans (exec_classAndReset _ h)

/-- Settles O8, by the operations of the part for the class law, and for the reset values by what the rows do while reset is
low. -/
theorem everyStepKeepsTheClassAndResetLaws : Obligations.EveryStepKeepsTheClassAndResetLaws :=
  ⟨fun s t law h => (classLaw_iff t).mpr ((step_classAndReset h).classLaw ((classLaw_iff s).mp law)),
    fun _ _ law h => (step_classAndReset h).resetLaw law⟩

end Sys2Proof.Proofs

/-! # Proofs: LINK_CRITERIA, LINK_RETRAIN and CLASS_REQUEST (O25) -/

namespace Sys2Proof.Proofs

open Sys2Proof.Machine Sys2Proof.Claims

variable {s t : State} {o : Origin} {tag direction : Byte} {up : Bool} {k : RateClass}

/-! ### LINK_CRITERIA (R139) -/

theorem boolNum_getLsbD (b : Byte) (i : Nat) : boolNum (b.getLsbD i) = b.toNat / 2 ^ i % 2 := by
  rw [getLsbD_eq_decide]
  obtain even | odd := Nat.mod_two_eq_zero_or_one (b.toNat / 2 ^ i)
  · rw [even]
    rfl
  · rw [odd]
    rfl

/-- The response gives the enables as set: the low four bits of the argument. -/
theorem byteOf_criteriaNum (set : Byte) : byteOf (criteriaNum (criteriaOf set)) = set &&& 15 := by
  have low : (set &&& 15).toNat = set.toNat % 2 ^ 4 := 
    (BitVec.toNat_and ..).trans (Nat.and_two_pow_sub_one_eq_mod set.toNat 4)
  refine BitVec.eq_of_toNat_eq ?_
  simp only [toNat_byteOf, criteriaNum, criteriaOf, boolNum_getLsbD, low]
  omega

theorem exec_linkCriteria (ready : Ready .head s) (set : Byte) :
    exec (.linkCriteria .head tag set) s = replies .head 18 tag .done [set &&& 15]
      { s with link := { s.link with criteria := criteriaOf set } } := by
  rw [← byteOf_criteriaNum]
  exact exec_taken (c := .linkCriteria set) ready rfl rfl nofun

/-! ### LINK_RETRAIN (R131, R134, R145) -/

theorem exec_linkRetrain_refused (ready : Ready o s) (h : s.link.state = .disabled ∨ s.link.state = .test) :
    exec (.linkRetrain o tag) s = replies o 19 tag .state [] s := by
  have effect : cmdLinkRetrain s = (s, refusal .state) := if_pos h
  exact exec_taken (c := .linkRetrain) ready (congrArg (fun x => (x.1, some x.2)) effect)

theorem exec_linkRetrain_accepted (ready : Ready o s) (h : ¬ (s.link.state = .disabled ∨ s.link.state = .test))
    (ht : retrainLink s = t) : exec (.linkRetrain o tag) s = replies o 19 tag .accepted [] t := by
  have effect : cmdLinkRetrain s = (t, acceptedWith []) := ht ▸ if_neg h
  exact exec_taken (c := .linkRetrain) ready (congrArg (fun x => (x.1, some x.2)) effect)

/-! ### CLASS_REQUEST (R142, R145) -/

theorem directionOf_byte (h : direction = 1 ∨ direction = 2) : ∃ up, directionOf direction.toNat = some up := by
  obtain rfl | rfl := h
  · exact ⟨true, rfl⟩
  · exact ⟨false, rfl⟩

theorem exec_classRequest (ready : Ready o s) {r : Reply} (h : cmdClassRequest direction s = (t, r)) :
    exec (.classRequest o tag direction) s = replies o 20 tag r.result r.data t :=
  exec_taken (c := .classRequest direction) ready (congrArg (fun x => (x.1, some x.2)) h)

theorem exec_classRequest_not_up (ready : Ready o s) (not_up : s.link.state ≠ .up) (h : direction = 1 ∨ direction = 2) :
    exec (.classRequest o tag direction) s = replies o 20 tag .state [] s := by
  obtain ⟨up, named⟩ := directionOf_byte h
  have out : isUp s = false := by rw [← Bool.not_eq_true, isUp_iff]; exact not_up
  refine exec_classRequest (r := refusal .state) ready ?_
  simp only [cmdClassRequest, named, out, Bool.not_false, if_true, refused]

theorem exec_classRequest_busy (ready : Ready o s) (in_up : s.link.state = .up) (standing : s.link.proposal ≠ .idle)
    (h : direction = 1 ∨ direction = 2) : exec (.classRequest o tag direction) s = replies o 20 tag .busy [] s := by
  obtain ⟨up, named⟩ := directionOf_byte h
  refine exec_classRequest (r := refusal .busy) ready ?_
  simp only [cmdClassRequest, named, (isUp_iff s).mpr in_up, Bool.not_true, Bool.false_eq_true, if_false, if_pos standing,
    refused]

section
variable (ready : Ready o s) (in_up : s.link.state = .up) (idle : s.link.proposal = .idle)
include ready in_up idle

/-- In UP with no proposal a request beyond the ceiling or class 5 is clamped. -/
theorem exec_classRequest_clamped (named : directionOf direction.toNat = some up) (clamped : requestedClass s up = none) :
    exec (.classRequest o tag direction) s = replies o 20 tag .done [] s := by
  refine exec_classRequest (r := doneWith []) ready ?_
  simp only [cmdClassRequest, named, (isUp_iff s).mpr in_up, idle, clamped, Bool.not_true, Bool.false_eq_true, if_false, ne_eq,
    not_true_eq_false]

/-- In UP with no proposal the class asked for is proposed. -/
theorem exec_classRequest_proposes (named : directionOf direction.toNat = some up) (asked : requestedClass s up = some k) :
    exec (.classRequest o tag direction) s = replies o 20 tag .accepted [byteOf (classNum k)] (propose k s) := by
  refine exec_classRequest (r := acceptedWith [byteOf (classNum k)]) ready ?_
  simp only [cmdClassRequest, named, (isUp_iff s).mpr in_up, idle, asked, Bool.not_true, Bool.false_eq_true, if_false, ne_eq,
    not_true_eq_false]

end

theorem requestedClass_up (below : belowCeiling s = true) : requestedClass s true = stepUp s.link.classInForce :=
  if_pos below

theorem requestedClass_clamped (h : ¬ belowCeiling s = true) : requestedClass s true = none := if_neg h

/-- Settles O25: LINK_RETRAIN by the link state and the carrier, CLASS_REQUEST by the class that it asks for. -/
theorem linkCriteriaRetrainAndClassRequest : Obligations.LinkCriteriaRetrainAndClassRequest := by
  refine ⟨fun tag set s ready => exec_linkCriteria ready set, fun o tag s ready => ⟨exec_linkRetrain_refused ready, ?_, ?_⟩,
    fun o tag s ready => ⟨fun not_up d => exec_classRequest_not_up ready not_up,
      fun in_up standing d => exec_classRequest_busy ready in_up standing, fun in_up idle => ?_⟩⟩
  · intro down gone
    exact exec_linkRetrain_accepted ready (by simp [down]) (if_pos ⟨down, gone⟩)
  · intro h
    have applies : ¬ (s.link.state = .disabled ∨ s.link.state = .test) := by
      obtain carrying | ⟨down, -⟩ := h
      · obtain state | state | state | state := carrying <;> simp [state]
      · simp [down]
    refine exec_linkRetrain_accepted ready applies (if_neg fun ⟨down, gone⟩ => ?_)
    obtain carrying | ⟨-, carrier⟩ := h
    · rw [down] at carrying
      simp [Carrying] at carrying
    · exact nomatch gone.symm.trans carrier
  · refine ⟨fun lowest => ?_, fun k worse => ?_, fun unknown => ?_, fun c ceiling => ⟨fun reached => ?_, fun k below better => ?_⟩⟩
    · exact exec_classRequest_clamped ready in_up idle (up := false) rfl (by rw [requestedClass, lowest]; rfl)
    · exact exec_classRequest_proposes ready in_up idle (up := false) rfl (stepDown_eq worse)
    · refine exec_classRequest_clamped ready in_up idle (up := true) rfl (requestedClass_clamped ?_)
      simp [belowCeiling_iff, unknown]
    · refine exec_classRequest_clamped ready in_up idle (up := true) rfl (requestedClass_clamped ?_)
      simpa [belowCeiling_iff, ceiling] using reached
    · refine exec_classRequest_proposes ready in_up idle (up := true) rfl ?_
      rw [requestedClass_up ((belowCeiling_iff s).mpr ⟨c, ceiling, below⟩), stepUp_eq better]

end Sys2Proof.Proofs

/-! # Proofs: upstream frames and the link (O54, O55)

The SELECT and the class field of an upstream frame, by the proposal that stands; and a frame in UP that only serves the tally
and the return port. -/

namespace Sys2Proof.Proofs

open Sys2Proof.Machine Sys2Proof.Claims

variable {s : State} {tag : Byte} {k j : RateClass}

/-! ### SELECT and the class field (R132, R142, R143) -/

theorem takeSelect_takes (offered : s.link.state = .offer) (within : withinCeiling s k = true) :
    takeSelect k s = { s with link := { resting .trainSwitch .stopped s.link with selected := some k } } :=
  if_pos ⟨offered, within⟩

theorem takeClassField_agree_proposing (h : s.link.proposal = .proposing j) :
    takeClassField (.agree k) s = if k = j then beginCountdown j false s else s := by simp only [takeClassField, h]

theorem takeClassField_refuse_proposing (h : s.link.proposal = .proposing j) :
    takeClassField .refuse s = proposalToNone (isStepUp s j) s := by simp only [takeClassField, h]

theorem takeClassField_propose_idle (h : s.link.proposal = .idle) : takeClassField (.propose k) s =
    if withinCeiling s k = true ∧ k ≠ s.link.classInForce then beginCountdown k true s else refuseNext s := by
  simp only [takeClassField, h]

/-- Two proposals that cross: the worse one goes on (R143). -/
theorem takeClassField_propose_proposing (h : s.link.proposal = .proposing j) : takeClassField (.propose k) s =
    if worse k j then
      if k = s.link.classInForce then refuseNext (proposalToNone (isStepUp s j) s) else beginCountdown k true s
    else if k = j then beginCountdown j false s
    else s := by simp only [takeClassField, h]

/-- A proposal that has no answer to come takes no AGREE and no REFUSE. -/
theorem takeClassField_agree_stands (h : ∀ j, s.link.proposal ≠ .proposing j) : takeClassField (.agree k) s = s := by
  cases proposal : s.link.proposal with
  | proposing j => exact absurd proposal (h j)
  | idle | counting => simp only [takeClassField, proposal]

theorem takeClassField_refuse_stands (h : ∀ j, s.link.proposal ≠ .proposing j) : takeClassField .refuse s = s := by
  cases proposal : s.link.proposal with
  | proposing j => exact absurd proposal (h j)
  | idle | counting => simp only [takeClassField, proposal]

theorem takeClassField_propose_counting {n : Nat} {b : Bool} (h : s.link.proposal = .counting n j b) :
    takeClassField (.propose k) s = s := by simp only [takeClassField, h]

theorem worse_iff (k j : RateClass) : worse k j = true ↔ classNum j < classNum k := by simp [worse]

/-- Settles O55, by the proposal that stands. -/
theorem theBaseSelectsAgreesAndProposes : Obligations.TheBaseSelectsAgreesAndProposes := by
  intro s j k c ceiling now after
  have within : withinCeiling s k = true ↔ classNum c ≤ classNum k := by simp [withinCeiling_iff, ceiling]
  refine ⟨fun offered le => takeSelect_takes offered (within.mpr le), fun h => ?_, fun idle => ?_, fun proposing => ?_,
    fun n b counting => ?_⟩
  · exact if_neg fun ⟨offered, le⟩ => h.elim (· offered) fun better => Nat.not_lt.mpr (within.mp le) better
  · have unanswered : ∀ j, s.link.proposal ≠ .proposing j := by simp [idle]
    have outcome := takeClassField_propose_idle (k := k) idle
    refine ⟨takeClassField_agree_stands unanswered, takeClassField_refuse_stands unanswered, fun le other => ?_, fun h => ?_⟩
    · exact outcome.trans (if_pos ⟨within.mpr le, other⟩)
    · exact outcome.trans (if_neg fun ⟨le, other⟩ => h.elim (Nat.not_lt.mpr (within.mp le)) other)
  · have agree := takeClassField_agree_proposing (k := k) proposing
    have outcome := takeClassField_propose_proposing (k := k) proposing
    refine ⟨?_, fun other => agree.trans (if_neg other), fun better => ?_, fun worse other => ?_, fun worse same => ?_, ?_⟩
    · rintro rfl
      refine ⟨agree.trans (if_pos rfl), outcome.trans ?_⟩
      rw [if_neg (by simp [worse_iff]), if_pos rfl]
      rfl
    · have other : k ≠ j := by
        rintro rfl
        exact Nat.lt_irrefl _ better
      rw [outcome, if_neg (by rw [worse_iff]; omega), if_neg other]
    · exact outcome.trans ((if_pos ((worse_iff k j).mpr worse)).trans (if_neg other))
    · refine outcome.trans ((if_pos ((worse_iff k j).mpr worse)).trans ((if_pos same).trans ?_))
      rw [proposalToNone_eq]
      rfl
    · exact (takeClassField_refuse_proposing proposing).trans (proposalToNone_eq _ s)
  · have unanswered : ∀ j, s.link.proposal ≠ .proposing j := by simp [counting]
    exact ⟨takeClassField_agree_stands unanswered, takeClassField_refuse_stands unanswered,
      takeClassField_propose_counting counting⟩

/-! ### A frame in UP (R150, R158, R159, R160) -/

/-- The DATA slots join the return buffer in their order, while it has room for them. -/
theorem each_takeReturn (rs : List ReturnSlot) (s : State)
    (room : s.ret.buffer.length + ((rs.filter fun r => r.kind == 1).map returned).length ≤ 48) :
    State.each takeReturn rs s = { s with ret := { s.ret with
      buffer := s.ret.buffer ++ (rs.filter fun r => r.kind == 1).map returned } } := by
  induction rs generalizing s with
  | nil => simp [State.each]
  | cons r rs ih =>
    by_cases data : r.kind = 1
    · simp only [List.filter_cons, data, beq_self_eq_true, if_true, List.map_cons, List.length_cons] at room ⊢
      rw [State.each, takeReturn_joins data (by omega), ih _ (by simp only [List.length_append, List.length_singleton]; omega)]
      simp only [List.append_assoc, List.singleton_append]
    · have other : (r.kind == 1) = false := beq_eq_false_iff_ne.mpr data
      simp only [List.filter_cons, other, Bool.false_eq_true, if_false] at room ⊢
      rw [State.each, takeReturn_other data, ih s room]

/-- In UP the header of a frame without a class field sets the class echo and the tally outputs. -/
theorem headerTaken_up {u : UpFrame} (in_up : s.link.state = .up) (silent : u.classField = .none) : headerTaken u s =
    { s with
      link := { s.link with lastClassEcho := u.classEcho },
      tally := { program := u.program, preview := u.preview, call := u.call, hold := 32 } } := by
  simp only [headerTaken, in_up, silent, takeClassField]

/-- A frame with an IDLE cell and no auxiliary record leaves the rest to its header and its return slots. -/
theorem takeUpstream_up {bytes : List Byte} {u : UpFrame} {payload : List Byte} (in_up : s.link.state = .up)
    (first : s.rx.period = .empty) (watching : s.plan.echo = .idle) (passes : upFramePasses s.rx.expected bytes = true)
    (hu : upFrameOf s.rx.expected bytes = u) (cell : u.cell = some { kind := 0, tag := tag, payload := payload })
    (silent : u.classField = .none) (aux : u.aux = ⟨[], [], []⟩) :
    takeUpstream bytes s = State.each takeReturn u.returns { tookFrame u s with
      link := { s.link with lastClassEcho := u.classEcho },
      tally := { program := u.program, preview := u.preview, call := u.call, hold := 32 } } := by
  have receiving : receives s = true := by simp [receives, in_up]
  have compared : echoCompare u.echo (tookFrame u s) = tookFrame u s := echoCompare_idle watching
  have header := headerTaken_up (s := tookFrame u s) (u := u) in_up silent
  have idle (v : State) : deliverCell u.cell v = v := by rw [cell]; rfl
  rw [takeUpstream_valid receiving first passes, hu]
  dsimp only
  rw [idle, compared, header, slotsTaken_up u (by exact in_up), aux]
  rfl

/-- Settles O54, by the header and the return slots. -/
theorem aFrameInUpServesTallyAndReturns : Obligations.AFrameInUpServesTallyAndReturns := by
  intro bytes s live in_up first watching passes u tiles tag payload cell silent aux room
  refine next_whenLive live ?_
  rw [takeUpstream_up in_up first watching passes rfl cell silent aux]
  exact each_takeReturn _ _ room

end Sys2Proof.Proofs
